-- ==== Sys2Proof/Word.lean ====
section
/-! DEFINITION. The word types of the SV128 model: bytes, BF16 codes, FP32 codes and 64-bit words are what the
manual treats as bits; everything the manual counts is a natural number. -/

namespace Sys2Proof

/-- One byte of a store, a record or a payload. -/
abbrev Byte := BitVec 8

/-- A BF16 code (R146, R164). -/
abbrev BF16 := BitVec 16

/-- An IEEE 754 binary32 code (R371). -/
abbrev FP32 := BitVec 32

/-- One 64-bit word of the host window (R379). -/
abbrev Word64 := BitVec 64

end Sys2Proof
end

