-- ==== Sys2Proof/Syntax.lean ====
section
/-! DEFINITION. The commands the SV128 takes from outside, one constructor per row of the opcode table, and the data
types of their operands: roles, packets, flits, Timetable words and slots, tile and vector descriptors. -/

namespace Sys2Proof

/-- The role a dictionary access carries (R10, R372): operator, manager, tenant, board controller. -/
inductive Role where
  | op | mgr | ten | brd
deriving DecidableEq, Repr, Inhabited

/-! ### Beat-class packets (R92 to R96) -/

/-- One choice entry of a Consist or a Manifest (R93, R95). -/
structure ChoiceEntry where
  choice  : Nat
  pslot   : Nat
  expert  : Nat
  gate    : FP32
  dropped : Bool
  unavail : Bool
deriving DecidableEq, Repr, Inhabited

/-- The beat-class header of R92. `flags` holds FLAGS bits [31:16]. -/
structure BeatHdr where
  kind        : Nat
  lslot       : Nat
  flags       : BitVec 16
  srcRank     : Nat
  dstRank     : Nat
  batchTag    : Nat
  lane        : Nat
  position    : Nat
  gen         : Nat
  entryRank   : Nat
  beat        : Nat
  nextRank    : Nat
  homeCluster : Nat
deriving DecidableEq, Repr, Inhabited

/-- A beat-class packet: header and the payload of its kind (R93 to R96). `cands` are the records of a candidate set
(R79), `token` and `tokFlags` the payload of a sampled token. -/
structure BeatPacket where
  hdr      : BeatHdr
  entries  : List ChoiceEntry
  vec      : List BF16
  cands    : List (Nat × FP32)
  token    : Nat
  tokFlags : BitVec 8
deriving DecidableEq, Repr, Inhabited

/-! ### Other packets -/

/-- The routing header of R227. -/
structure RouteHdr where
  dst       : Nat
  src       : Nat
  job       : Nat
  cls       : Nat
  mc        : Bool
  down      : Bool
  lastLevel : Nat
deriving DecidableEq, Repr, Inhabited

/-- A remote-memory packet: the header of R253 and its data. `rsvd` are its reserved bits, the lowest first. -/
structure RmPacket where
  opc      : Nat
  dtype    : Nat
  cache    : Bool
  combined : Bool
  cause    : Nat
  srcRank  : Nat
  dstRank  : Nat
  tag      : Nat
  len      : Nat
  jva      : Nat
  version  : Nat
  rsvd     : Nat
  data     : List Byte
deriving DecidableEq, Repr, Inhabited

/-- A collective packet: the header of R280 and its payload. -/
structure CollPacket where
  kind   : Nat
  phase  : Nat
  cause  : Nat
  group  : Nat
  seqNo  : Nat
  srcOrd : Nat
  dstOrd : Nat
  chunk  : Nat
  crc    : Nat
  data   : List Byte
deriving DecidableEq, Repr, Inhabited

/-- The header of a DX packet (R386). -/
structure DxHdr where
  cmd    : Nat
  shadow : Bool
  final  : Bool
  sub    : Nat
  index  : Nat
  seqNo  : Nat
  offset : Nat
  len    : Nat
  abort  : Nat
deriving DecidableEq, Repr, Inhabited

/-- The messages of the management/time class: the notices of R472, discovery and adoption (R353, R354), heartbeats,
reports (R361), DX packets (R386). An undeliverable notice carries the first bytes of the packet it tells of. -/
inductive MgmtMsg where
  | cancel (tag gen cb : Nat)
  | undeliverable (cause : Nat) (copy : List Byte)
  | endNotice (tag lane position gen cause : Nat)
  | hello (location grade stepping domain : Nat)
  | admitted (manager domain : Nat)
  | adopt (standby domain : Nat)
  | heartbeat (sender : Nat)
  | report (kind peerOrPort cause : Nat)
  | dxRequest (h : DxHdr) (payload : List Byte)
  | dxResponse (h : DxHdr) (payload : List Byte)
  | exchange (domain sender sentAt corr : Nat)
  | exchangeAnswer (domain askedAt askCorr heardAt sentAt boundPs corr : Nat)
  | failover (lost standin : Nat)
deriving DecidableEq, Repr, Inhabited

/-- The body of a fabric packet, by class of message. -/
inductive Body where
  | beat (p : BeatPacket)
  | rm (p : RmPacket)
  | coll (p : CollPacket)
  | mgmt (m : MgmtMsg)
deriving DecidableEq, Repr, Inhabited

/-- A fabric packet: routing header, the members of a multicast copy (R237) and the body. -/
structure Packet where
  route   : RouteHdr
  mask    : Nat
  members : List Nat
  body    : Body
deriving DecidableEq, Repr, Inhabited

/-! ### Timetable words (R189 to R196) -/

/-- The five engines of a core, in the order of R189. -/
inductive Engine where
  | ae | se | ve | tt | mv
deriving DecidableEq, Repr, Inhabited

/-- An operand of an engine slot: its address register, nested strides and post-increment (R192). -/
structure Operand where
  reg     : Nat
  e0      : Nat
  s0      : Int
  e1      : Nat
  s1      : Int
  s2      : Int
  postInc : Int
deriving DecidableEq, Repr, Inhabited

/-- A slot's repeat count: an immediate or an event counter (R191). -/
inductive RepeatSrc where
  | imm (n : Nat)
  | ctr (i : Nat)
deriving DecidableEq, Repr, Inhabited

/-- One engine slot of a word. -/
structure EngSlot where
  engine   : Engine
  rep      : RepeatSrc
  gate     : Option Nat
  inc      : Option Nat
  errCtr   : Option Nat
  operands : List Operand
deriving DecidableEq, Repr, Inhabited

/-- A signal line as a list names it (R196). -/
inductive LineRef where
  | cluster (n : Nat)
  | die (n : Nat)
deriving DecidableEq, Repr, Inhabited

/-- The relation of a comparator (R194). -/
inductive CmpRel where
  | eq | ne | lt | ge
deriving DecidableEq, Repr, Inhabited

/-- A comparator setting (R194): a counter against an immediate or a second counter. -/
structure CmpSetting where
  ctr : Nat
  rel : CmpRel
  rhs : RepeatSrc
deriving DecidableEq, Repr, Inhabited

/-- The operations of a SYNC slot (R196). -/
inductive SyncOp where
  | fence (mask : List Engine)
  | raise (line : LineRef) (n : Nat)
  | wait (line : LineRef)
  | barrier (line : LineRef) (n : Nat)
  | waitOffset (t : Nat)
  | hold (cp : Nat)
  | config (cp : Nat) (setting : CmpSetting)
  | splice
deriving DecidableEq, Repr, Inhabited

/-- A Timetable word (R189): at most one SYNC slot and at most one slot for each engine, and its size in bytes (R204). -/
structure TWord where
  sync  : Option SyncOp
  slots : List EngSlot
  bytes : Nat
deriving DecidableEq, Repr, Inhabited

/-! ### Descriptors of engine work -/

/-- The token a stage works on: batch tag, lane, position, generation and entry rank (R92). -/
structure TokenId where
  tag       : Nat
  lane      : Nat
  position  : Nat
  gen       : Nat
  entryRank : Nat
deriving DecidableEq, Repr, Inhabited

/-- The narrow and wide element formats (R142 to R146, R158). -/
inductive EltFmt where
  | fp4 | e2m3 | e3m2 | e4m3 | e5m2 | mxint8 | int4 | int2 | ternary | bf16 | fp32
deriving DecidableEq, Repr, Inhabited

/-- Where an operand of an engine command lies: a literal scratchpad offset, or operand k of the engine's running slot
at its current repeat (R192). -/
inductive Addr where
  | lit (a : Nat)
  | opnd (k : Nat)
deriving DecidableEq, Repr, Inhabited

/-- A tile as the word that loads it describes it (R134, R145): formats, columns, depth and fold of its arrangement, and
the addresses of its elements and scales. -/
structure TileDesc where
  wfmt   : EltFmt
  afmt   : EltFmt
  cols   : Nat
  depth  : Nat
  fold   : Nat
  elems  : Addr
  scales : Addr
deriving DecidableEq, Repr, Inhabited

/-- One AE pass: the activation vector and the accumulator entries it feeds (R135, R148). -/
structure AePass where
  act      : Addr
  actScale : Addr
  entry0   : Nat
  start    : Bool
  base     : Int
deriving DecidableEq, Repr, Inhabited

/-- Read-out targets other than an MX format (R152). -/
inductive ReadTarget where
  | fp32 | bf16 | e4m3
deriving DecidableEq, Repr, Inhabited

/-- Where a read-out's elements go (R71, R152): to the scratchpad, or as the share of a token's stage-1 output that starts at
element `first` to the input queue of a cluster's Yard. -/
inductive ReadDst where
  | scratch (a : Addr)
  | yard (cluster lslot : Nat) (tok : TokenId) (first : Nat)
deriving DecidableEq, Repr, Inhabited

/-- A read-out of `count` accumulator entries (R152). -/
structure ReadOut where
  entry0 : Nat
  count  : Nat
  target : ReadTarget
  factor : Option Addr
  dst    : ReadDst
deriving DecidableEq, Repr, Inhabited

/-- One SE pass through a compressed tile (R173, R176, R180). -/
structure SePass where
  tile     : Addr
  tileLen  : Nat
  wfmt     : EltFmt
  afmt     : EltFmt
  scales   : Addr
  act      : Addr
  actScale : Addr
  entry0   : Nat
  start    : Bool
  base     : Int
deriving DecidableEq, Repr, Inhabited

/-- The functions of the vector engine (R170, R171). -/
inductive VeFn where
  | add | sub | mul | maximum
  | exp | sigmoid | tanh | rsqrt | recip
  | sum | maxReduce
  | rmsNorm | layerNorm | softmax
  | silu | gelu | relu | gatedProduct
deriving DecidableEq, Repr, Inhabited

/-- A VE slot: function, operand vectors of n FP32 elements, and the model's constants (R171). -/
structure VeOp where
  fn   : VeFn
  n    : Nat
  srcA : Addr
  srcB : Addr
  gain : Addr
  bias : Addr
  eps  : FP32
  dst  : Addr
deriving DecidableEq, Repr, Inhabited

/-- Where a quantise reads its vector (R24, R156): the scratchpad, or the hidden vector of an accepted choice in the cluster's
cell pool; `last` marks the expert's last read of it. -/
inductive QuantSrc where
  | scratch (a : Addr)
  | cell (pslot : Nat) (tok : TokenId) (choice : Nat) (last : Bool)
deriving DecidableEq, Repr, Inhabited

/-- A quantise descriptor and its vector (R156, R158). -/
structure QuantDesc where
  n        : Nat
  rot      : Nat
  srcWide  : Bool
  fmt      : EltFmt
  src      : QuantSrc
  scales   : Addr
  dst      : Addr
  dstScale : Addr
  clipSlot : Nat
deriving DecidableEq, Repr, Inhabited

/-- A dequantise or rotate of n elements (R156, R159, R164). -/
structure DequantDesc where
  n       : Nat
  rot     : Nat
  inverse : Bool
  fmt     : EltFmt
  src     : Addr
  scales  : Addr
  wide    : Bool
  dst     : Addr
deriving DecidableEq, Repr, Inhabited

/-- The two read-out paths through the Turntable (R156). -/
structure ReadMx where
  entry0   : Nat
  n        : Nat
  factor   : Option Addr
  rot      : Nat
  fmt      : EltFmt
  wide     : Bool
  scales   : Addr
  dst      : Addr
  dstScale : Addr
  clipSlot : Nat
deriving DecidableEq, Repr, Inhabited

/-- A place a mover slot reaches on its own device (R13, R24, R129, R192, R306): scratchpad, own cluster SRAM, a home address
with a byte offset, the vector of an accepted choice in the cluster's cell pool (`last` marks the expert's last read of it), or
the cluster's slice of a KV block of a user. -/
inductive MvPlace where
  | scratch (a : Addr)
  | shared (off : Nat)
  | home (addr off : Nat)
  | cell (pslot : Nat) (tok : TokenId) (choice off : Nat) (last : Bool)
  | kv (tok : TokenId) (lslot block off : Nat)
deriving DecidableEq, Repr, Inhabited

/-- The element types of ADDs and reductions (R251, R273). -/
inductive AddType where
  | int32 | int64 | fp32 | bf16
deriving DecidableEq, Repr, Inhabited

/-- A unit of the overrun table with unfinished work at a tick (R46, R48, R49): unit, cause it waited on, and the token
whose item it is, if the item belongs to one. -/
structure Unfinished where
  unit  : Nat
  cause : Nat
  token : Option (Nat × Nat)
deriving DecidableEq, Repr, Inhabited

/-- The stores of R435 in which an uncorrectable word can be found. -/
inductive SramStore where
  | scratchpad (core word : Nat)
  | accStore (core entry : Nat)
  | timetable (core bank word : Nat)
  | yardTable (cluster slot row : Nat)
  | softArea (cluster word : Nat)
  | cellPool (cluster : Nat) (tag lane position choice kind : Nat)
  | linkTable (cluster : Nat)
  | lineCache (rank jva : Nat)
  | junctionBuffer (p : Packet)
  | deviceTable
deriving DecidableEq, Repr, Inhabited

/-- The reset inputs (R446). -/
inductive ResetPin where
  | pwrOk | sysRst | perst
deriving DecidableEq, Repr, Inhabited

/-- A measurement record of the diagnostics, as its fields (R409 to R412). -/
structure DiagRec where
  idx    : Nat
  fields : List Nat
deriving DecidableEq, Repr, Inhabited

/-- Where a collective's descriptor comes from (R277): written to COLL_START, or in the scratchpad of a core whose mover slot names
it. -/
inductive CollSource where
  | host (r : Role) (descr : List Byte)
  | slot (core : Nat) (place : Addr)
deriving DecidableEq, Repr, Inhabited

/-- The commands of the block: one constructor per row of the opcode table, in the table's order. -/
inductive Instr where
  -- beat, hall time and the Interlock
  | tick (unfinished : List Unfinished)
  | cut (unit : Nat)
  | commitApply (r : Role)
  | tokenLost (tag lane : Nat)
  | maintenanceSlot (corrected : Nat) (audited : List Nat)
  | dramRefresh (channel : Nat) (foreground : Bool)
  | timeExchange (port domain managerTime : Nat) (offsetPs : Int) (delayPs boundPs managerBoundPs : Nat)
  | holdoverEntry
  | timeHoldEntry
  | hallTimeSet (r : Role) (t : Nat)
  | commitNextTick (r : Role)
  | commitAtBeat (r : Role)
  | commitCancel (r : Role)
  | commitDiscard (r : Role)
  | dictionaryWrite (r : Role) (index sub : Nat) (value : List Byte)
  -- the Yard
  | stage2Result (tok : TokenId) (lslot nextRank nextCluster : Nat) (hidden residual : List BF16)
  | stripedGroupRequest (lslot group : Nat) (tok : TokenId) (hidden : List BF16)
  | kvBlockSelection (core ctr lslot : Nat) (tok : TokenId) (entry summary : List Byte) (scores : List FP32)
  | gateCopyDone
  -- intake and expert execution
  | consistHeaderArrival (p : BeatPacket)
  | chainAllocate (cluster : Nat)
  | consistArrival (cluster : Nat) (p : BeatPacket)
  | intakeClose
  | predictionComplete (pslot : Nat) (tok : TokenId) (choice : Nat)
  | segmentSeal (core : Nat)
  | expertAnswerSend (pslot : Nat) (tok : TokenId) (choice : Nat) (overrun : Bool) (src : Nat)
  -- through-combine
  | answerArrival (p : BeatPacket)
  | refusalArrival (p : BeatPacket)
  | manifestArrival (p : BeatPacket)
  | orphanSweep
  | pendingExpiry
  | batchCancel (r : Role) (tag : Nat)
  | cancelNoticeArrival (tag gen cb : Nat)
  | cancelTakesEffect (tag : Nat)
  | cancelNoticeExpiry (tag gen : Nat)
  | vocabularyRequestArrival (p : BeatPacket) (logits : List FP32) (exitCluster : Nat)
  | candidateSetArrival (p : BeatPacket)
  | vocabMerge (tag lane entryCluster : Nat)
  | sampleEndExpiry (entryCluster : Nat)
  | sampledTokenArrival (p : BeatPacket)
  -- the sequencer
  | wordIssue (core : Nat)
  | fence (core : Nat) (mask : List Engine)
  | raise (core : Nat) (line : LineRef) (n : Nat)
  | wait (core : Nat) (line : LineRef)
  | barrier (core : Nat) (line : LineRef) (n : Nat)
  | waitOffset (core : Nat) (t : Nat)
  | hold (core cp : Nat)
  | config (core cp : Nat) (setting : CmpSetting)
  | splice (core : Nat)
  -- the engines
  | aePass (core : Nat) (p : AePass)
  | aeTileLoad (core : Nat) (t : TileDesc)
  | weightSwap (core waited : Nat)
  | readout (core : Nat) (d : ReadOut)
  | sePass (core : Nat) (p : SePass)
  | veOperation (core : Nat) (o : VeOp)
  | quantise (core : Nat) (d : QuantDesc)
  | dequantise (core : Nat) (d : DequantDesc)
  | rotate (core : Nat) (d : DequantDesc)
  | readOutToMx (core : Nat) (d : ReadMx)
  | readOutWithInverseRotation (core : Nat) (d : ReadMx)
  -- the mover
  | moverTransfer (core : Nat) (add : Option AddType) (src dst : MvPlace) (len : Nat)
  | mvRemoteRead (core rank jva len : Nat) (dst : Addr) (cache : Bool)
  | mvRemoteWrite (core rank jva len : Nat) (src : Addr)
  | mvRemoteAdd (core rank jva : Nat) (dtype : AddType) (src : Addr)
  | mvInvalidate (core rank jva len : Nat)
  | atomicAdd (core cluster off : Nat) (wide : Bool) (v : Nat) (dst : Addr)
  | atomicMin (core cluster off : Nat) (wide : Bool) (v : Nat) (dst : Addr)
  | atomicMax (core cluster off : Nat) (wide : Bool) (v : Nat) (dst : Addr)
  | atomicSwap (core cluster off : Nat) (wide : Bool) (v : Nat) (dst : Addr)
  | compareSwap (core cluster off : Nat) (wide : Bool) (expected v : Nat) (dst : Addr)
  -- loader objects
  | bankWrite (r : Role) (core bank : Nat) (obj : List Byte)
  | segTemplatesWrite (r : Role) (core : Nat) (obj : List Byte)
  -- ports and flits
  | flitReceive (port : Nat) (flit : List Byte) (fixed lost : Nat)
  | retryRequest (port seqNo : Nat)
  | laneFault (port lane : Nat)
  | laneRemapDone (port : Nat)
  | portSilenceTimeout (port : Nat)
  | portFail (port : Nat)
  | portTrainingDone (port : Nat) (up : Bool) (peer peerPort : Nat)
  | packetRoute (inPort : Option Nat) (p : Packet)
  | truncatedPacketArrival (p : Packet)
  | multicastInject (cls group mask srcCluster : Nat) (body : Body)
  | undeliverableNoticeArrival (cause : Nat) (copy : List Byte)
  | endNoticeArrival (tag lane position gen cause : Nat)
  | drainStart (r : Role)
  | drainRelease (r : Role)
  | drainDone
  | drainTimeout
  -- remote memory
  | rmRead (p : RmPacket)
  | rmWrite (p : RmPacket)
  | rmAdd (p : RmPacket)
  | readData (p : RmPacket)
  | ack (p : RmPacket)
  | nak (p : RmPacket)
  | invalidate (p : RmPacket)
  | invAck (p : RmPacket)
  | rmTimeout (core tag : Nat)
  | rmRecall (r : Role) (jpn : Nat)
  | recallDone
  -- collectives
  | collStart (src : CollSource)
  | ready (p : CollPacket)
  | data (p : CollPacket)
  | collAck (p : CollPacket)
  | resend (p : CollPacket)
  | abort (p : CollPacket)
  | collTimeout (group seqNo : Nat)
  -- homes and images
  | alloc (r : Role) (tier : Nat) (spread : Bool) (port cluster count : Nat)
  | free (r : Role) (home tier : Nat)
  | move (r : Role) (home tier : Nat) (spread : Bool) (port cluster : Nat)
  | park (r : Role) (tag lane tier port : Nat)
  | unpark (r : Role) (tag lane : Nat)
  | moveDone (home : Nat) (cause : Nat)
  | imageStore (r : Role) (bytes : List Byte)
  | imageDelete (r : Role) (id : Nat)
  | imageLoad (r : Role) (pslot : Nat)
  | imageLoadDone (pslot : Nat) (readOk : Bool)
  -- memory errors
  | sramUeDetect (store : SramStore) (corrected : Bool)
  | hbmUeDetect (line : Nat) (patrol corrected : Bool) (reader : Option (Nat × Nat))
  | forcedRelocation (stack channel : Nat)
  | readDisturbRelocate (stack block : Nat)
  | blockRetire (stack block spare : Nat)
  | cxlTimeout (core id : Nat)
  | cxlCompletion (core id : Nat) (poisoned : Bool)
  -- tenancy
  | tenantRegister (r : Role) (slot tenant share : Nat)
  | tenantDeregister (r : Role) (slot : Nat)
  | sessionBind (r : Role) (slot : Nat)
  | swapArm (r : Role)
  | swapDisarm (r : Role)
  | swapEpoch
  | swapSaveStart
  | swapSaveDone
  | swapScrubDone
  | swapRestoreDone (readOk : Bool)
  | swapResume
  | interferenceMinuteClose
  | reproKeyRecompute
  -- manager and workers
  | hello (location grade stepping domain : Nat)
  | admitReply (manager domain : Nat)
  | adopt (standby domain : Nat)
  | heartbeatSend
  | heartbeatReceive (sender : Nat)
  | mgrSilenceExpiry
  | heartbeatMissing (dev : Nat)
  | portFailed (port peer reporter : Nat)
  | laneRemapped (port lane reporter : Nat)
  | deviceFault (cause reporter : Nat)
  | tenantError (unit cause reporter : Nat)
  | mgmtCoreMiss
  | start (r : Role)
  | partitionRun
  | teardown (r : Role)
  | teardownBeat
  | readmit (r : Role) (beat : Nat)
  | rejoin
  | failover (lost standin : Nat)
  | replicaLoadDone (rank : Nat) (ok : Bool)
  | dxRequest (src : Nat) (h : DxHdr) (payload : List Byte)
  | dxResponse (h : DxHdr) (payload : List Byte)
  | dxRemoteTimeout (seqNo : Nat)
  -- the host window
  | read (r : Role) (sel len : Word64)
  | write (r : Role) (sel len : Word64)
  | patch (r : Role) (sel len : Word64)
  | cancel (r : Role)
  | dxDataWrite (r : Role) (words : List Word64)
  | dxDataRead (r : Role) (n : Nat)
  | dxSegmentMove (r : Role)
  | dxIdleTimeout (r : Role)
  | badWindowAccess (isRead : Bool) (len : Nat)
  | batch (r : Role) (rec : BitVec 128)
  | lane (r : Role) (rec : BitVec 128)
  | tokens (r : Role) (rec : BitVec 128)
  | close (r : Role) (rec : BitVec 128)
  | streamOutRead (r : Role) (n : Nat)
  | i3cRead (index sub : Nat)
  | i3cWrite (index sub : Nat) (value : List Byte)
  | i3cStatusRead
  | setdasa (static dyn : Nat)
  | entdaa (dyn : Nat)
  -- persistence, firmware, attestation, diagnostics
  | store (r : Role) (value : Nat)
  | storeDone (readBackOk : Bool)
  | restoreDefaults (r : Role) (value : Nat)
  | fwUpdate (r : Role) (image : List Byte)
  | fwUpdateDone (readBackOk : Bool)
  | attestNonce (r : Role) (nonce : List Byte)
  | attestCapture
  | attestSigned (r : Role)
  | hbmMargin (r : Role)
  | eyeScan (r : Role)
  | flashCheck (r : Role)
  | sramTest (r : Role)
  | diagDone (recs : List DiagRec)
  | clipFlagsClear (r : Role) (bits : List Byte)
  | auditAlarmClear (r : Role) (value : Nat)
  | clipWindowClose
  | auditWindowClose
  -- power-up, boot, package
  | resetAssert (pin : ResetPin) (widthNs : Nat)
  | resetRelease (pin : ResetPin) (devId : Nat)
  | rom (puf random : List Byte)
  | nvBank
  | firmware
  | hbm (recs : List DiagRec) (trained : Bool)
  | flash (recs : List DiagRec) (cxl0 cxl1 : Nat) (ext0 ext1 : Nat)
  | links (recs : List DiagRec)
  | discovery
  | thermalSample (milliC : Int) (powerMw : Nat)
  | thermalTrip
  | brefLoss
  | brefValid
  | vidStep (target : Nat)
  | combineRecordTimeout (record : Nat)
  | cxlPortDown (port : Nat)
  | cxlPortRetrain (port : Nat) (full : Bool)
  | portPeerPresent (port : Nat)
  | i3cTargetReady
  | reservedRecordKind (r : Role) (rec : BitVec 128)
deriving DecidableEq, Repr

end Sys2Proof
end

