-- ==== Sys2Proof/Config.lean ====
section
/-! DEFINITION. What the manual leaves to an implementation, keeps private, or takes from outside: opaque constants, so
that no proof can lean on a value the manual does not give, and the few numbers of a full-grade part. -/

namespace Sys2Proof.Config

/-- The operand pair of a tile and whether the SE runs it (R142, R175). -/
structure Pairing where
  onSe : Bool
  wfmt : EltFmt
  afmt : EltFmt
deriving DecidableEq, Repr, Inhabited

/-- The vector length, rotation block and target format of a Turntable descriptor (R158). -/
structure QuantShape where
  n   : Nat
  rot : Nat
  fmt : EltFmt
deriving DecidableEq, Repr, Inhabited

/-- What the loader checks of the work that a body's words name (R207): operand pairs, Turntable descriptors, BASE values, and
the cores its placements name. -/
structure Work where
  pairs  : List Pairing
  quants : List QuantShape
  bases  : List Int
  cores  : List Nat
deriving DecidableEq, Repr, Inhabited

/-- A decoded loader-object body of KIND 1 (R206, R207): the words of the list, the settings it declares, and the work they name.
The binary encoding is private (R2, R205); see assumption 3. -/
structure TimetableImage where
  words       : List TWord
  addrInit    : List Nat
  ctrPersist  : List Bool
  cmpInit     : List CmpSetting
  work        : Work
deriving DecidableEq, Repr, Inhabited

/-- One template of a KIND 2 object (R122, R208): its Platform slot, the words that fetch each granule of a CLASS 1 Platform,
those an accepted choice takes in each granule it keeps and after the last one, the event counter that takes the Platform's
arrival count (R100), the counters the runtime writes for each accepted choice, and the work the words name. -/
structure Template where
  pslot    : Nat
  fetch    : List (List TWord)
  granules : List (List TWord)
  close    : List TWord
  counter  : Option Nat
  writes   : List Nat
  work     : Work
deriving DecidableEq, Repr, Inhabited

/-- Every word of a template. -/
def Template.words (t : Template) : List TWord := t.fetch.flatten ++ t.granules.flatten ++ t.close

/-- The part of a sealed image that the active-neuron predictor uses (R123, R124): the learned scales its vector is quantised
with, the rows of its weights and their scales. -/
structure ImagePred where
  xscales  : List Nat
  rows     : List (List Byte)
  rowScale : List FP32
deriving DecidableEq, Repr, Inhabited

/-- The predictor weights of a sealed image's body, whose layout is private (R2, R123, assumption 36). -/
opaque imagePredictor : List Byte → ImagePred

/-- The activated value of a row of an expert for a vector (R126): the work of the expert's image, whose layout is private.
Arguments: the image's body, the row, the vector. -/
opaque rowActivation : List Byte → Nat → List BF16 → BitVec 32

/-- What the runtime writes to a counter for an accepted choice (R208): the manual gives no value. Arguments: the free-value
counter and the event counter. -/
opaque runtimeCount : Nat → Nat → Nat

/-- Where the live placement takes a token after a layer stage (R17, R96). -/
structure StagePlan where
  exit   : Bool
  shares : List Nat
deriving DecidableEq, Repr, Inhabited

/-- The placement's plan for a combined token (R17, R96), private to the toolchain: whether its exit stage runs here, and the
ranks that hold a vocabulary share. Arguments: the free-value counter, the layer slot its Manifest names, the batch tag and the
lane. -/
opaque stagePlan : Nat → Nat → Nat → Nat → StagePlan

/-- An element of a token's final-normed vector (R79, R96): the norm's gains are model data that the manual does not give.
Arguments: the residual and the element. -/
opaque finalNorm : List BF16 → Nat → BF16

/-- The private encoding of a KIND 1 body (R2, R205): a fixed but unknown function of the body bytes. -/
opaque decodeTimetable : List Byte → TimetableImage

/-- The private encoding of a KIND 2 body (R2, R208). -/
opaque decodeTemplates : List Byte → List Template

/-- Whether the slots of a body, by its KIND, agree with the tile maps of the sealed images that the Platform slots name
(R178, R207). Tile maps are private. -/
opaque tileMapAgrees : Nat → List Byte → List (Nat × List Byte) → Bool

/-- Whether the activation rotations of a body, by its KIND, are those its weight images record (R160, R207). -/
opaque rotAgrees : Nat → List Byte → List (Nat × List Byte) → Bool

/-- The sign and payload of a NaN that an FP32 operation produces, which the manual does not state. -/
opaque nanBits : FP32 → FP32 → BitVec 32

/-- The payload a BF16 NaN result takes, which the manual does not state for a combine or a BF16 ADD. -/
opaque nanBits16 : FP32 → BitVec 16

/-- Which of the NaN codes of FP8 E5M2 a quantise writes: the manual names none (R163). -/
opaque nanE5M2 : Nat

/-- Where the live placement runs a token's first layer, and the cluster of its entry stage. -/
structure EntryPlan where
  rank        : Nat
  homeCluster : Nat
  lslot       : Nat
  srcCluster  : Nat
deriving DecidableEq, Repr, Inhabited

/-- The placement's plan for an entry stage (R18, R19), private to the toolchain. Arguments: the free-value counter, the
batch's tag and the lane. -/
opaque entryPlan : Nat → Nat → Nat → EntryPlan

/-- An element of a token's embedded vector (R19): model data that the manual does not give. Arguments: the free-value
counter, the token ID and the element. -/
opaque embedding : Nat → Nat → Nat → BitVec 16

/-- Where an allocator starts to look for a free extent: the manual names no extent among the free ones (R307, R312,
R333). Argument: the model's free-value counter. -/
opaque extentChoice : Nat → Nat

/-- The job of a device that is not in this device's rank table (R243): its own rank table alone says which job it is in. Argument:
the device address. -/
opaque jobOf : Nat → Nat

/-- Which 64 B line or 16 KiB page of an extent a move or an image load could not read (R294, R299, R315): the command that ends
it does not say (assumption 149). Argument: the free-value counter. -/
opaque badPlace : Nat → Nat

/-- The batch number and lane that a REFUSED record with cause FULL names (R388): its words are discarded. Argument: the
free-value counter. -/
opaque fullRecord : Nat → Nat × Nat

/-- OP, DST_RANK and JVA of the fault-log record of a collective that a mover slot starts and that fails (R269, R277), which
the manual does not state. Argument: the free-value counter. -/
opaque collFault : Nat → Nat × Nat × Nat

/-- OP of the fault-log record of an atomic that fails (R269, R289): the manual gives codes for reads, writes and ADD
requests alone. Argument: the free-value counter. -/
opaque atomicOp : Nat → Nat

/-- Whether a cluster cache keeps an earlier copy, by rank and line address, when new lines fill it: R263 lets the cache
evict copies and states no rule for it. -/
opaque keepsCopy : Nat → Nat → Nat → Bool

/-- Whether a page of a quad peer is tracked there (R260, R263): the peer's own table says so, and no packet does (assumption 148).
Arguments: the free-value counter, the rank and the job page number. -/
opaque peerTracks : Nat → Nat → Nat → Bool

/-- Whether a device of a domain is its standby manager: a HELLO carries no ROLE (R353). -/
opaque isStandby : Nat → Bool

/-- The PART_STATE a manager learns of a device with a heartbeat, whose layout the manual does not publish (R354, R368). -/
opaque heardPart : Nat → Nat

/-- A word that DX_DATA returns while its transfer is BUSY: R385 gives zero only outside DATA and BUSY. -/
opaque busyWord : Nat → Nat → BitVec 64

/-- The credit total that a control flit carries for a virtual channel (R441): the manual gives no layout. Arguments: the
flit's bytes and the channel. -/
opaque creditTotal : List Byte → Nat → Nat

/-- A payload byte of a control flit that carries credit totals (R217, R441). Arguments: the totals by channel and the byte. -/
opaque creditByte : List Nat → Nat → Byte

/-- The flits of a virtual channel that a port's peer has buffers for (R219, R441): the manual gives no number (assumption
140). Arguments: the port and the channel. -/
opaque allotment : Nat → Nat → Nat

/-- A byte of a management message whose layout the manual does not publish (R353, R354, R361, R472). Arguments: the message and
the byte. -/
opaque mgmtByte : MgmtMsg → Nat → Byte

/-- Whether a reset pulse from 1 µs to 10 µs acts: undefined (R446). The argument is the model's free-value counter. -/
opaque pulseActs : Nat → Bool

/-- Content of a member's destination region after a failed collective: undefined (R278). Arguments: the free-value
counter and the byte's index. -/
opaque failedDst : Nat → Nat → Byte

/-- The octet an ML-DSA-44 verification under a public key answers (FIPS 204): key, digest, signature. -/
opaque mldsaVerify : List Byte → List Byte → List Byte → Bool

/-- The ML-DSA-44 public key generated from a seed (R426). -/
opaque mldsaPublic : List Byte → List Byte

/-- The ML-DSA-44 signature of a digest under the key of a seed (R430). -/
opaque mldsaSign : List Byte → List Byte → List Byte

/-- Varmund's root public key, held by the boot ROM (R421). -/
opaque rootKey : List Byte

end Sys2Proof.Config
end

