-- ==== Sys2Proof/Machine/State.lean ====
section
/-! DEFINITION. The state of the SV128 as plain data: the object dictionary with its shadow sets and latch, hall time and
the beat, the Interlock, cores with their stores and sequencers, Yards, credits, Platforms, cell pools, the combine, the
cancel list, streams and batches, the fabric, remote memory, collectives, memory tiers and homes, tenant slots, manager
and worker state, sessions, persistence, security, boot and package; and the queue of waiting commands. -/

namespace Sys2Proof.Machine

/-! ### Sparse tables and byte strings -/

/-- A byte string of the dictionary (DOMAIN, VSTRING, R371): its length and its non-zero bytes, at strictly rising
offsets below the length. A byte not listed reads 0. -/
structure Blob where
  len   : Nat
  cells : List (Nat × Byte)
deriving DecidableEq, Repr, Inhabited

/-- The shadow set of one role (R50): staged numbers and staged byte strings by object key, keys strictly rising. -/
structure Shadow where
  regs : List (Nat × Nat)
  doms : List (Nat × Blob)
deriving DecidableEq, Repr, Inhabited

/-- A role's pending commit (R51, R52): the beat whose tick applies it, and whether it names that beat. -/
structure Pending where
  beat  : Nat
  named : Bool
deriving DecidableEq, Repr, Inhabited

/-- The timebase (R28 to R36). Times in ns, bounds in ps. -/
structure Timebase where
  hallTime     : Nat
  hallTimeSet  : Bool          -- R35: written since the last reset
  anchored     : Bool          -- R55: an anchor has been committed since the last reset
  ticked       : Bool          -- a tick has fallen since the anchor
  joined       : Bool          -- R28, R32: the device has taken part in a partition
  stepped      : Bool          -- R32: hall time has been stepped at the first valid exchange
  slew         : Int           -- R32: correction still to be slewed, ns
  slewPhase    : Nat           -- ns since the last slewed ns (100 ppm = 1 in 10,000)
  boundPs      : Nat           -- R30, R33: last measured bound
  measuredAt   : Nat           -- hall time of that measurement
  lastExchange : Nat           -- hall time of the last valid exchange
  lastAsked    : Nat           -- R29, R32: hall time at which the last exchange was begun
  goodRun      : Nat           -- R31, R33: consecutive exchanges with a bound of 10 ns or less
deriving DecidableEq, Repr, Inhabited

/-- What a commit changed at a tick (R68, R83, R127): the beat it applied from, the values it replaced, and the tokens whose
stage 2 had begun, which finish on the tables they began with. -/
structure Prior where
  beat : Nat
  regs : List (Nat × Nat)
  doms : List (Nat × Blob)
  toks : List TokenId
deriving DecidableEq, Repr, Inhabited

/-- The running beat: which offsets of the beat have passed, and what the device accepts in it (R44, R340, R366). -/
structure BeatSt where
  intakeClosed : Bool          -- R44, R100
  attnEnded    : Bool          -- R103
  maintOpen    : Bool          -- R56
  accepts      : Bool          -- R99, R340, R366, R470: the device accepts beat work in this beat
  counted      : Bool          -- R126, R167: the windows have counted this beat
  holdNext     : Bool          -- R33, R434, R470: no beat work from the next tick on
  late         : List (Nat × Nat)  -- R46, R47: units still working on a past beat, with that beat
  busyAe       : Nat           -- issue cycles of the running beat (R155, R185, R172, R132, R84)
  busySe       : Nat
  busyVe       : Nat
  busyTt       : Nat
  busyMv       : Nat
  busyYard     : Nat
deriving DecidableEq, Repr, Inhabited

/-! ### Cores -/

/-- An accumulator entry (R147). For an FP32 entry `acc` is the code of its FP32 value. -/
structure AccEntry where
  acc    : Int
  sat    : Bool
  nan    : Bool
  satNeg : Bool
  fp32   : Bool
  base   : Int
deriving DecidableEq, Repr, Inhabited

/-- A tile held in one weight-register set: its descriptor and its bytes (R138). -/
structure LoadedTile where
  desc   : TileDesc
  elems  : List Byte
  scales : List Byte
  badE   : List Nat              -- R435: poisoned words of its elements and of its scales
  badS   : List Nat
  passes : Nat                   -- R135: passes made through it
deriving DecidableEq, Repr, Inhabited

/-- The compressed tile an SE passes through (R176, R180): its address and bytes, and the passes made through it. -/
structure SeTile where
  base   : Nat
  bytes  : List Byte
  passes : Nat
deriving DecidableEq, Repr, Inhabited

/-- A static bank (R199): state 0 EMPTY, 1 LOADING, 2 VALID, 3 INVALID, 4 ACTIVE, 5 DRAINING; its object. -/
structure Bank where
  state  : Nat
  obj    : Blob
  digest : List Byte
  image  : Config.TimetableImage
deriving DecidableEq, Repr, Inhabited

/-- A dynamic segment (R202): state 0 FREE, 1 FILLING, 2 SEALED, 3 REPLAYING; its words. -/
structure Segment where
  state : Nat
  words : List TWord
deriving DecidableEq, Repr, Inhabited

/-- The slot an engine is running (R190, R192, R258): its count, repeats done and repeats begun, and the registers' values at its
start. Only a mover begins a repeat before the one before it is done. -/
structure ActiveSlot where
  slot  : EngSlot
  count : Nat
  done  : Nat
  begun : Nat
  bases : List Nat
deriving DecidableEq, Repr, Inhabited

/-- An engine's queue of slots and the slot it runs (R189, R190). -/
structure EngQueue where
  waiting : List EngSlot
  active  : Option ActiveSlot
deriving DecidableEq, Repr, Inhabited

/-- The sequencer of a core (R186 to R196). `left` are the words of the list still to issue, `segLeft` those of a
replayed segment, `holding` the SYNC operation that holds issue. -/
structure Sequencer where
  running   : Bool
  beat      : Nat
  bank      : Nat
  left      : List TWord
  segLeft   : List TWord
  replaying : Bool
  holding   : Option SyncOp
  settings  : List CmpSetting   -- R194: comparator settings of the invocation
  nextDue   : Bool              -- R187: the next invocation starts when this one ends
  subnorm   : Nat               -- R153: numeric modes live at the tick that began its beat
  satRead   : Nat
deriving DecidableEq, Repr, Inhabited

/-- A remote or far-tier request of a mover that has not ended (R252, R303). -/
structure RmReq where
  tag     : Nat
  opc     : Nat
  dtype   : Nat
  rank    : Nat
  jva     : Nat
  len     : Nat
  dst     : Nat                -- scratchpad offset: a READ's destination, a WRITE's or ADD's source
  cache   : Bool
  dropped : Bool               -- R262: an INVALIDATE met it
  errCtr  : Option Nat
  far     : Option Nat         -- R303: far port of a CXL request
  place   : Option MvPlace     -- R303: where a far read's data goes at its completion
  data    : List Byte          -- R303: what a far read reads
  mine    : Bool               -- an own write at the home, or a collective: no request of R252
  rep     : Option Nat         -- R258: the repeat of the running slot it belongs to
  issued  : Nat                -- R257, R303: hall time at which it left
deriving DecidableEq, Repr, Inhabited

/-- A skipped row that is due for an audit (R126): the Platform slot whose image it lies in, the layer slot, the row, and the
token's vector. -/
structure AuditRow where
  pslot : Nat
  lslot : Nat
  row   : Nat
  vec   : List BF16
deriving DecidableEq, Repr, Inhabited

/-- One core (R11, R13, R138, R147, R186 to R203): its stores, registers, counters, engines and sequencer. -/
structure Core where
  scratch    : List Host.Cell
  scratchBad : List Nat          -- R435: poisoned 64-bit words
  acc        : List (Nat × AccEntry)
  accBad     : List Nat
  active     : LoadedTile
  standby    : LoadedTile
  aregs      : List (Nat × Nat)
  ctrs       : List (Nat × Nat)  -- R193: counter i, copy parity: key 2 i + parity
  persist    : List Bool         -- R193: counter modes of the list, true PERSISTENT
  cps        : List CmpSetting   -- R194: settings of the loader object
  bank0      : Bank
  bank1      : Bank
  ttBad      : List (Nat × Nat)  -- R435: poisoned words of Timetable memory: bank or 2 + segment, word
  seg0       : Segment
  seg1       : Segment
  seq        : Sequencer
  ae         : EngQueue
  se         : EngQueue
  ve         : EngQueue
  tt         : EngQueue
  mv         : EngQueue
  lastEnd    : Nat               -- R210
  skippedRows : Nat              -- R126: running count of skipped rows
  audits     : List AuditRow     -- R126: audits of the beat not yet made
  rmOut      : List RmReq        -- R252
  rmWait     : List RmReq        -- R252: requests of the repeat that wait for one of the 64 places
  rmNextTag  : Nat
  seTile     : Option SeTile     -- R176, R180: the tile of the last SE pass in the beat
deriving DecidableEq, Repr, Inhabited

/-- A signal line in one parity (R197). -/
structure Line where
  arrivals : Nat
  parts    : Nat
  fired    : Bool
deriving DecidableEq, Repr, Inhabited

/-! ### Yards, dispatch and Platforms -/

/-- A token's stage-1 output in the input queue of its home Yard (R71): the shares written so far, by first element. -/
structure YardInput where
  tok     : TokenId
  lslot   : Nat
  cluster : Nat
  beat    : Nat
  parts   : List (Nat × List Byte)
deriving DecidableEq, Repr, Inhabited

/-- The list an owning Yard returned for a STRIPED group (R72): expert, key and unbiased score of each kept expert. -/
structure GroupReply where
  tok     : TokenId
  home    : Nat
  lslot   : Nat
  group   : Nat
  beat    : Nat
  experts : List (Nat × FP32 × FP32)
deriving DecidableEq, Repr, Inhabited

/-- The Yards (R68, R71, R72, R78): the background copy of the live gate-table half, the stage-1 outputs that wait for their
token's stage 2, the lists returned for STRIPED groups, and the KV blocks kept for the attention that runs: token, layer slot and
blocks in ascending order. -/
structure Yards where
  copying     : Bool
  copyFrom    : Nat              -- beat of the applying tick or the discard
  copyClaimed : Bool             -- R68: the commit that applied held the claim
  replies     : List GroupReply
  inputs      : List YardInput
  kept        : List (TokenId × Nat × List Nat)
deriving DecidableEq, Repr, Inhabited

/-- A choice in a Platform's queue (R98), until its beat is two ticks past. -/
structure QueuedChoice where
  tok       : TokenId
  entry     : ChoiceEntry
  lslot     : Nat
  srcRank   : Nat
  nextRank  : Nat
  beat      : Nat
  pred      : Bool               -- R117: the Platform's PRED as the choice was accepted
  kept      : Option (List Nat)  -- R124: the kept granules, once predicted
  answered  : Bool               -- R101: its answer has left
  released  : Bool               -- R24: it holds its Consist's chain no more
  spoiled   : Bool               -- R436: its chain holds a poisoned word
  vec       : List BF16
deriving DecidableEq, Repr, Inhabited

/-- An image load's result for a Platform slot (R119): state, and the image, class and place it used. -/
structure ImageSlot where
  state   : Nat
  imageId : Nat
  cls     : Nat
  place   : Nat
deriving DecidableEq, Repr, Inhabited

/-- Credits and Platforms (R89, R98, R119, R126). -/
structure Platforms where
  credits   : List (Nat × Nat)   -- R89: slot * 16384 + expert
  recvLeft  : List (Nat × Nat)   -- R89: pslot * 65536 + sender
  capLeft   : List (Nat × Nat)   -- R89: pslot
  queues    : List (Nat × List QueuedChoice)
  images    : List (Nat × ImageSlot)
  auditBeats  : Nat              -- R126: beats of the open audit window
  auditMisses : Nat              -- R126: misses of the open audit window
  auditEnded  : Option Nat       -- R126: misses of a window that has ended and is to be judged
  kvBytes     : Nat              -- R132: block bytes read in the running beat
  reserve     : List (Nat × List Byte) -- R364: the scratchpad held in reserve: the replica of a protected rank
deriving DecidableEq, Repr, Inhabited

/-! ### Cell pools -/

/-- A chain held in a cluster's pool (R318, R326): the packet it holds, the entry it is charged to, its cells in order, the
header cell first. -/
structure Chain where
  cluster : Nat
  entry   : Nat
  cells   : List Nat
  cls     : Nat
  srcRank : Nat
  bad     : Bool               -- R436: a poisoned word in the chain
  pkt     : BeatPacket
deriving DecidableEq, Repr, Inhabited

/-- A chain request waiting at a cluster's allocator (R323, R324). -/
structure ChainReq where
  cls     : Nat
  cells   : Nat
  pkt     : BeatPacket
  striped : Bool
  at'     : Nat                -- hall time of the request
deriving DecidableEq, Repr, Inhabited

/-- One cluster's pool (R318, R323, R327): the free list as the cells given back, oldest first, and then the cells from `fresh`
up to 16,383, which no chain has held; the link table, cell by next cell; the fewest free cells in the beat. -/
structure Pool where
  freed   : List Nat
  fresh   : Nat
  links   : List (Nat × Nat)
  low     : Nat
  held    : List (Nat × Nat)
  broken  : Bool
  linkBad : Bool               -- R435: a poisoned word in the link table
  waiting : List ChainReq
deriving DecidableEq, Repr, Inhabited

/-- A striped packet whose 16 slices are being decided (R324): slices decided, whether one failed on quota, on pool. -/
structure StripeProgress where
  pkt     : BeatPacket
  decided : Nat
  quota   : Bool
  pool    : Bool
deriving DecidableEq, Repr, Inhabited

/-- A landing mark (R325). -/
structure Mark where
  tok    : TokenId
  choice : Nat
  cause  : Nat
  beat   : Nat
  late   : Bool
deriving DecidableEq, Repr, Inhabited

/-- The cell pools, the chains in use, the mark table and the landings whose allocation failed (R97, R325). -/
structure Pools where
  pools   : List (Nat × Pool)
  chains  : List Chain
  stripes : List StripeProgress
  marks   : List Mark
  failed  : List (Nat × BeatPacket × Nat)  -- R97: cluster, Consist and cause (1 POOL, 2 QUOTA)
deriving DecidableEq, Repr, Inhabited

/-! ### Combine, cancellation, exit stage -/

/-- A packet held at its combine device; `late` when it arrived after tick b + 1 (R103); `bad` when a slice is
poisoned (R436). -/
structure Held where
  pkt  : BeatPacket
  late : Bool
  bad  : Bool
deriving DecidableEq, Repr, Inhabited

/-- An unsettled choice of a combined token (R104, R111). -/
structure PendingChoice where
  tok    : TokenId
  choice : Nat
  beat   : Nat
deriving DecidableEq, Repr, Inhabited

/-- A combined residual that awaits attention (R104, R336). -/
structure Residual where
  tok     : TokenId
  cluster : Nat
  lslot   : Nat                -- R17: the layer slot its Manifest names
  first   : Bool               -- R19: the Manifest carried an entry stage's output
  flags   : BitVec 16
  beat    : Nat
  vec     : List BF16
deriving DecidableEq, Repr, Inhabited

/-- An entry of the cancel list (R106). -/
structure CancelNotice where
  tag : Nat
  gen : Nat
  cb  : Nat
deriving DecidableEq, Repr, Inhabited

/-- The combine device's state (R103 to R111). -/
structure Combine where
  manifests : List Held
  answers   : List Held
  refusals  : List Held
  pending   : List PendingChoice
  known     : List (TokenId × Nat)  -- R103, R111: tokens whose Manifest has arrived, with its BEAT
  residuals : List Residual
  cancels   : List CancelNotice
  reported  : List Nat         -- R439: identities already reported in this tenancy
deriving DecidableEq, Repr, Inhabited

/-- A token in its exit stage (R79, R80): the sets that have arrived. -/
structure ExitToken where
  tok     : TokenId
  cluster : Nat
  flags   : BitVec 16
  beat    : Nat
  sets    : List (Nat × List (Nat × FP32))
  merged  : Bool
deriving DecidableEq, Repr, Inhabited

/-! ### Streams and batches -/

/-- A lane of an open batch (R388, R389): the next position to embed, its prompt and the tokens of each TOKENS record
not yet embedded, tokens its TOKENS records still owe, tokens still to emit, its last sampled token, the token a
continuation embeds first, the position whose sample is awaited, that sample, and whether the sample is given up. -/
structure Lane where
  idle     : Bool
  position : Nat
  prompt   : List Nat
  chunks   : List Nat
  missing  : Nat
  left     : Nat
  maxNew   : Nat
  stopId   : Nat
  last     : Option Nat
  first    : Option Nat
  due      : Option Nat
  got      : Option Nat
  skip     : Bool
deriving DecidableEq, Repr, Inhabited

/-- An open batch (R105, R388, R390): its generation, the generation its tokens carry now, and the cancels that have not
taken effect: generation and CB. -/
structure Batch where
  num     : Nat
  gen     : Nat
  run     : Nat
  lanes   : List Lane
  cancels : List (Nat × Nat)
deriving DecidableEq, Repr, Inhabited

/-- A BATCH whose records are still arriving with its LANES, new input of a lane of an open batch whose TOKENS are still
arriving, and what is being discarded (R388). -/
structure InParse where
  batch    : Option Batch
  lanesDue : Nat
  later    : Option (Nat × Nat × Lane)
  held     : Nat               -- STREAM_IN records the unfinished input holds
  discard  : Bool
  dropLane : Option (Nat × Nat)
deriving DecidableEq, Repr, Inhabited

/-- A STREAM_OUT record (R389). -/
structure OutRec where
  kind     : Nat
  cause    : Nat
  lane     : Nat
  batch    : Nat
  flags    : BitVec 8
  position : Nat
  token    : Nat
  gen      : Nat
deriving DecidableEq, Repr, Inhabited

/-- The output of an entry stage that has not left the entry device (R19, R22, R48): its token and beat, the rank, slot and
cluster of its first layer, the cluster it leaves from, its flags and its vector. -/
structure EntryOut where
  tok         : TokenId
  beat        : Nat
  rank        : Nat
  lslot       : Nat
  homeCluster : Nat
  srcCluster  : Nat
  flags       : BitVec 16
  vec         : List BF16
deriving DecidableEq, Repr, Inhabited

/-- The entry device's streams (R387 to R390). `used` counts STREAM_IN records not yet consumed. -/
structure Streams where
  batches   : List Batch
  parse     : InParse
  used      : Nat
  refused   : Nat
  out       : List OutRec
  discarded : Nat
  entries   : List EntryOut
deriving DecidableEq, Repr, Inhabited

/-! ### Fabric -/

/-- A flit in a retry buffer (R218): its sequence number, its packet and its place in it, its virtual channel, and whether it
ends a packet that is truncated (R474). -/
structure SentFlit where
  seqNo : Nat
  pkt   : Packet
  index : Nat
  vc    : Nat
  trunc : Bool
deriving DecidableEq, Repr, Inhabited

/-- A packet that arrives on a port (R217, R219, R232): its virtual channel, the bytes and flits so far, whether the last flit is
among them, the packet once the Junction has routed it, and its flits whose buffer slots are free again. -/
structure Arriving where
  vc    : Nat
  bytes : List Byte
  flits : Nat
  whole : Bool
  pkt   : Option Packet
  freed : Nat
deriving DecidableEq, Repr, Inhabited

/-- A port of the Junction beside its dictionary record (R212 to R221, R441): sequence numbers, retry buffer, queue. -/
structure Port where
  rxNext    : Nat
  txNext    : Nat
  rxRetry   : Bool             -- discarding until the expected SEQ (R218)
  rxSeen    : Bool             -- R217: a data flit has been accepted since training
  rx        : List Arriving
  freed     : List (Nat × Nat) -- R441: buffer slots freed per VC since training, modulo 65,536
  retryDue  : Bool             -- R218: a retry request is to leave
  creditDue : Bool             -- R217: a control flit is to leave
  ctlGap    : Nat              -- R213: flits sent since the last control flit
  line      : List Byte        -- the flit that left last
  started   : List (Nat × Nat) -- R220: flits that have left of the first packet queued for a VC
  cuts      : List (Nat × Packet) -- R474: truncated packets whose last flit is to leave, by VC
  retryBuf  : List SentFlit
  queue     : List (Nat × Packet)  -- with the hall time at which each joined the queue (R264)
  retries   : List (Nat × Nat) -- consecutive retries of the same flit: SEQ, count
  remapLane : Option Nat
  creditsIn : List (Nat × Nat) -- R441: cumulative totals received per VC
  sentVc    : List (Nat × Nat) -- R441: flits sent per VC since training, modulo 65,536
  ownFlits  : Nat              -- R343: flits of the job sent, and waited, in the running beat
  waitFlits : Nat
  ownBeat   : Nat              -- R343: the same for classes 0 and 1
  waitBeat  : Nat
  mgmtGap   : Nat              -- R229: flits of other classes sent since the last of class 5
  lastBulk  : Nat              -- R229: class last granted among 4, 3 and 2
  resetEn   : Bool             -- R220: EN has been committed as 0 since FAILED
deriving DecidableEq, Repr, Inhabited

/-- A combine record of the Junction (R265): its number, the requests it merged. -/
structure CombineRec where
  num  : Nat
  reqs : List RmPacket
  port : Nat
  at'  : Nat                   -- hall time at which it was formed
deriving DecidableEq, Repr, Inhabited

/-- The Junction (R225 to R246, R264). `landing` are packets delivered to the network-on-chip, `held` transit packets
left without a candidate by a drain. -/
structure Junction where
  ports    : List (Nat × Port)
  inject   : List Packet
  landing  : List Packet
  held     : List Packet
  transit  : Nat               -- R246: transit flits below the 1,024 of the counter's unit
  combines : List CombineRec
  drainAt  : Nat               -- hall time at which the drain started
  drainOwn : Bool              -- R359: the drain of a teardown
deriving DecidableEq, Repr, Inhabited

/-! ### Remote memory and collectives -/

/-- A line copy in a line cache (R260, R263): rank and address of the line, whether its home tracks it, the cluster that holds it,
its bytes. -/
structure LineCopy where
  rank    : Nat
  jva     : Nat
  tracked : Bool
  cluster : Nat
  data    : List Byte
deriving DecidableEq, Repr, Inhabited

/-- A request at the home that has passed its checks and waits for its turn on its lines (R259) or for INV_ACKs (R261):
the request, whether its invalidations have been sent, the sharers still to answer (4 × line + quad position), and the
core and tag of the home's own mover whose request it is. -/
structure HeldWrite where
  req     : RmPacket
  asked   : Bool
  sharers : List Nat
  mine    : Option (Nat × Nat)
deriving DecidableEq, Repr, Inhabited

/-- Remote memory: directory (line number and sharer mask, R260), copies, held writes, the recall (R256), the log. -/
structure RemoteMem where
  directory : List (Nat × Nat)
  copies    : List LineCopy
  held      : List HeldWrite
  recallJpn : Nat
  recalled  : List Nat           -- R256: pages of earlier recalls, whose change has not been committed
  recallInv : List (Nat × Nat)   -- R256: invalidations of the recall still to be acknowledged: line, device
  faults    : List (List Nat)    -- R269: cause, op, core, rank, jva, beat of each record
  readRem   : Nat                -- bytes below a KiB of RM_READ_KIB, RM_WRITE_KIB and COLL_KIB
  writeRem  : Nat
  collRem   : Nat
  early     : List CollPacket    -- R279: READYs of collectives that this member has not started
deriving DecidableEq, Repr, Inhabited

/-- A chunk a sender keeps until every receiver acknowledged it (R281). -/
structure SentChunk where
  phase   : Nat
  chunk   : Nat
  data    : List Byte
  waiting : List Nat
  resent  : List Nat
deriving DecidableEq, Repr, Inhabited

/-- A collective slot (R277 to R283): state 0 FREE, 1 RUNNING, 2 DONE, 3 FAILED. -/
structure CollSlot where
  state    : Nat
  cause    : Nat
  group    : Nat
  seqNo    : Nat
  done     : Nat
  endBeat  : Nat
  descr    : List Byte
  members  : List Nat
  myOrd    : Nat
  readyFrom : List Nat
  recvd    : List (Nat × Nat × Nat)      -- chunks accepted: phase, source ordinal, chunk
  partials : List (Nat × List Byte)      -- reduction operands held: 16 × chunk + step; + 15 the reduced chunk
  sent     : List SentChunk
  toSend   : List (Nat × Nat × List Nat × List Byte)  -- chunks ready to send: phase, chunk, receivers, payload
  resent   : List (Nat × Nat × Nat)      -- chunks for which a RESEND was asked
  slotCore : Option Nat
  startAt  : Nat                         -- hall time of the local start (R279)
  results  : List (Nat × List Byte)      -- R278: what an ALLREDUCE in place will write, by offset, once it ends DONE
deriving DecidableEq, Repr, Inhabited

/-! ### Memory tiers and homes -/

/-- A home (R304, R305): its address word, the tenant that holds it, its placement, the destination of a move. -/
structure Home where
  addr   : Nat
  tenant : Nat
  spread : Bool
  cluster : Nat
  moving : Option Nat
  moveSeq : Nat
  kv     : Bool
deriving DecidableEq, Repr, Inhabited

/-- A KV block or a block summary of a user (R128, R312): layer slot, block number, the place of its frame in the user's list,
its offset there and the bytes written. -/
structure KvSpan where
  lslot : Nat
  block : Nat
  frame : Nat
  off   : Nat
  used  : Nat
deriving DecidableEq, Repr, Inhabited

/-- A user's KV frames (R312, R314): batch tag and lane, the frames as they were taken (0 for one that has been freed), parked, and
what lies in them. -/
structure KvUser where
  tag     : Nat
  lane    : Nat
  tenant  : Nat
  frames  : List Nat
  parked  : Bool
  blocks  : List KvSpan
  sums    : List KvSpan
  order   : List Nat           -- R314: places in `frames` in the order in which the last PARK moves them
deriving DecidableEq, Repr, Inhabited

/-- A HOME_CMD command (R307). -/
structure HomeCmd where
  seqNo   : Nat
  tenant  : Nat
  opc     : Nat
  tier    : Nat
  spread  : Bool
  port    : Nat
  cluster : Nat
  home    : Nat
  count   : Nat
  tag     : Nat
  lane    : Nat
  left    : List Nat           -- extents still to move, in order (PARK, UNPARK)
deriving DecidableEq, Repr, Inhabited

/-- A HOME_STATUS record (R311). -/
structure HomeStatus where
  seqNo : Nat
  state : Nat
  cause : Nat
  done  : Nat
deriving DecidableEq, Repr, Inhabited

/-- A stored sealed image (R301): tenant, number, digest, body, home addresses of its extents. -/
structure Image where
  tenant  : Nat
  id      : Nat
  digest  : List Byte
  body    : List Byte
  extents : List Nat
deriving DecidableEq, Repr, Inhabited

/-- The memory tiers (R285 to R315). -/
structure Tiers where
  hbm       : List Host.Cell
  hbmBad    : List Nat         -- R294: poisoned 64 B lines
  slow      : List Host.Cell
  slowBad   : List Nat         -- unreadable 16 KiB pages
  far       : List Host.Cell
  shared    : List (Nat × List Host.Cell)  -- cluster shared SRAM, by cluster
  sharedBad : List (Nat × Nat) -- R435: poisoned words: cluster, word
  tableBad  : List (Nat × Nat × Nat) -- R435: poisoned gate-table rows: cluster, slot, row
  homes     : List Home
  saveFrames : List (Nat × List Nat) -- R333: save area of a slot
  kv        : List KvUser
  cmds      : List HomeCmd
  running   : List HomeCmd
  cmdSeq    : List (Nat × Nat)  -- R307: last sequence number, by tenant
  status    : List (Nat × HomeStatus)  -- R311: tenant * 16 + SEQ mod 16
  result    : List (Nat × List Nat)  -- R307: addresses of the last ALLOC, by tenant
  log       : List (List Nat)  -- R311: src, dst, seq, beat
  images    : List Image
  reads     : List (Nat × Nat) -- R299: reads of a block since its last relocation
  erases    : List (Nat × Nat) -- R299: erase counts of blocks
  retired   : List (Nat × Nat) -- R299: retired block and its spare
  deferred  : List (Nat × Nat) -- R58: consecutive beats relocation has been deferred, by stack
  forced    : List (Nat × Nat) -- R58: channel a forced relocation holds, by stack
  patrol    : Nat              -- R295: the line that every channel's patrol reads next
  refreshDue : List (Nat × Nat) -- R57: refreshes issued, by channel
  coreScrub : List (Nat × Nat) -- R287: 64 B units of each of its stores that a core's scrubber has read, by core
  cacheScrub : List (Nat × Nat) -- R287: the same of a cluster's shared SRAM, by cluster
  written   : List (Nat × Nat) -- R299: pages written since the last block erased for them, by stack
  cxlState  : List (Nat × Nat) -- R302: by port
  cxlExt    : List (Nat × Nat)
  farTag    : Nat
deriving DecidableEq, Repr, Inhabited

/-- Clipping counts of a slot in the open window (R166, R167). -/
structure ClipCount where
  quantised : Nat
  clipped   : Nat
deriving DecidableEq, Repr, Inhabited

/-- The clipping statistic: counts of the open window by slot, its beats, and the counts of a window that has ended and is
to be judged (R166 to R168). -/
structure Clip where
  counts : List (Nat × ClipCount)
  beats  : Nat
  ended  : Option (List (Nat × ClipCount))
deriving DecidableEq, Repr, Inhabited

/-! ### Tenancy -/

/-- What a swap saves (R336): the tenant's objects and its parts of every store. -/
structure SavedTenant where
  regs      : List (Nat × Nat)
  doms      : List (Nat × Blob)
  shadowT   : Shadow
  shadowM   : Shadow
  cores     : List (Nat × Core)  -- with no accumulator entries
  accs      : List (Nat × List (Nat × Nat)) -- R147: the entries of a core's accumulator store as 128-bit words
  shared    : List (Nat × List Host.Cell)
  sharedBad : List (Nat × Nat)
  tableBad  : List (Nat × Nat × Nat)
  platforms : Platforms
  pools     : Pools
  combine   : Combine
  exits     : List ExitToken
  streams   : Streams
  clip      : Clip
  yards     : Yards
  rmem      : RemoteMem
  colls     : List (Nat × CollSlot)
deriving DecidableEq, Repr, Inhabited

/-- A tenant slot (R332): state 0 FREE, 1 REGISTERED, 2 RUNNING, 3 SUSPENDED, 4 SWAP_FAILED; its save area with the
header's identity and sequence number (R339), its derived key (R428), its cycle totals (R342) and records (R343). -/
structure TenantSlot where
  tenant   : Nat
  share    : Nat
  state    : Nat
  saveSeq  : Nat
  saved    : Option (Nat × Nat × SavedTenant)
  key      : List Byte
  cycles   : List Nat          -- R342: AE, SE, VE, TT, MV, Yard cycle totals
  beatsRun : Nat
  minute   : List Nat          -- R343: minute, beats, own flits, wait, own and wait of classes 0 and 1
  records  : List (List Nat)   -- R343: closed records, newest last
deriving DecidableEq, Repr, Inhabited

/-- The swap (R338 to R341): its phase as SWAP_STATE numbers the steps (0 none, 1 ARMED to 6 WAITING) also while SWAP_STATE
reads LATE, the epoch and incoming slot latched at arming, times of its phases. -/
structure Swap where
  phase    : Nat
  epoch    : Nat
  incoming : Nat
  outgoing : Nat
  phaseAt  : Nat
  times    : List Nat
  restored : Bool              -- R339: the restore has ended
  teardown : Bool              -- R359: the sequence of a teardown
deriving DecidableEq, Repr, Inhabited

/-! ### Manager and workers -/

/-- A device of a manager's domain (R353, R368). -/
structure DomainDev where
  loc       : Nat
  standby   : Bool
  mgrState  : Nat
  partState : Nat
  lost      : Bool
  failedBy  : List Nat         -- R361: L1 peers that reported their ports to it FAILED
  heardAt   : Nat              -- R361: hall time at which it was last heard
deriving DecidableEq, Repr, Inhabited

/-- Role, partition and fault state beside the dictionary (R352 to R366). -/
structure Manager where
  domain     : List DomainDev
  silent     : Bool            -- R354: the manager has been silent for MGR_SILENCE
  lastHeard  : Nat
  faultLog   : List (List Nat) -- R368: report, peer or port, cause, hall time
  partDue    : Option (Nat × Bool) -- R357, R359: beat and whether it is a teardown
  teardownT  : Option Nat
  causes     : List Nat        -- R366, R433: device-fault causes that have not cleared
  admitBeat  : Option Nat      -- R366
  replica    : List (Nat × Nat) -- R364: load state of the replica of a rank
  ended      : List (Nat × Nat × Nat) -- R365: users of a lost rank that the stand-in has ended: rank, tag, lane
  roleLive   : Nat             -- R352: ROLE in effect since the last reset
  mgmtDead   : Bool            -- R434: cause 6
deriving DecidableEq, Repr, Inhabited

/-! ### Sessions and transports -/

/-- A dictionary session (R380 to R386): its registers and the transfer it holds. STATE 0 IDLE, 1 BUSY, 2 DATA, 3 DONE,
4 ERROR. `data` is the content of the object a read copies, or the bytes of a write received and, where it is forwarded,
not yet sent. -/
structure Session where
  sel      : Nat
  len      : Nat
  state    : Nat
  abort    : Nat
  words    : Nat
  left     : Nat
  cmd      : Nat
  data     : List Byte
  index    : Nat
  sub      : Nat
  offset   : Nat
  total    : Nat
  remote   : Option Nat        -- R386: sequence number of a forwarded transfer
  target   : Nat
  asked    : Bool              -- R386: a forwarded request awaits its response
  lastMove : Nat               -- hall time at which the last word moved, or the last request left
deriving DecidableEq, Repr, Inhabited

/-- A transfer of the fabric management session at a worker (R386). -/
structure FabricXfer where
  seqNo : Nat
  hdr   : DxHdr
  data  : List Byte
deriving DecidableEq, Repr, Inhabited

/-- The I3C target (R391). -/
structure I3c where
  answering : Bool
  staticAddr : Nat
  dynAddr   : Option Nat
  status    : Nat
  out       : List Byte
  ibis      : List Nat         -- in-band interrupts raised, oldest first
deriving DecidableEq, Repr, Inhabited

/-- The host window and the other transports (R375 to R392). `reply` is what the last data read returned. -/
structure Transport where
  sessions : List (Nat × Session)
  fabric   : List FabricXfer
  nextSeq  : Nat
  i3c      : I3c
  reply    : List Word64
  summary  : List Nat          -- R392: the latched words of the summary
deriving DecidableEq, Repr, Inhabited

/-! ### Persistence, security, diagnostics, boot, package -/

/-- A settings bank (R415, R418): validity, sequence number, entries of index:sub key and value. -/
structure NvBank where
  valid   : Bool
  seqNo   : Nat
  entries : List (Nat × Nat)
deriving DecidableEq, Repr, Inhabited

/-- A firmware slot (R422, R423): the header fields and whether format, signature and digest hold. -/
structure FwSlot where
  valid   : Bool
  seqNo   : Nat
  build   : Nat
  svn     : Nat
  major   : Nat
  member  : Nat
  sigOk   : Bool
  bodyOk  : Bool
  digest  : List Byte
deriving DecidableEq, Repr, Inhabited

/-- The factory record (R420): the fields of its header, the certificate, the private trim section, the signature, and whether it
verifies against the root key. -/
structure Factory where
  grade    : Nat
  coreMap  : Nat
  stepping : Nat
  serial   : Nat
  part     : List Byte
  cert     : List Byte
  trim     : List Byte
  sig      : List Byte
  sigOk    : Bool
deriving DecidableEq, Repr, Inhabited

/-- Non-volatile memory and the system partition of the flash tier (R300, R413). -/
structure NonVolatile where
  factory : Factory
  bankA   : NvBank
  bankB   : NvBank
  storesA : Nat
  storesB : Nat
  floor   : Nat
  fwA     : FwSlot
  fwB     : FwSlot
  storing : Option (Nat × List (Nat × Nat))  -- R415: target bank and captured entries of a running store
  fwBytes : List Byte          -- R425: the image being verified
deriving DecidableEq, Repr, Inhabited

/-- An attestation request (R430): nonce, captured measurements, report. -/
structure Attest where
  nonce    : List Byte
  captured : Option (List Byte)
  report   : List Byte
deriving DecidableEq, Repr, Inhabited

/-- The security unit (R426 to R430): identity seed, boot secret, certificate check, requests by role. -/
structure Security where
  seed    : List Byte
  secret  : List Byte
  certBad : Bool
  attests : List (Nat × Attest)
  repro   : List Byte          -- R347: the placement digest and key inputs at the last recomputation
deriving DecidableEq, Repr, Inhabited

/-- Reset inputs, straps, clocks and package pins (R446, R461, R466, R471). -/
structure Package where
  pwrOk     : Bool
  sysRst    : Bool
  perst     : Bool
  devId     : Nat
  tripped   : Bool
  vid       : Nat
  failHbm   : Bool             -- R449: a channel failed training
  failFlash : Bool
  diagCmd   : Nat              -- R406: command running, 0 none
  diagArg   : Nat
  brefLost  : Bool             -- R34, R464: the board reference input is absent
deriving DecidableEq, Repr, Inhabited

/-- The whole device. -/
structure State where
  pending   : List Instr
  free      : Nat               -- the model's counter for free values
  regs      : List (Nat × Nat)  -- live numbers of the dictionary, by object key
  doms      : List (Nat × Blob) -- live byte strings of the dictionary, by object key
  latch     : List (Nat × Nat)  -- R45, R59: counters latched at the last tick
  prior     : List Prior        -- R68, R83, R127: what late work still runs under, newest first
  latchDoms : List (Nat × Blob) -- R59: telemetry tables latched at the last tick
  shadows   : List (Nat × Shadow)
  commits   : List (Nat × Pending)
  time      : Timebase
  beat      : BeatSt
  cores     : List (Nat × Core)
  lines     : List (Nat × Line)
  yards     : Yards
  platforms : Platforms
  pools     : Pools
  combine   : Combine
  exits     : List ExitToken
  streams   : Streams
  fabric    : Junction
  rmem      : RemoteMem
  colls     : List (Nat × CollSlot)
  tiers     : Tiers
  clip      : Clip
  slots     : List (Nat × TenantSlot)
  swap      : Swap
  manager   : Manager
  host      : Transport
  nv        : NonVolatile
  security  : Security
  package   : Package
deriving DecidableEq, Repr, Inhabited

/-! ### How a step can stop -/

/-- Faults: this block has none of its own. Every error the manual gives the device is state (a cause, a counter, a
report, FAULT_HOLD), so no meaning of this model raises a fault. -/
inductive Fault where
  /-- Raised by no command: stands for a machine that stops. Safe. -/
  | halted
deriving DecidableEq, Repr, Inhabited

/-- Refusals. -/
inductive Refusal where
  /-- Raised by exec for a command that has no meaning yet. Safe. -/
  | notModelled (mnemonic : String)
deriving DecidableEq, Repr, Inhabited

/-! ### Reset -/

/-- An accumulator entry at reset: all zero (R147). -/
def AccEntry.zero : AccEntry := ⟨0, false, false, false, false, 0⟩

/-- A weight register at reset and after a scrub (R141): every cell zero. The manual names no arrangement for it (DESIGN CHOICE,
assumption 129). -/
def LoadedTile.zero : LoadedTile := ⟨⟨.fp4, .fp4, 128, 128, 1, .lit 0, .lit 0⟩, [], [], [], [], 0⟩

/-- A bank at reset: EMPTY (R199). -/
def Bank.empty : Bank := ⟨0, ⟨0, []⟩, [], ⟨[], [], [], [], ⟨[], [], [], []⟩⟩⟩

/-- An idle sequencer (R186). -/
def Sequencer.idle : Sequencer := ⟨false, 0, 0, [], [], false, none, [], false, 0, 0⟩

/-- A core at reset: every store zero, both banks EMPTY, both segments FREE (R199, R202, R448). -/
def Core.empty : Core :=
  { scratch := [], scratchBad := [], acc := [], accBad := [], active := LoadedTile.zero, standby := LoadedTile.zero, aregs := [], ctrs := [],
    persist := [], cps := [], bank0 := Bank.empty, bank1 := Bank.empty, ttBad := [], seg0 := ⟨0, []⟩, seg1 := ⟨0, []⟩,
    seq := Sequencer.idle, ae := ⟨[], none⟩, se := ⟨[], none⟩, ve := ⟨[], none⟩, tt := ⟨[], none⟩, mv := ⟨[], none⟩,
    lastEnd := 0, skippedRows := 0, audits := [], rmOut := [], rmWait := [], rmNextTag := 0, seTile := none }

/-- A cluster's pool at reset: 16,384 free cells (R318, R330). -/
def Pool.empty : Pool := ⟨[], 0, [], 16384, [], false, false, []⟩

/-- The free cells of a pool (R318). -/
def Pool.free (p : Pool) : Nat := p.freed.length + (16384 - p.fresh)

/-- A port's Junction state at reset (R217). -/
def Port.empty : Port :=
  { rxNext := 0, txNext := 0, rxRetry := false, rxSeen := false, rx := [], freed := [], retryDue := false, creditDue := false,
    ctlGap := 127, line := [], started := [], cuts := [], retryBuf := [], queue := [], retries := [], remapLane := none,
    creditsIn := [], sentVc := [], ownFlits := 0, waitFlits := 0, ownBeat := 0, waitBeat := 0, mgmtGap := 15, lastBulk := 2,
    resetEn := false }

/-- A free collective slot (R283). -/
def CollSlot.empty : CollSlot := ⟨0, 0, 0, 0, 0, 0, [], [], 0, [], [], [], [], [], [], none, 0, []⟩

/-- A free tenant slot (R332). -/
def TenantSlot.empty : TenantSlot := ⟨0, 0, 0, 0, none, [], [0, 0, 0, 0, 0, 0], 0, [0, 0, 0, 0, 0, 0], []⟩

/-- An idle session (R380). -/
def Session.idle : Session := ⟨0, 0, 0, 0, 0, 0, 0, [], 0, 0, 0, 0, none, 0, false, 0⟩

/-- No credits, no queue, every image EMPTY (R119). -/
def Platforms.empty : Platforms := ⟨[], [], [], [], [], 0, 0, none, 0, []⟩

/-- Every pool whole, nothing waiting (R318). -/
def Pools.empty : Pools := ⟨[], [], [], [], []⟩

/-- Nothing held, nothing open (R110). -/
def Combine.empty : Combine := ⟨[], [], [], [], [], [], [], []⟩

/-- Both streams empty, no batch open (R381, R396). -/
def Streams.empty : Streams := ⟨[], ⟨none, 0, none, 0, false, none⟩, 0, 0, [], 0, []⟩

/-- The tiers after boot memory is cleared: nothing listed, every frame and extent free (R290, R450, R451). -/
def Tiers.empty : Tiers :=
  { hbm := [], hbmBad := [], slow := [], slowBad := [], far := [], shared := [], sharedBad := [], tableBad := [],
    homes := [], saveFrames := [], kv := [], cmds := [], running := [], cmdSeq := [], status := [],
    result := [], log := [], images := [], reads := [], erases := [], retired := [], deferred := [], forced := [],
    patrol := 0, refreshDue := [], coreScrub := [], cacheScrub := [], written := [], cxlState := [], cxlExt := [], farTag := 0 }

/-- The non-volatile memory of the part the model starts from: a full-grade part with every core enabled, no settings
bank ever stored, and one valid firmware image in slot A (assumption 2). -/
def NonVolatile.initial : NonVolatile :=
  { factory := ⟨128, 2 ^ 128 - 1, 0x0100, 0, [], [], [], [], true⟩, bankA := ⟨false, 0, []⟩, bankB := ⟨false, 0, []⟩,
    storesA := 0, storesB := 0, floor := 0, fwA := ⟨true, 1, 1, 0, 1, 3, true, true, []⟩,
    fwB := ⟨false, 0, 0, 0, 0, 0, false, false, []⟩, storing := none, fwBytes := [] }

/-- The device held in reset with the given lasting memory: R446 loses all other state. -/
def State.cleared (nv : NonVolatile) (q : List Instr) (pkg : Package) : State :=
  { pending := q, free := 0, regs := [], doms := [], latch := [], prior := [], latchDoms := [], shadows := [], commits := [],
    time := ⟨0, false, false, false, false, false, 0, 0, 0, 0, 0, 0, 0⟩,
    beat := ⟨false, false, false, false, false, false, [], 0, 0, 0, 0, 0, 0⟩, cores := [], lines := [],
    yards := ⟨false, 0, false, [], [], []⟩, platforms := Platforms.empty, pools := Pools.empty, combine := Combine.empty,
    exits := [], streams := Streams.empty, fabric := ⟨[], [], [], [], 0, [], 0, false⟩, rmem := ⟨[], [], [], 0, [], [], [], 0, 0, 0, []⟩,
    colls := [], tiers := Tiers.empty, clip := ⟨[], 0, none⟩, slots := [], swap := ⟨0, 0, 0xFF, 0xFF, 0, [0, 0, 0], false, false⟩,
    manager := ⟨[], false, 0, [], none, none, [], none, [], [], 0, false⟩,
    host := ⟨[], [], 0, ⟨false, 0, none, 0, [], []⟩, [], []⟩, nv := nv, security := ⟨[], [], false, [], []⟩,
    package := pkg }

/-- The machine right after reset is asserted: the reset inputs are low (R465), BOOT_STAGE reads 0 (R448), every object
holds its default (R373), and no command waits. -/
def State.reset : State :=
  State.cleared NonVolatile.initial [] ⟨false, false, false, 0, false, 14, false, false, 0, 0, false⟩

end Sys2Proof.Machine
end

