-- ==== Sys2Proof/Machine/Objects.lean ====
section
/-! DEFINITION. The object dictionary of R398: one row for every object the manual's object tables list, with its type,
access, roles, default and flags, and the key of every object. -/

namespace Sys2Proof.Machine

/-- The types of R371. TIME64 is held as U64. -/
inductive OType where
  | bool | u8 | u16 | u32 | u64 | i32 | f32 | vstr | dom
deriving DecidableEq, Repr, Inhabited

/-- Access rights (00_scope, Access rights). -/
inductive OAccess where
  | ro | rw | wo | fixed
deriving DecidableEq, Repr, Inhabited

/-- What an object is selected by beside its index and sub-index: a layer-slot selector (R473), a group or cluster
selector, or the accessing role (R372). -/
inductive OSel where
  | none | gate | map | grant | pred | mcast | coll | quota | role
deriving DecidableEq, Repr, Inhabited

/-- A row of the dictionary: index (to `last`, one per unit), sub-index (to `subLast`), type, access, roles, default,
flags S and P, length or maximum of R400, whether it is fixed, bytes per item, whether its default is empty, selector,
and whether reads return the latched shadow (R59). -/
structure ObjRow where
  index   : Nat
  last    : Nat
  sub     : Nat
  subLast : Nat
  type    : OType
  access  : OAccess
  roles   : List Role
  dflt    : Nat
  staged  : Bool
  persist : Bool
  maxLen  : Nat
  fixed   : Bool
  item    : Nat
  empties : Bool
  sel     : OSel
  latched : Bool
deriving DecidableEq, Repr, Inhabited

/-- The key of an object with no selector. Keys of one object's selections follow it. -/
def objKey (index sub : Nat) : Nat := (index * 256 + sub) * 65536

/-- The index of a key. -/
def keyIndex (k : Nat) : Nat := k / 16777216

/-- The sub-index of a key. -/
def keySub (k : Nat) : Nat := k / 65536 % 256

/-- The selection of a key. -/
def keySel (k : Nat) : Nat := k % 65536

/-- Rows of the dictionary, part 0. -/
def catalogue0 : List ObjRow := [
  ⟨0x2000, 0x2000, 0x00, 0x00, .u32, .rw, [.mgr, .op], 0x3E8, true, false, 0, false, 1, false, .none, false⟩,
  ⟨0x2001, 0x2001, 0x01, 0x01, .u32, .rw, [.mgr, .op], 0x14, true, false, 0, false, 1, false, .none, false⟩,
  ⟨0x2001, 0x2001, 0x02, 0x02, .u32, .rw, [.mgr, .op], 0xF0, true, false, 0, false, 1, false, .none, false⟩,
  ⟨0x2001, 0x2001, 0x03, 0x03, .u32, .rw, [.mgr, .op], 0x12C, true, false, 0, false, 1, false, .none, false⟩,
  ⟨0x2001, 0x2001, 0x04, 0x04, .u32, .rw, [.mgr, .op], 0xFA, true, false, 0, false, 1, false, .none, false⟩,
  ⟨0x2001, 0x2001, 0x05, 0x05, .u32, .rw, [.mgr, .op], 0x1CC, true, false, 0, false, 1, false, .none, false⟩,
  ⟨0x2001, 0x2001, 0x06, 0x06, .u32, .rw, [.mgr, .op], 0x29E, true, false, 0, false, 1, false, .none, false⟩,
  ⟨0x2001, 0x2001, 0x07, 0x07, .u32, .rw, [.mgr, .op], 0x3D4, true, false, 0, false, 1, false, .none, false⟩,
  ⟨0x2001, 0x2001, 0x08, 0x08, .u32, .ro, [.op, .mgr, .ten, .brd], 0x3D4, false, false, 0, false, 1, false, .none, false⟩,
  ⟨0x2001, 0x2001, 0x09, 0x09, .u32, .rw, [.mgr, .op], 0x2BC, true, false, 0, false, 1, false, .none, false⟩,
  ⟨0x2002, 0x2002, 0x01, 0x01, .u64, .ro, [.op, .mgr, .ten, .brd], 0x0, false, false, 0, false, 1, false, .none, false⟩,
  ⟨0x2002, 0x2002, 0x02, 0x02, .u64, .wo, [.op], 0x0, false, false, 0, false, 1, false, .none, false⟩,
  ⟨0x2002, 0x2002, 0x03, 0x03, .u64, .ro, [.op, .mgr, .ten, .brd], 0x0, false, false, 0, false, 1, false, .none, false⟩,
  ⟨0x2003, 0x2003, 0x01, 0x01, .u8, .ro, [.op, .mgr, .ten, .brd], 0x0, false, false, 0, false, 1, false, .none, false⟩,
  ⟨0x2003, 0x2003, 0x02, 0x02, .u32, .ro, [.op, .mgr, .brd], 0x0, false, false, 0, false, 1, false, .none, false⟩,
  ⟨0x2003, 0x2003, 0x03, 0x03, .u32, .rw, [.mgr], 0x186A0, false, false, 0, false, 1, false, .none, false⟩,
  ⟨0x2003, 0x2003, 0x04, 0x04, .u8, .rw, [.op, .brd], 0x0, false, true, 0, false, 1, false, .none, false⟩,
  ⟨0x2003, 0x2003, 0x05, 0x05, .i32, .ro, [.op, .mgr, .brd], 0x0, false, false, 0, false, 1, false, .none, false⟩,
  ⟨0x2003, 0x2003, 0x06, 0x06, .u32, .ro, [.op, .mgr, .brd], 0x0, false, false, 0, false, 1, false, .none, true⟩,
  ⟨0x2003, 0x2003, 0x07, 0x07, .bool, .ro, [.op, .mgr, .brd], 0x0, false, false, 0, false, 1, false, .none, false⟩,
  ⟨0x2004, 0x2004, 0x01, 0x01, .u64, .rw, [.mgr], 0x0, true, false, 0, false, 1, false, .none, false⟩,
  ⟨0x2004, 0x2004, 0x02, 0x02, .u64, .rw, [.mgr], 0x0, true, false, 0, false, 1, false, .none, false⟩,
  ⟨0x2010, 0x2010, 0x01, 0x01, .u32, .wo, [.op, .mgr, .ten, .brd], 0x0, false, false, 0, false, 1, false, .none, false⟩,
  ⟨0x2010, 0x2010, 0x02, 0x02, .u64, .rw, [.op, .mgr, .ten, .brd], 0x0, false, false, 0, false, 1, false, .role, false⟩,
  ⟨0x2011, 0x2011, 0x01, 0x01, .u8, .ro, [.op, .mgr, .ten, .brd], 0x0, false, false, 0, false, 1, false, .role, false⟩,
  ⟨0x2011, 0x2011, 0x02, 0x02, .u32, .ro, [.op, .mgr, .ten, .brd], 0x0, false, false, 0, false, 1, false, .role, false⟩,
  ⟨0x2011, 0x2011, 0x03, 0x03, .u64, .ro, [.op, .mgr, .ten, .brd], 0x0, false, false, 0, false, 1, false, .role, false⟩,
  ⟨0x2011, 0x2011, 0x04, 0x04, .u64, .ro, [.op, .mgr, .ten, .brd], 0x0, false, false, 0, false, 1, false, .role, false⟩,
  ⟨0x2011, 0x2011, 0x05, 0x05, .u16, .ro, [.op, .mgr, .ten, .brd], 0x0, false, false, 0, false, 1, false, .role, false⟩,
  ⟨0x6020, 0x6020, 0x08, 0x67, .u32, .ro, [.op, .mgr, .ten, .brd], 0x0, false, false, 0, false, 1, false, .none, true⟩,
  ⟨0x6021, 0x6021, 0x01, 0x01, .u64, .ro, [.op, .mgr, .ten, .brd], 0x0, false, false, 0, false, 1, false, .none, true⟩,
  ⟨0x6021, 0x6021, 0x02, 0x02, .u32, .ro, [.op, .mgr, .ten, .brd], 0x0, false, false, 0, false, 1, false, .none, true⟩,
  ⟨0x6021, 0x6021, 0x03, 0x03, .u32, .ro, [.op, .mgr, .ten, .brd], 0x0, false, false, 0, false, 1, false, .none, true⟩,
  ⟨0x6021, 0x6021, 0x04, 0x04, .u32, .ro, [.op, .mgr, .ten, .brd], 0x0, false, false, 0, false, 1, false, .none, true⟩,
  ⟨0x3000, 0x3000, 0x01, 0x01, .u64, .rw, [.mgr, .ten], 0x0, true, false, 0, false, 1, false, .none, false⟩,
  ⟨0x3000, 0x3000, 0x02, 0x02, .f32, .rw, [.mgr, .ten], 0x3F800000, true, false, 0, false, 1, false, .none, false⟩,
  ⟨0x3000, 0x3000, 0x03, 0x03, .u8, .rw, [.mgr, .ten], 0x40, true, false, 0, false, 1, false, .none, false⟩,
  ⟨0x3000, 0x3000, 0x04, 0x04, .f32, .rw, [.mgr, .ten], 0x3F800000, true, false, 0, false, 1, false, .none, false⟩,
  ⟨0x3000, 0x3000, 0x05, 0x05, .u32, .rw, [.mgr, .ten], 0x0, true, false, 0, false, 1, false, .none, false⟩,
  ⟨0x3000, 0x3000, 0x06, 0x06, .bool, .rw, [.mgr, .ten], 0x0, true, false, 0, false, 1, false, .none, false⟩]

/-- Rows of the dictionary, part 1. -/
def catalogue1 : List ObjRow := [
  ⟨0x3000, 0x3000, 0x07, 0x07, .u32, .rw, [.mgr, .ten], 0x0, true, false, 0, false, 1, false, .none, false⟩,
  ⟨0x3000, 0x3000, 0x08, 0x08, .u32, .rw, [.mgr, .ten], 0x0, true, false, 0, false, 1, false, .none, false⟩,
  ⟨0x3000, 0x3000, 0x09, 0x09, .u8, .rw, [.mgr, .ten], 0x1, true, false, 0, false, 1, false, .none, false⟩,
  ⟨0x3010, 0x3010, 0x01, 0x01, .dom, .rw, [.mgr, .ten], 0x0, true, false, 4096, true, 1, false, .none, false⟩,
  ⟨0x3010, 0x3010, 0x02, 0x02, .u8, .rw, [.mgr, .ten], 0x0, false, false, 0, false, 1, false, .none, false⟩,
  ⟨0x3010, 0x3010, 0x03, 0x03, .dom, .rw, [.mgr, .ten], 0x0, true, false, 8388608, false, 1, true, .gate, false⟩,
  ⟨0x3010, 0x3010, 0x04, 0x04, .dom, .rw, [.mgr, .ten], 0x0, true, false, 536870912, false, 1, true, .gate, false⟩,
  ⟨0x3010, 0x3010, 0x05, 0x05, .dom, .rw, [.mgr, .ten], 0x0, true, false, 1024, false, 4, true, .gate, false⟩,
  ⟨0x3010, 0x3010, 0x06, 0x06, .dom, .rw, [.mgr, .ten], 0x0, true, false, 65536, false, 4, true, .gate, false⟩,
  ⟨0x3010, 0x3010, 0x07, 0x07, .bool, .ro, [.op, .mgr, .ten], 0x0, false, false, 0, false, 1, false, .none, false⟩,
  ⟨0x3010, 0x3010, 0x08, 0x08, .u32, .ro, [.op, .mgr, .ten], 0x0, false, false, 0, false, 1, false, .none, false⟩,
  ⟨0x3010, 0x3010, 0x09, 0x09, .u32, .ro, [.op, .mgr, .ten], 0x0, false, false, 0, false, 1, false, .none, false⟩,
  ⟨0x3010, 0x3010, 0x0A, 0x0A, .u8, .ro, [.op, .mgr, .ten], 0xFF, false, false, 0, false, 1, false, .none, false⟩,
  ⟨0x6030, 0x6030, 0x01, 0x01, .u32, .ro, [.op, .mgr, .ten], 0x0, false, false, 0, false, 1, false, .none, true⟩,
  ⟨0x6030, 0x6030, 0x02, 0x02, .u32, .ro, [.op, .mgr, .ten], 0x0, false, false, 0, false, 1, false, .none, true⟩,
  ⟨0x6030, 0x6030, 0x03, 0x03, .u32, .ro, [.op, .mgr, .ten], 0x0, false, false, 0, false, 1, false, .none, true⟩,
  ⟨0x6030, 0x6030, 0x04, 0x04, .u32, .ro, [.op, .mgr, .ten], 0x0, false, false, 0, false, 1, false, .none, true⟩,
  ⟨0x6030, 0x6030, 0x05, 0x05, .u32, .ro, [.op, .mgr, .ten], 0x0, false, false, 0, false, 1, false, .none, true⟩,
  ⟨0x6030, 0x6030, 0x06, 0x06, .u32, .ro, [.op, .mgr, .ten], 0x0, false, false, 0, false, 1, false, .none, true⟩,
  ⟨0x6030, 0x6030, 0x07, 0x07, .u32, .ro, [.op, .mgr, .ten], 0x0, false, false, 0, false, 1, false, .none, true⟩,
  ⟨0x6030, 0x6030, 0x08, 0x08, .u32, .ro, [.op, .mgr, .ten], 0x0, false, false, 0, false, 1, false, .none, true⟩,
  ⟨0x6030, 0x6030, 0x09, 0x09, .u32, .ro, [.op, .mgr, .ten], 0x0, false, false, 0, false, 1, false, .none, true⟩,
  ⟨0x6030, 0x6030, 0x0A, 0x0A, .u32, .ro, [.op, .mgr, .ten], 0x0, false, false, 0, false, 1, false, .none, true⟩,
  ⟨0x3020, 0x3020, 0x01, 0x01, .u8, .rw, [.mgr, .ten], 0x0, false, false, 0, false, 1, false, .none, false⟩,
  ⟨0x3020, 0x3020, 0x02, 0x02, .dom, .rw, [.mgr, .ten], 0x0, true, false, 65536, false, 4, true, .map, false⟩,
  ⟨0x3030, 0x3030, 0x01, 0x01, .u8, .rw, [.mgr, .ten], 0x0, false, false, 0, false, 1, false, .none, false⟩,
  ⟨0x3030, 0x3030, 0x02, 0x02, .dom, .rw, [.mgr, .ten], 0x0, true, false, 32768, false, 2, true, .grant, false⟩,
  ⟨0x3030, 0x3030, 0x03, 0x03, .dom, .rw, [.mgr, .ten], 0x0, true, false, 131072, false, 8, true, .none, false⟩,
  ⟨0x3040, 0x3040, 0x01, 0x01, .dom, .rw, [.mgr, .ten], 0x0, true, false, 2048, true, 1, false, .none, false⟩,
  ⟨0x3040, 0x3040, 0x02, 0x02, .u16, .rw, [.mgr, .ten], 0x0, true, false, 0, false, 1, false, .none, false⟩,
  ⟨0x7000, 0x7000, 0x20, 0x20, .u32, .wo, [.op, .ten], 0x0, false, false, 0, false, 1, false, .none, false⟩,
  ⟨0x7000, 0x7000, 0x21, 0x21, .u16, .rw, [.mgr, .op], 0x8, true, false, 0, false, 1, false, .none, false⟩,
  ⟨0x7000, 0x7000, 0x22, 0x22, .u8, .ro, [.op, .mgr, .ten], 0x0, false, false, 0, false, 1, false, .none, false⟩,
  ⟨0x6010, 0x6010, 0x01, 0x01, .u64, .ro, [.op, .mgr, .ten], 0x0, false, false, 0, false, 1, false, .none, true⟩,
  ⟨0x6010, 0x6010, 0x02, 0x02, .u64, .ro, [.op, .mgr, .ten], 0x0, false, false, 0, false, 1, false, .none, true⟩,
  ⟨0x6010, 0x6010, 0x03, 0x03, .u64, .ro, [.op, .mgr, .ten], 0x0, false, false, 0, false, 1, false, .none, true⟩,
  ⟨0x6010, 0x6010, 0x04, 0x04, .u64, .ro, [.op, .mgr, .ten], 0x0, false, false, 0, false, 1, false, .none, true⟩,
  ⟨0x6010, 0x6010, 0x05, 0x05, .u64, .ro, [.op, .mgr, .ten], 0x0, false, false, 0, false, 1, false, .none, true⟩,
  ⟨0x6010, 0x6010, 0x06, 0x06, .u64, .ro, [.op, .mgr, .ten], 0x0, false, false, 0, false, 1, false, .none, true⟩,
  ⟨0x6010, 0x6010, 0x07, 0x07, .u64, .ro, [.op, .mgr, .ten], 0x0, false, false, 0, false, 1, false, .none, true⟩]

/-- Rows of the dictionary, part 2. -/
def catalogue2 : List ObjRow := [
  ⟨0x6010, 0x6010, 0x08, 0x08, .u32, .ro, [.op, .mgr, .ten], 0x0, false, false, 0, false, 1, false, .none, true⟩,
  ⟨0x6011, 0x6011, 0x01, 0x01, .u64, .ro, [.op, .mgr, .ten], 0x0, false, false, 0, false, 1, false, .none, true⟩,
  ⟨0x6011, 0x6011, 0x02, 0x02, .u64, .ro, [.op, .mgr, .ten], 0x0, false, false, 0, false, 1, false, .none, true⟩,
  ⟨0x6011, 0x6011, 0x03, 0x03, .u64, .ro, [.op, .mgr, .ten], 0x0, false, false, 0, false, 1, false, .none, true⟩,
  ⟨0x6011, 0x6011, 0x04, 0x04, .u64, .ro, [.op, .mgr, .ten], 0x0, false, false, 0, false, 1, false, .none, true⟩,
  ⟨0x6011, 0x6011, 0x05, 0x05, .u64, .ro, [.op, .mgr, .ten], 0x0, false, false, 0, false, 1, false, .none, true⟩,
  ⟨0x6011, 0x6011, 0x06, 0x06, .u64, .ro, [.op, .mgr, .ten], 0x0, false, false, 0, false, 1, false, .none, true⟩,
  ⟨0x6011, 0x6011, 0x07, 0x07, .u64, .ro, [.op, .mgr, .ten], 0x0, false, false, 0, false, 1, false, .none, true⟩,
  ⟨0x6011, 0x6011, 0x08, 0x0D, .u32, .ro, [.op, .mgr, .ten], 0x0, false, false, 0, false, 1, false, .none, true⟩,
  ⟨0x6012, 0x6012, 0x01, 0x01, .u32, .ro, [.op, .mgr, .ten], 0x0, false, false, 0, false, 1, false, .none, true⟩,
  ⟨0x6012, 0x6012, 0x02, 0x02, .u32, .ro, [.op, .mgr, .ten], 0x0, false, false, 0, false, 1, false, .none, true⟩,
  ⟨0x6012, 0x6012, 0x03, 0x03, .u32, .ro, [.op, .mgr, .ten], 0x0, false, false, 0, false, 1, false, .none, true⟩,
  ⟨0x6012, 0x6012, 0x04, 0x04, .u32, .ro, [.op, .mgr, .ten], 0x0, false, false, 0, false, 1, false, .none, true⟩,
  ⟨0x6012, 0x6012, 0x05, 0x05, .u32, .ro, [.op, .mgr, .ten], 0x0, false, false, 0, false, 1, false, .none, true⟩,
  ⟨0x6012, 0x6012, 0x06, 0x06, .u32, .ro, [.op, .mgr, .ten], 0x0, false, false, 0, false, 1, false, .none, true⟩,
  ⟨0x6012, 0x6012, 0x07, 0x07, .u32, .ro, [.op, .mgr, .ten], 0x0, false, false, 0, false, 1, false, .none, true⟩,
  ⟨0x6012, 0x6012, 0x08, 0x08, .u32, .ro, [.op, .mgr, .ten], 0x0, false, false, 0, false, 1, false, .none, true⟩,
  ⟨0x6012, 0x6012, 0x09, 0x09, .u32, .ro, [.op, .mgr, .ten], 0x0, false, false, 0, false, 1, false, .none, true⟩,
  ⟨0x3000, 0x3000, 0x0A, 0x0A, .u32, .rw, [.mgr, .ten], 0x4000, true, false, 0, false, 1, false, .none, false⟩,
  ⟨0x3000, 0x3000, 0x0B, 0x0B, .u32, .rw, [.mgr, .ten], 0x100000, true, false, 0, false, 1, false, .none, false⟩,
  ⟨0x3040, 0x3040, 0x03, 0x03, .dom, .rw, [.mgr, .ten], 0x0, true, false, 4096, true, 1, false, .none, false⟩,
  ⟨0x3040, 0x3040, 0x04, 0x04, .dom, .ro, [.op, .mgr, .ten], 0x0, false, false, 256, true, 1, false, .none, false⟩,
  ⟨0x3040, 0x3040, 0x05, 0x05, .u8, .wo, [.mgr, .ten], 0x0, false, false, 0, false, 1, false, .none, false⟩,
  ⟨0x3100, 0x3100, 0x01, 0x01, .dom, .rw, [.mgr, .ten], 0x0, true, false, 4096, true, 1, false, .none, false⟩,
  ⟨0x3100, 0x3100, 0x02, 0x02, .u8, .rw, [.mgr, .ten], 0x0, false, false, 0, false, 1, false, .none, false⟩,
  ⟨0x3100, 0x3100, 0x03, 0x03, .dom, .rw, [.mgr, .ten], 0x0, true, false, 1048832, false, 1, true, .pred, false⟩,
  ⟨0x3100, 0x3100, 0x04, 0x04, .u8, .fixed, [.op, .mgr, .ten, .brd], 0x20, false, false, 0, false, 1, false, .none, false⟩,
  ⟨0x6500, 0x6500, 0x06, 0x06, .u32, .rw, [.mgr, .ten], 0x10, true, false, 0, false, 1, false, .none, false⟩,
  ⟨0x6500, 0x6500, 0x07, 0x07, .bool, .rw, [.mgr, .ten], 0x0, false, false, 0, false, 1, false, .none, false⟩,
  ⟨0x6040, 0x6040, 0x01, 0x01, .u32, .ro, [.op, .mgr, .ten], 0x0, false, false, 0, false, 1, false, .none, true⟩,
  ⟨0x6040, 0x6040, 0x02, 0x02, .u32, .ro, [.op, .mgr, .ten], 0x0, false, false, 0, false, 1, false, .none, true⟩,
  ⟨0x6040, 0x6040, 0x03, 0x03, .u32, .ro, [.op, .mgr, .ten], 0x0, false, false, 0, false, 1, false, .none, true⟩,
  ⟨0x6040, 0x6040, 0x04, 0x04, .u32, .ro, [.op, .mgr, .ten], 0x0, false, false, 0, false, 1, false, .none, true⟩,
  ⟨0x6040, 0x6040, 0x05, 0x05, .u32, .ro, [.op, .mgr, .ten], 0x0, false, false, 0, false, 1, false, .none, true⟩,
  ⟨0x6040, 0x6040, 0x06, 0x06, .u32, .ro, [.op, .mgr, .ten], 0x0, false, false, 0, false, 1, false, .none, true⟩,
  ⟨0x6040, 0x6040, 0x07, 0x07, .u32, .ro, [.op, .mgr, .ten], 0x0, false, false, 0, false, 1, false, .none, true⟩,
  ⟨0x6500, 0x6500, 0x01, 0x01, .u32, .ro, [.op, .mgr, .ten], 0x0, false, false, 0, false, 1, false, .none, true⟩,
  ⟨0x6500, 0x6500, 0x02, 0x02, .u32, .ro, [.op, .mgr, .ten], 0x0, false, false, 0, false, 1, false, .none, true⟩,
  ⟨0x6500, 0x6500, 0x03, 0x03, .u32, .ro, [.op, .mgr, .ten], 0x0, false, false, 0, false, 1, false, .none, true⟩,
  ⟨0x6500, 0x6500, 0x04, 0x04, .u32, .ro, [.op, .mgr, .ten], 0x0, false, false, 0, false, 1, false, .none, true⟩]

/-- Rows of the dictionary, part 3. -/
def catalogue3 : List ObjRow := [
  ⟨0x6500, 0x6500, 0x05, 0x05, .u32, .ro, [.op, .mgr, .ten], 0x0, false, false, 0, false, 1, false, .none, true⟩,
  ⟨0x6500, 0x6500, 0x08, 0x08, .u32, .ro, [.op, .mgr, .ten], 0x0, false, false, 0, false, 1, false, .none, true⟩,
  ⟨0x5000, 0x5000, 0x01, 0x01, .u16, .fixed, [.op, .mgr, .ten, .brd], 0x1, false, false, 0, false, 1, false, .none, false⟩,
  ⟨0x5000, 0x5000, 0x02, 0x02, .u8, .rw, [.mgr, .ten], 0x0, true, false, 0, false, 1, false, .none, false⟩,
  ⟨0x5000, 0x5000, 0x03, 0x03, .u8, .rw, [.mgr, .ten], 0x0, true, false, 0, false, 1, false, .none, false⟩,
  ⟨0x5000, 0x5000, 0x04, 0x04, .i32, .fixed, [.op, .mgr, .ten, .brd], 0xFFFFFF80, false, false, 0, false, 1, false, .none, false⟩,
  ⟨0x5000, 0x5000, 0x05, 0x05, .i32, .fixed, [.op, .mgr, .ten, .brd], 0x58, false, false, 0, false, 1, false, .none, false⟩,
  ⟨0x5000, 0x5000, 0x06, 0x06, .u8, .fixed, [.op, .mgr, .ten, .brd], 0x50, false, false, 0, false, 1, false, .none, false⟩,
  ⟨0x5000, 0x5000, 0x07, 0x07, .u8, .fixed, [.op, .mgr, .ten, .brd], 0x28, false, false, 0, false, 1, false, .none, false⟩,
  ⟨0x50FF, 0x50FF, 0x01, 0x01, .dom, .ro, [.op, .mgr, .ten, .brd], 0x0, false, false, 32, true, 1, false, .none, false⟩,
  ⟨0x6050, 0x6050, 0x01, 0x01, .u64, .ro, [.op, .mgr, .ten], 0x0, false, false, 0, false, 1, false, .none, true⟩,
  ⟨0x6050, 0x6050, 0x02, 0x02, .u64, .ro, [.op, .mgr, .ten], 0x0, false, false, 0, false, 1, false, .none, true⟩,
  ⟨0x6050, 0x6050, 0x03, 0x03, .u32, .ro, [.op, .mgr, .ten], 0x0, false, false, 0, false, 1, false, .none, true⟩,
  ⟨0x6050, 0x6050, 0x04, 0x04, .u32, .ro, [.op, .mgr, .ten], 0x0, false, false, 0, false, 1, false, .none, true⟩,
  ⟨0x6050, 0x6050, 0x05, 0x05, .u32, .ro, [.op, .mgr, .ten], 0x0, false, false, 0, false, 1, false, .none, true⟩,
  ⟨0x6050, 0x6050, 0x06, 0x06, .u32, .ro, [.op, .mgr, .ten], 0x0, false, false, 0, false, 1, false, .none, true⟩,
  ⟨0x6050, 0x6050, 0x07, 0x07, .u32, .ro, [.op, .mgr, .ten], 0x0, false, false, 0, false, 1, false, .none, true⟩,
  ⟨0x6400, 0x6400, 0x01, 0x01, .u16, .rw, [.mgr, .ten], 0x1, true, false, 0, false, 1, false, .none, false⟩,
  ⟨0x6400, 0x6400, 0x02, 0x02, .dom, .rw, [.mgr, .ten], 0x0, true, false, 1024, true, 1, false, .none, false⟩,
  ⟨0x6400, 0x6400, 0x03, 0x03, .dom, .ro, [.op, .mgr, .ten], 0x0, false, false, 1024, true, 1, false, .none, true⟩,
  ⟨0x6400, 0x6400, 0x04, 0x04, .dom, .rw, [.mgr, .ten], 0x0, false, false, 32, true, 1, false, .none, false⟩,
  ⟨0x6400, 0x6400, 0x05, 0x05, .u32, .ro, [.op, .mgr, .ten], 0x0, false, false, 0, false, 1, false, .none, true⟩,
  ⟨0x6400, 0x6400, 0x06, 0x06, .u64, .ro, [.op, .mgr, .ten], 0x0, false, false, 0, false, 1, false, .none, true⟩,
  ⟨0x6400, 0x6400, 0x07, 0x07, .u64, .ro, [.op, .mgr, .ten], 0x0, false, false, 0, false, 1, false, .none, true⟩,
  ⟨0x6400, 0x6400, 0x08, 0x08, .u32, .ro, [.op, .mgr, .ten], 0x0, false, false, 0, false, 1, false, .none, true⟩,
  ⟨0x6400, 0x6400, 0x09, 0x09, .u32, .ro, [.op, .mgr, .ten], 0x0, false, false, 0, false, 1, false, .none, true⟩,
  ⟨0x6400, 0x6400, 0x0A, 0x0A, .u32, .ro, [.op, .mgr, .ten], 0x0, false, false, 0, false, 1, false, .none, true⟩,
  ⟨0x6060, 0x6060, 0x01, 0x01, .u32, .ro, [.op, .mgr, .ten], 0x0, false, false, 0, false, 1, false, .none, true⟩,
  ⟨0x6060, 0x6060, 0x02, 0x02, .u64, .ro, [.op, .mgr, .ten], 0x0, false, false, 0, false, 1, false, .none, true⟩,
  ⟨0x6060, 0x6060, 0x03, 0x03, .u64, .ro, [.op, .mgr, .ten], 0x0, false, false, 0, false, 1, false, .none, true⟩,
  ⟨0x6060, 0x6060, 0x04, 0x04, .u32, .ro, [.op, .mgr, .ten], 0x0, false, false, 0, false, 1, false, .none, true⟩,
  ⟨0x6060, 0x6060, 0x05, 0x05, .u32, .ro, [.op, .mgr, .ten], 0x0, false, false, 0, false, 1, false, .none, true⟩,
  ⟨0x6060, 0x6060, 0x06, 0x06, .u32, .ro, [.op, .mgr, .ten], 0x0, false, false, 0, false, 1, false, .none, true⟩,
  ⟨0x4000, 0x407F, 0x01, 0x01, .dom, .rw, [.op, .mgr, .ten], 0x0, false, false, 262208, false, 1, true, .none, false⟩,
  ⟨0x4000, 0x407F, 0x02, 0x02, .dom, .rw, [.op, .mgr, .ten], 0x0, false, false, 262208, false, 1, true, .none, false⟩,
  ⟨0x4000, 0x407F, 0x03, 0x03, .u8, .rw, [.op, .mgr, .ten], 0x0, true, false, 0, false, 1, false, .none, false⟩,
  ⟨0x4000, 0x407F, 0x04, 0x04, .u8, .rw, [.op, .mgr, .ten], 0x0, true, false, 0, false, 1, false, .none, false⟩,
  ⟨0x4000, 0x407F, 0x05, 0x05, .dom, .ro, [.op, .mgr, .ten, .brd], 0x0, false, false, 32, true, 1, false, .none, false⟩,
  ⟨0x4000, 0x407F, 0x06, 0x06, .dom, .ro, [.op, .mgr, .ten, .brd], 0x0, false, false, 32, true, 1, false, .none, false⟩,
  ⟨0x4000, 0x407F, 0x07, 0x07, .u32, .ro, [.op, .mgr, .ten], 0x0, false, false, 0, false, 1, false, .none, false⟩]

/-- Rows of the dictionary, part 4. -/
def catalogue4 : List ObjRow := [
  ⟨0x4000, 0x407F, 0x08, 0x08, .dom, .rw, [.op, .mgr, .ten], 0x0, true, false, 1048640, false, 1, true, .none, false⟩,
  ⟨0x4080, 0x4080, 0x01, 0x01, .dom, .ro, [.op, .mgr, .ten], 0x0, false, false, 1024, true, 1, false, .none, false⟩,
  ⟨0x6070, 0x6070, 0x01, 0x01, .u32, .ro, [.op, .mgr, .ten], 0x0, false, false, 0, false, 1, false, .none, true⟩,
  ⟨0x6070, 0x6070, 0x02, 0x02, .u32, .ro, [.op, .mgr, .ten], 0x0, false, false, 0, false, 1, false, .none, true⟩,
  ⟨0x6070, 0x6070, 0x03, 0x03, .u32, .ro, [.op, .mgr, .ten], 0x0, false, false, 0, false, 1, false, .none, true⟩,
  ⟨0x6070, 0x6070, 0x04, 0x04, .u32, .ro, [.op, .mgr, .ten], 0x0, false, false, 0, false, 1, false, .none, true⟩,
  ⟨0x6070, 0x6070, 0x05, 0x05, .u32, .ro, [.op, .mgr, .ten], 0x0, false, false, 0, false, 1, false, .none, true⟩,
  ⟨0x6070, 0x6070, 0x06, 0x06, .u32, .ro, [.op, .mgr, .ten], 0x0, false, false, 0, false, 1, false, .none, true⟩,
  ⟨0x6070, 0x6070, 0x07, 0x07, .u32, .ro, [.op, .mgr, .ten], 0x0, false, false, 0, false, 1, false, .none, true⟩,
  ⟨0x6070, 0x6070, 0x08, 0x08, .u32, .ro, [.op, .mgr, .ten], 0x0, false, false, 0, false, 1, false, .none, true⟩,
  ⟨0x6070, 0x6070, 0x09, 0x09, .u32, .ro, [.op, .mgr, .ten], 0x0, false, false, 0, false, 1, false, .none, true⟩,
  ⟨0x2300, 0x233B, 0x01, 0x01, .u32, .rw, [.mgr, .op], 0x0, true, false, 0, false, 1, false, .none, false⟩,
  ⟨0x2300, 0x233B, 0x02, 0x02, .u8, .ro, [.op, .mgr, .brd], 0x0, false, false, 0, false, 1, false, .none, false⟩,
  ⟨0x2300, 0x233B, 0x03, 0x03, .u32, .ro, [.op, .mgr, .brd], 0x0, false, false, 0, false, 1, false, .none, false⟩,
  ⟨0x2300, 0x233B, 0x04, 0x04, .u16, .ro, [.op, .mgr, .brd], 0xFF, false, false, 0, false, 1, false, .none, false⟩,
  ⟨0x2300, 0x233B, 0x05, 0x05, .i32, .rw, [.mgr], 0x0, false, true, 0, false, 1, false, .none, false⟩,
  ⟨0x2300, 0x233B, 0x06, 0x06, .u32, .ro, [.op, .mgr, .brd], 0x0, false, false, 0, false, 1, false, .none, false⟩,
  ⟨0x2300, 0x233B, 0x10, 0x10, .u64, .ro, [.op, .mgr, .brd], 0x0, false, false, 0, false, 1, false, .none, true⟩,
  ⟨0x2300, 0x233B, 0x11, 0x11, .u64, .ro, [.op, .mgr, .brd], 0x0, false, false, 0, false, 1, false, .none, true⟩,
  ⟨0x2300, 0x233B, 0x12, 0x12, .u64, .ro, [.op, .mgr, .brd], 0x0, false, false, 0, false, 1, false, .none, true⟩,
  ⟨0x2300, 0x233B, 0x13, 0x13, .u32, .ro, [.op, .mgr, .brd], 0x0, false, false, 0, false, 1, false, .none, true⟩,
  ⟨0x2300, 0x233B, 0x14, 0x14, .u32, .ro, [.op, .mgr, .brd], 0x0, false, false, 0, false, 1, false, .none, true⟩,
  ⟨0x2300, 0x233B, 0x15, 0x15, .u32, .ro, [.op, .mgr, .brd], 0x0, false, false, 0, false, 1, false, .none, true⟩,
  ⟨0x2300, 0x233B, 0x16, 0x16, .u32, .ro, [.op, .mgr, .brd], 0x0, false, false, 0, false, 1, false, .none, true⟩,
  ⟨0x2300, 0x233B, 0x17, 0x17, .u32, .ro, [.op, .mgr, .brd], 0x0, false, false, 0, false, 1, false, .none, true⟩,
  ⟨0x2400, 0x2400, 0x01, 0x01, .dom, .rw, [.mgr], 0x0, true, false, 65536, false, 4, true, .none, false⟩,
  ⟨0x2400, 0x2400, 0x02, 0x02, .u16, .rw, [.mgr], 0x0, true, false, 0, false, 1, false, .none, false⟩,
  ⟨0x2400, 0x2400, 0x03, 0x03, .u16, .ro, [.op, .mgr, .ten, .brd], 0x0, false, false, 0, false, 1, false, .none, false⟩,
  ⟨0x2400, 0x2400, 0x04, 0x04, .u16, .rw, [.mgr], 0x0, true, false, 0, false, 1, false, .none, false⟩,
  ⟨0x2400, 0x2400, 0x05, 0x05, .u16, .rw, [.op, .brd], 0x0, false, true, 0, false, 1, false, .none, false⟩,
  ⟨0x2400, 0x2400, 0x06, 0x06, .u16, .ro, [.op, .mgr, .ten, .brd], 0x0, false, false, 0, false, 1, false, .none, false⟩,
  ⟨0x2401, 0x2401, 0x01, 0x01, .dom, .rw, [.mgr], 0x0, true, false, 262144, true, 1, false, .none, false⟩,
  ⟨0x2401, 0x2401, 0x02, 0x02, .u32, .ro, [.op, .mgr, .brd], 0x0, false, false, 0, false, 1, false, .none, true⟩,
  ⟨0x2402, 0x2402, 0x01, 0x01, .u16, .rw, [.mgr], 0x0, false, false, 0, false, 1, false, .none, false⟩,
  ⟨0x2402, 0x2402, 0x02, 0x02, .u8, .rw, [.mgr], 0x0, false, false, 0, false, 1, false, .none, false⟩,
  ⟨0x2402, 0x2402, 0x03, 0x03, .u64, .rw, [.mgr], 0x0, false, false, 0, false, 1, false, .none, false⟩,
  ⟨0x2402, 0x2402, 0x04, 0x04, .u8, .wo, [.mgr], 0x0, false, false, 0, false, 1, false, .none, false⟩,
  ⟨0x2402, 0x2402, 0x05, 0x05, .u8, .ro, [.op, .mgr, .brd], 0x0, false, false, 0, false, 1, false, .none, false⟩,
  ⟨0x2402, 0x2402, 0x06, 0x06, .u32, .rw, [.mgr], 0x1E8480, false, false, 0, false, 1, false, .none, false⟩,
  ⟨0x2500, 0x2500, 0x01, 0x01, .u16, .rw, [.mgr, .ten], 0x0, false, false, 0, false, 1, false, .none, false⟩]

/-- Rows of the dictionary, part 5. -/
def catalogue5 : List ObjRow := [
  ⟨0x2500, 0x2500, 0x02, 0x02, .dom, .rw, [.mgr, .ten], 0x0, true, false, 136, true, 1, false, .mcast, false⟩,
  ⟨0x6080, 0x6080, 0x01, 0x01, .u32, .ro, [.op, .mgr, .brd], 0x0, false, false, 0, false, 1, false, .none, true⟩,
  ⟨0x6080, 0x6080, 0x02, 0x02, .u32, .ro, [.op, .mgr, .brd], 0x0, false, false, 0, false, 1, false, .none, true⟩,
  ⟨0x6080, 0x6080, 0x03, 0x03, .u32, .ro, [.op, .mgr, .ten, .brd], 0x0, false, false, 0, false, 1, false, .none, true⟩,
  ⟨0x6080, 0x6080, 0x04, 0x04, .u32, .ro, [.op, .mgr, .ten], 0x0, false, false, 0, false, 1, false, .none, true⟩,
  ⟨0x6080, 0x6080, 0x05, 0x05, .u32, .ro, [.op, .mgr, .ten], 0x0, false, false, 0, false, 1, false, .none, true⟩,
  ⟨0x6080, 0x6080, 0x06, 0x06, .u32, .ro, [.op, .mgr, .ten], 0x0, false, false, 0, false, 1, false, .none, true⟩,
  ⟨0x6080, 0x6080, 0x07, 0x07, .u32, .ro, [.op, .mgr, .ten], 0x0, false, false, 0, false, 1, false, .none, true⟩,
  ⟨0x6080, 0x6080, 0x08, 0x08, .u32, .ro, [.op, .mgr, .brd], 0x0, false, false, 0, false, 1, false, .none, true⟩,
  ⟨0x6080, 0x6080, 0x09, 0x09, .u32, .ro, [.op, .mgr, .brd], 0x0, false, false, 0, false, 1, false, .none, true⟩,
  ⟨0x6080, 0x6080, 0x0A, 0x0A, .u32, .ro, [.op, .mgr, .brd], 0x0, false, false, 0, false, 1, false, .none, true⟩,
  ⟨0x2840, 0x2840, 0x01, 0x01, .dom, .rw, [.mgr, .ten], 0x0, true, false, 1048576, false, 16, true, .none, false⟩,
  ⟨0x2840, 0x2840, 0x02, 0x02, .u32, .ro, [.op, .mgr, .ten], 0x0, false, false, 0, false, 1, false, .none, false⟩,
  ⟨0x2840, 0x2840, 0x03, 0x03, .u32, .rw, [.mgr, .ten], 0x186A0, true, false, 0, false, 1, false, .none, false⟩,
  ⟨0x2840, 0x2840, 0x04, 0x04, .u8, .rw, [.mgr, .ten], 0x3, true, false, 0, false, 1, false, .none, false⟩,
  ⟨0x2840, 0x2840, 0x05, 0x05, .u32, .wo, [.mgr, .ten], 0x0, false, false, 0, false, 1, false, .none, false⟩,
  ⟨0x2840, 0x2840, 0x06, 0x06, .u8, .ro, [.op, .mgr, .ten], 0x0, false, false, 0, false, 1, false, .none, false⟩,
  ⟨0x2840, 0x2840, 0x07, 0x07, .dom, .ro, [.op, .mgr, .ten], 0x0, false, false, 256, true, 1, false, .none, false⟩,
  ⟨0x2840, 0x2840, 0x08, 0x08, .u8, .fixed, [.op, .mgr, .ten, .brd], 0x10, false, false, 0, false, 1, false, .none, false⟩,
  ⟨0x6090, 0x6090, 0x01, 0x01, .u64, .ro, [.op, .mgr, .ten], 0x0, false, false, 0, false, 1, false, .none, true⟩,
  ⟨0x6090, 0x6090, 0x02, 0x02, .u64, .ro, [.op, .mgr, .ten], 0x0, false, false, 0, false, 1, false, .none, true⟩,
  ⟨0x6090, 0x6090, 0x03, 0x03, .u64, .ro, [.op, .mgr, .ten], 0x0, false, false, 0, false, 1, false, .none, true⟩,
  ⟨0x6090, 0x6090, 0x04, 0x04, .u64, .ro, [.op, .mgr, .ten], 0x0, false, false, 0, false, 1, false, .none, true⟩,
  ⟨0x6090, 0x6090, 0x05, 0x05, .u32, .ro, [.op, .mgr, .ten], 0x0, false, false, 0, false, 1, false, .none, true⟩,
  ⟨0x6090, 0x6090, 0x06, 0x06, .u32, .ro, [.op, .mgr, .ten], 0x0, false, false, 0, false, 1, false, .none, true⟩,
  ⟨0x6090, 0x6090, 0x07, 0x07, .u32, .ro, [.op, .mgr, .ten], 0x0, false, false, 0, false, 1, false, .none, true⟩,
  ⟨0x6090, 0x6090, 0x08, 0x08, .u32, .ro, [.op, .mgr, .ten], 0x0, false, false, 0, false, 1, false, .none, true⟩,
  ⟨0x6090, 0x6090, 0x09, 0x09, .u32, .ro, [.op, .mgr, .ten], 0x0, false, false, 0, false, 1, false, .none, true⟩,
  ⟨0x6090, 0x6090, 0x0A, 0x0A, .u32, .ro, [.op, .mgr, .ten], 0x0, false, false, 0, false, 1, false, .none, true⟩,
  ⟨0x2600, 0x2600, 0x01, 0x01, .u16, .rw, [.mgr, .ten], 0x0, false, false, 0, false, 1, false, .none, false⟩,
  ⟨0x2600, 0x2600, 0x02, 0x02, .dom, .rw, [.mgr, .ten], 0x0, true, false, 8200, false, 2, true, .coll, false⟩,
  ⟨0x2600, 0x2600, 0x03, 0x03, .dom, .wo, [.mgr, .ten], 0x0, false, false, 64, true, 1, false, .none, false⟩,
  ⟨0x2600, 0x2600, 0x04, 0x04, .dom, .ro, [.op, .mgr, .ten], 0x0, false, false, 128, true, 1, false, .none, false⟩,
  ⟨0x2600, 0x2600, 0x05, 0x05, .u32, .rw, [.mgr, .ten], 0x989680, true, false, 0, false, 1, false, .none, false⟩,
  ⟨0x60A0, 0x60A0, 0x01, 0x01, .u32, .ro, [.op, .mgr, .ten], 0x0, false, false, 0, false, 1, false, .none, true⟩,
  ⟨0x60A0, 0x60A0, 0x02, 0x02, .u32, .ro, [.op, .mgr, .ten], 0x0, false, false, 0, false, 1, false, .none, true⟩,
  ⟨0x60A0, 0x60A0, 0x03, 0x03, .u32, .ro, [.op, .mgr, .ten], 0x0, false, false, 0, false, 1, false, .none, true⟩,
  ⟨0x60A0, 0x60A0, 0x04, 0x04, .u64, .ro, [.op, .mgr, .ten], 0x0, false, false, 0, false, 1, false, .none, true⟩,
  ⟨0x60A0, 0x60A0, 0x05, 0x05, .u32, .ro, [.op, .mgr, .ten], 0x0, false, false, 0, false, 1, false, .none, true⟩,
  ⟨0x60A0, 0x60A0, 0x06, 0x06, .u32, .ro, [.op, .mgr, .ten], 0x0, false, false, 0, false, 1, false, .none, true⟩]

/-- Rows of the dictionary, part 6. -/
def catalogue6 : List ObjRow := [
  ⟨0x60A0, 0x60A0, 0x07, 0x07, .u64, .ro, [.op, .mgr, .ten], 0x0, false, false, 0, false, 1, false, .none, true⟩,
  ⟨0x60A0, 0x60A0, 0x08, 0x08, .u32, .ro, [.op, .mgr, .ten], 0x0, false, false, 0, false, 1, false, .none, true⟩,
  ⟨0x2800, 0x2800, 0x01, 0x01, .u32, .fixed, [.op, .mgr, .ten, .brd], 0x30000, false, false, 0, false, 1, false, .none, false⟩,
  ⟨0x2800, 0x2800, 0x02, 0x02, .u32, .ro, [.op, .mgr, .ten], 0x0, false, false, 0, false, 1, false, .none, false⟩,
  ⟨0x2800, 0x2800, 0x03, 0x03, .u32, .fixed, [.op, .mgr, .ten, .brd], 0x200, false, false, 0, false, 1, false, .none, false⟩,
  ⟨0x2800, 0x2800, 0x04, 0x04, .u32, .rw, [.mgr, .ten], 0x40000, true, false, 0, false, 1, false, .none, false⟩,
  ⟨0x2810, 0x2810, 0x01, 0x01, .u32, .fixed, [.op, .mgr, .ten, .brd], 0x400000, false, false, 0, false, 1, false, .none, false⟩,
  ⟨0x2810, 0x2810, 0x02, 0x02, .u32, .ro, [.op, .mgr, .ten], 0x0, false, false, 0, false, 1, false, .none, false⟩,
  ⟨0x2810, 0x2810, 0x03, 0x03, .u32, .rw, [.op], 0x30D40, false, true, 0, false, 1, false, .none, false⟩,
  ⟨0x2810, 0x2810, 0x04, 0x04, .dom, .ro, [.op, .mgr, .brd], 0x0, false, false, 8, true, 1, false, .none, false⟩,
  ⟨0x2810, 0x2810, 0x05, 0x05, .dom, .ro, [.op, .mgr, .brd], 0x0, false, false, 8, true, 1, false, .none, false⟩,
  ⟨0x2810, 0x2810, 0x06, 0x06, .dom, .wo, [.mgr, .ten], 0x0, false, false, 1073741824, false, 1, false, .none, false⟩,
  ⟨0x2810, 0x2810, 0x07, 0x07, .u16, .wo, [.mgr, .ten], 0x0, false, false, 0, false, 1, false, .none, false⟩,
  ⟨0x2810, 0x2810, 0x08, 0x08, .dom, .ro, [.mgr, .ten], 0x0, false, false, 131072, false, 2, true, .none, false⟩,
  ⟨0x2820, 0x2820, 0x01, 0x01, .dom, .ro, [.op, .mgr, .brd], 0x0, false, false, 2, true, 1, false, .none, false⟩,
  ⟨0x2820, 0x2820, 0x02, 0x02, .dom, .ro, [.op, .mgr, .ten], 0x0, false, false, 8, true, 1, false, .none, false⟩,
  ⟨0x2820, 0x2820, 0x03, 0x03, .dom, .ro, [.op, .mgr, .ten], 0x0, false, false, 8, true, 1, false, .none, false⟩,
  ⟨0x2820, 0x2820, 0x04, 0x04, .u32, .rw, [.op], 0x4E20, false, true, 0, false, 1, false, .none, false⟩,
  ⟨0x2820, 0x2820, 0x05, 0x05, .u8, .rw, [.op], 0x3, false, true, 0, false, 1, false, .none, false⟩,
  ⟨0x2830, 0x2830, 0x01, 0x01, .dom, .wo, [.mgr, .ten], 0x0, false, false, 32, true, 1, false, .none, false⟩,
  ⟨0x2830, 0x2830, 0x02, 0x02, .dom, .ro, [.mgr, .ten], 0x0, false, false, 128, true, 1, false, .none, false⟩,
  ⟨0x2830, 0x2830, 0x03, 0x03, .dom, .ro, [.mgr, .ten], 0x0, false, false, 16384, false, 4, true, .none, false⟩,
  ⟨0x2830, 0x2830, 0x04, 0x04, .dom, .ro, [.op, .mgr, .ten], 0x0, false, false, 8192, true, 1, false, .none, false⟩,
  ⟨0x2830, 0x2830, 0x05, 0x05, .dom, .ro, [.op, .mgr, .ten], 0x0, false, false, 12, true, 1, false, .none, false⟩,
  ⟨0x2830, 0x2830, 0x06, 0x06, .u32, .rw, [.mgr, .op], 0x0, true, false, 0, false, 1, false, .none, false⟩,
  ⟨0x60B0, 0x60B0, 0x01, 0x01, .u64, .ro, [.op, .mgr, .brd], 0x0, false, false, 0, false, 1, false, .none, true⟩,
  ⟨0x60B0, 0x60B0, 0x02, 0x02, .u32, .ro, [.op, .mgr, .brd], 0x0, false, false, 0, false, 1, false, .none, true⟩,
  ⟨0x60B0, 0x60B0, 0x03, 0x03, .u32, .ro, [.op, .mgr, .brd], 0x0, false, false, 0, false, 1, false, .none, true⟩,
  ⟨0x60B0, 0x60B0, 0x04, 0x04, .u32, .ro, [.op, .mgr, .brd], 0x0, false, false, 0, false, 1, false, .none, true⟩,
  ⟨0x60B0, 0x60B0, 0x05, 0x05, .u32, .ro, [.op, .mgr, .brd], 0x0, false, false, 0, false, 1, false, .none, true⟩,
  ⟨0x60B0, 0x60B0, 0x06, 0x06, .u32, .ro, [.op, .mgr, .brd], 0x0, false, false, 0, false, 1, false, .none, true⟩,
  ⟨0x60B0, 0x60B0, 0x07, 0x07, .u32, .ro, [.op, .mgr, .brd], 0x0, false, false, 0, false, 1, false, .none, true⟩,
  ⟨0x60B0, 0x60B0, 0x08, 0x08, .u32, .ro, [.op, .mgr, .brd], 0x0, false, false, 0, false, 1, false, .none, true⟩,
  ⟨0x60B0, 0x60B0, 0x09, 0x09, .u32, .ro, [.op, .mgr, .brd], 0x0, false, false, 0, false, 1, false, .none, true⟩,
  ⟨0x60B0, 0x60B0, 0x0A, 0x0A, .u32, .ro, [.op, .mgr, .brd], 0x0, false, false, 0, false, 1, false, .none, true⟩,
  ⟨0x60B0, 0x60B0, 0x0B, 0x0B, .u32, .ro, [.op, .mgr, .brd], 0x0, false, false, 0, false, 1, false, .none, true⟩,
  ⟨0x60B0, 0x60B0, 0x0C, 0x0C, .u32, .ro, [.op, .mgr, .ten], 0x0, false, false, 0, false, 1, false, .none, true⟩,
  ⟨0x60B0, 0x60B0, 0x0D, 0x0D, .u32, .ro, [.op, .mgr, .ten], 0x0, false, false, 0, false, 1, false, .none, true⟩,
  ⟨0x60B0, 0x60B0, 0x0E, 0x0E, .u32, .ro, [.op, .mgr, .ten], 0x0, false, false, 0, false, 1, false, .none, true⟩,
  ⟨0x60B0, 0x60B0, 0x0F, 0x0F, .u64, .ro, [.op, .mgr, .ten], 0x0, false, false, 0, false, 1, false, .none, true⟩]

/-- Rows of the dictionary, part 7. -/
def catalogue7 : List ObjRow := [
  ⟨0x2A00, 0x2A00, 0x01, 0x01, .u8, .rw, [.mgr, .ten], 0x0, false, false, 0, false, 1, false, .none, false⟩,
  ⟨0x2A00, 0x2A00, 0x02, 0x02, .dom, .rw, [.mgr, .ten], 0x0, true, false, 2048, true, 1, false, .quota, false⟩,
  ⟨0x2A01, 0x2A01, 0x01, 0x01, .dom, .ro, [.op, .mgr, .ten], 0x0, false, false, 32, true, 1, false, .none, false⟩,
  ⟨0x2A01, 0x2A01, 0x02, 0x02, .dom, .ro, [.op, .mgr, .ten], 0x0, false, false, 32, true, 1, false, .none, false⟩,
  ⟨0x2A01, 0x2A01, 0x03, 0x03, .dom, .ro, [.op, .mgr, .ten], 0x0, false, false, 512, true, 1, false, .none, false⟩,
  ⟨0x2A01, 0x2A01, 0x04, 0x04, .u16, .ro, [.op, .mgr, .ten, .brd], 0x0, false, false, 0, false, 1, false, .none, false⟩,
  ⟨0x2A01, 0x2A01, 0x05, 0x05, .u16, .ro, [.op, .mgr, .ten], 0x0, false, false, 0, false, 1, false, .none, false⟩,
  ⟨0x60C0, 0x60C0, 0x01, 0x01, .u64, .ro, [.op, .mgr, .ten], 0x0, false, false, 0, false, 1, false, .none, true⟩,
  ⟨0x60C0, 0x60C0, 0x02, 0x02, .u64, .ro, [.op, .mgr, .ten], 0x0, false, false, 0, false, 1, false, .none, true⟩,
  ⟨0x60C0, 0x60C0, 0x03, 0x03, .u64, .ro, [.op, .mgr, .ten], 0x0, false, false, 0, false, 1, false, .none, true⟩,
  ⟨0x60C0, 0x60C0, 0x04, 0x04, .u32, .ro, [.op, .mgr, .ten], 0x0, false, false, 0, false, 1, false, .none, true⟩,
  ⟨0x60C0, 0x60C0, 0x05, 0x05, .u32, .ro, [.op, .mgr, .ten], 0x0, false, false, 0, false, 1, false, .none, true⟩,
  ⟨0x60C0, 0x60C0, 0x06, 0x06, .u32, .ro, [.op, .mgr, .ten], 0x0, false, false, 0, false, 1, false, .none, true⟩,
  ⟨0x60C0, 0x60C0, 0x07, 0x07, .u32, .ro, [.op, .mgr, .brd], 0x0, false, false, 0, false, 1, false, .none, true⟩,
  ⟨0x2200, 0x2200, 0x01, 0x01, .u8, .rw, [.op, .mgr, .ten], 0x0, false, false, 0, false, 1, false, .role, false⟩,
  ⟨0x2200, 0x2200, 0x02, 0x02, .dom, .rw, [.op], 0x0, false, false, 16, true, 1, false, .none, false⟩,
  ⟨0x2200, 0x2200, 0x03, 0x03, .u8, .ro, [.op, .mgr, .ten, .brd], 0xFF, false, false, 0, false, 1, false, .none, false⟩,
  ⟨0x2200, 0x2200, 0x04, 0x04, .u16, .rw, [.mgr, .op], 0x1, true, false, 0, false, 1, false, .none, false⟩,
  ⟨0x2201, 0x2201, 0x01, 0x01, .u64, .rw, [.mgr], 0x0, false, false, 0, false, 1, false, .none, false⟩,
  ⟨0x2201, 0x2201, 0x02, 0x02, .u8, .rw, [.mgr], 0xFF, false, false, 0, false, 1, false, .none, false⟩,
  ⟨0x2201, 0x2201, 0x03, 0x03, .u32, .rw, [.mgr], 0x30D40, false, false, 0, false, 1, false, .none, false⟩,
  ⟨0x2201, 0x2201, 0x04, 0x04, .u8, .wo, [.mgr], 0x0, false, false, 0, false, 1, false, .none, false⟩,
  ⟨0x2201, 0x2201, 0x05, 0x05, .u8, .ro, [.op, .mgr, .ten, .brd], 0x0, false, false, 0, false, 1, false, .none, false⟩,
  ⟨0x2201, 0x2201, 0x06, 0x06, .u64, .ro, [.op, .mgr, .ten, .brd], 0x0, false, false, 0, false, 1, false, .none, false⟩,
  ⟨0x2201, 0x2201, 0x07, 0x07, .dom, .ro, [.op, .mgr, .brd], 0x0, false, false, 12, true, 1, false, .none, false⟩,
  ⟨0x2210, 0x2210, 0x01, 0x01, .dom, .ro, [.op, .mgr, .ten], 0x0, false, false, 1024, true, 1, false, .none, false⟩,
  ⟨0x2220, 0x2220, 0x01, 0x01, .dom, .ro, [.op, .mgr, .ten], 0x0, false, false, 512, true, 1, false, .none, false⟩,
  ⟨0x50FF, 0x50FF, 0x02, 0x02, .dom, .ro, [.op, .mgr, .ten, .brd], 0x0, false, false, 64, true, 1, false, .none, false⟩,
  ⟨0x50FF, 0x50FF, 0x03, 0x03, .bool, .ro, [.op, .mgr, .ten, .brd], 0x0, false, false, 0, false, 1, false, .none, false⟩,
  ⟨0x60D0, 0x60D0, 0x01, 0x01, .u32, .ro, [.op, .mgr, .brd], 0x0, false, false, 0, false, 1, false, .none, true⟩,
  ⟨0x60D0, 0x60D0, 0x02, 0x02, .u32, .ro, [.op, .mgr, .brd], 0x0, false, false, 0, false, 1, false, .none, true⟩,
  ⟨0x60D0, 0x60D0, 0x03, 0x03, .u32, .ro, [.op, .mgr, .brd], 0x0, false, false, 0, false, 1, false, .none, true⟩,
  ⟨0x60D0, 0x60D0, 0x04, 0x04, .u32, .ro, [.op, .mgr, .brd], 0x0, false, false, 0, false, 1, false, .none, true⟩,
  ⟨0x2100, 0x2100, 0x01, 0x01, .u8, .rw, [.op], 0x0, false, true, 0, false, 1, false, .none, false⟩,
  ⟨0x2100, 0x2100, 0x02, 0x02, .u16, .rw, [.op], 0x0, false, true, 0, false, 1, false, .none, false⟩,
  ⟨0x2100, 0x2100, 0x03, 0x03, .u8, .ro, [.op, .mgr, .brd], 0x0, false, false, 0, false, 1, false, .none, false⟩,
  ⟨0x2100, 0x2100, 0x04, 0x04, .u16, .ro, [.op, .mgr, .brd], 0x0, false, false, 0, false, 1, false, .none, false⟩,
  ⟨0x2100, 0x2100, 0x05, 0x05, .u16, .ro, [.op, .mgr, .brd], 0x0, false, false, 0, false, 1, false, .none, false⟩,
  ⟨0x2100, 0x2100, 0x06, 0x06, .dom, .ro, [.op, .mgr], 0x0, false, false, 4096, false, 4, true, .none, false⟩,
  ⟨0x2100, 0x2100, 0x07, 0x07, .u32, .rw, [.mgr], 0x2710, false, false, 0, false, 1, false, .none, false⟩]

/-- Rows of the dictionary, part 8. -/
def catalogue8 : List ObjRow := [
  ⟨0x2100, 0x2100, 0x08, 0x08, .u32, .rw, [.mgr], 0x186A0, false, false, 0, false, 1, false, .none, false⟩,
  ⟨0x2100, 0x2100, 0x10, 0x10, .u8, .wo, [.mgr], 0x0, false, false, 0, false, 1, false, .none, false⟩,
  ⟨0x2100, 0x2100, 0x11, 0x11, .u64, .rw, [.mgr], 0x0, false, false, 0, false, 1, false, .none, false⟩,
  ⟨0x2100, 0x2100, 0x12, 0x12, .u8, .ro, [.op, .mgr, .ten, .brd], 0x0, false, false, 0, false, 1, false, .none, false⟩,
  ⟨0x2100, 0x2100, 0x13, 0x13, .u64, .rw, [.mgr], 0x0, false, false, 0, false, 1, false, .none, false⟩,
  ⟨0x2100, 0x2100, 0x14, 0x14, .dom, .rw, [.mgr], 0x0, true, false, 256, false, 4, true, .none, false⟩,
  ⟨0x2100, 0x2100, 0x15, 0x15, .dom, .rw, [.mgr], 0x0, true, false, 32, false, 8, true, .none, false⟩,
  ⟨0x2100, 0x2100, 0x16, 0x16, .dom, .ro, [.op, .mgr, .brd], 0x0, false, false, 1024, true, 1, false, .none, false⟩,
  ⟨0x2100, 0x2100, 0x17, 0x17, .u64, .wo, [.mgr], 0x0, false, false, 0, false, 1, false, .none, false⟩,
  ⟨0x60E0, 0x60E0, 0x01, 0x01, .u32, .ro, [.op, .mgr, .brd], 0x0, false, false, 0, false, 1, false, .none, true⟩,
  ⟨0x60E0, 0x60E0, 0x02, 0x02, .u32, .ro, [.op, .mgr, .brd], 0x0, false, false, 0, false, 1, false, .none, true⟩,
  ⟨0x60E0, 0x60E0, 0x03, 0x03, .u32, .ro, [.op, .mgr, .brd], 0x0, false, false, 0, false, 1, false, .none, true⟩,
  ⟨0x60E0, 0x60E0, 0x04, 0x04, .u32, .ro, [.op, .mgr, .brd], 0x0, false, false, 0, false, 1, false, .none, true⟩,
  ⟨0x60E0, 0x60E0, 0x05, 0x05, .u32, .ro, [.op, .mgr, .brd], 0x0, false, false, 0, false, 1, false, .none, true⟩,
  ⟨0x60E0, 0x60E0, 0x06, 0x06, .u32, .ro, [.op, .mgr, .brd], 0x0, false, false, 0, false, 1, false, .none, true⟩,
  ⟨0x1004, 0x1004, 0x01, 0x01, .u8, .ro, [.op, .mgr, .ten, .brd], 0x0, false, false, 0, false, 1, false, .none, false⟩,
  ⟨0x1020, 0x1020, 0x01, 0x01, .u8, .rw, [.op], 0xFF, false, false, 0, false, 1, false, .none, false⟩,
  ⟨0x1030, 0x1030, 0x01, 0x04, .u32, .ro, [.op, .mgr, .ten, .brd], 0x0, false, false, 0, false, 1, false, .none, false⟩,
  ⟨0x1100, 0x1100, 0x01, 0x01, .bool, .rw, [.op, .brd], 0x1, false, true, 0, false, 1, false, .none, false⟩,
  ⟨0x1100, 0x1100, 0x02, 0x02, .u8, .rw, [.op, .brd], 0xF, false, true, 0, false, 1, false, .none, false⟩,
  ⟨0x1100, 0x1100, 0x03, 0x03, .u32, .rw, [.op], 0x3B9ACA00, false, true, 0, false, 1, false, .none, false⟩,
  ⟨0x7000, 0x7000, 0x01, 0x01, .u32, .fixed, [.op, .mgr, .ten, .brd], 0x10000, false, false, 0, false, 1, false, .none, false⟩,
  ⟨0x7000, 0x7000, 0x02, 0x02, .u32, .fixed, [.op, .mgr, .ten, .brd], 0x10000, false, false, 0, false, 1, false, .none, false⟩,
  ⟨0x7000, 0x7000, 0x03, 0x03, .u16, .ro, [.op, .ten], 0x0, false, false, 0, false, 1, false, .none, false⟩,
  ⟨0x60F0, 0x60F0, 0x01, 0x01, .u32, .ro, [.op, .ten], 0x0, false, false, 0, false, 1, false, .none, true⟩,
  ⟨0x60F0, 0x60F0, 0x02, 0x02, .u32, .ro, [.op, .ten], 0x0, false, false, 0, false, 1, false, .none, true⟩,
  ⟨0x60F0, 0x60F0, 0x03, 0x03, .u32, .ro, [.op, .ten], 0x0, false, false, 0, false, 1, false, .none, true⟩,
  ⟨0x60F0, 0x60F0, 0x04, 0x04, .u32, .ro, [.op, .ten], 0x0, false, false, 0, false, 1, false, .none, true⟩,
  ⟨0x60F0, 0x60F0, 0x05, 0x05, .u32, .ro, [.op, .mgr, .brd], 0x0, false, false, 0, false, 1, false, .none, true⟩,
  ⟨0x60F0, 0x60F0, 0x06, 0x06, .u32, .ro, [.op, .mgr, .brd], 0x0, false, false, 0, false, 1, false, .none, true⟩,
  ⟨0x60F0, 0x60F0, 0x07, 0x07, .u32, .ro, [.op, .brd], 0x0, false, false, 0, false, 1, false, .none, true⟩,
  ⟨0x1000, 0x1000, 0x00, 0x00, .u16, .fixed, [.op, .mgr, .ten, .brd], 0x1, false, false, 0, false, 1, false, .none, false⟩,
  ⟨0x1001, 0x1001, 0x01, 0x01, .vstr, .fixed, [.op, .mgr, .ten, .brd], 0x0, false, false, 0, false, 1, false, .none, false⟩,
  ⟨0x1001, 0x1001, 0x02, 0x02, .vstr, .fixed, [.op, .mgr, .ten, .brd], 0x0, false, false, 0, false, 1, false, .none, false⟩,
  ⟨0x1001, 0x1001, 0x03, 0x03, .u16, .fixed, [.op, .mgr, .ten, .brd], 0x0, false, false, 0, false, 1, false, .none, false⟩,
  ⟨0x1001, 0x1001, 0x04, 0x04, .u64, .fixed, [.op, .mgr, .ten, .brd], 0x0, false, false, 0, false, 1, false, .none, false⟩,
  ⟨0x1001, 0x1001, 0x05, 0x05, .u8, .fixed, [.op, .mgr, .ten, .brd], 0x3, false, false, 0, false, 1, false, .none, false⟩,
  ⟨0x1002, 0x1002, 0x00, 0x00, .u8, .fixed, [.op, .mgr, .ten, .brd], 0x0, false, false, 0, false, 1, false, .none, false⟩,
  ⟨0x1003, 0x1003, 0x01, 0x01, .u64, .fixed, [.op, .mgr, .ten, .brd], 0x0, false, false, 0, false, 1, false, .none, false⟩,
  ⟨0x1003, 0x1003, 0x02, 0x02, .u64, .fixed, [.op, .mgr, .ten, .brd], 0x0, false, false, 0, false, 1, false, .none, false⟩]

/-- Rows of the dictionary, part 9. -/
def catalogue9 : List ObjRow := [
  ⟨0x1005, 0x1005, 0x01, 0x01, .dom, .ro, [.op, .mgr, .ten, .brd], 0x0, false, false, 16384, false, 1, false, .none, false⟩,
  ⟨0x1010, 0x1010, 0x01, 0x01, .u32, .wo, [.op], 0x0, false, false, 0, false, 1, false, .none, false⟩,
  ⟨0x1010, 0x1010, 0x02, 0x02, .u8, .ro, [.op, .brd], 0x0, false, false, 0, false, 1, false, .none, false⟩,
  ⟨0x1011, 0x1011, 0x01, 0x01, .u32, .wo, [.op], 0x0, false, false, 0, false, 1, false, .none, false⟩,
  ⟨0x1012, 0x1012, 0x01, 0x01, .u8, .ro, [.op, .brd], 0xFF, false, false, 0, false, 1, false, .none, false⟩,
  ⟨0x1012, 0x1012, 0x02, 0x02, .u32, .ro, [.op, .brd], 0x0, false, false, 0, false, 1, false, .none, false⟩,
  ⟨0x1012, 0x1012, 0x03, 0x03, .u32, .ro, [.op, .brd], 0x0, false, false, 0, false, 1, false, .none, false⟩,
  ⟨0x1012, 0x1012, 0x04, 0x04, .bool, .ro, [.op, .brd], 0x0, false, false, 0, false, 1, false, .none, false⟩,
  ⟨0x1012, 0x1012, 0x05, 0x05, .u32, .ro, [.op, .brd], 0x0, false, false, 0, false, 1, false, .none, false⟩,
  ⟨0x1012, 0x1012, 0x06, 0x06, .u32, .ro, [.op, .brd], 0x0, false, false, 0, false, 1, false, .none, false⟩,
  ⟨0x1014, 0x1014, 0x01, 0x01, .u8, .ro, [.op, .mgr, .brd], 0x0, false, false, 0, false, 1, false, .none, false⟩,
  ⟨0x1014, 0x1014, 0x02, 0x02, .u32, .ro, [.op, .brd], 0x0, false, false, 0, false, 1, false, .none, false⟩,
  ⟨0x1014, 0x1014, 0x03, 0x03, .u32, .ro, [.op, .brd], 0x0, false, false, 0, false, 1, false, .none, false⟩,
  ⟨0x1014, 0x1014, 0x04, 0x04, .u32, .ro, [.op, .mgr, .ten, .brd], 0x0, false, false, 0, false, 1, false, .none, false⟩,
  ⟨0x1014, 0x1014, 0x05, 0x05, .dom, .wo, [.op], 0x0, false, false, 268435456, false, 1, false, .none, false⟩,
  ⟨0x1014, 0x1014, 0x06, 0x06, .u8, .ro, [.op], 0x0, false, false, 0, false, 1, false, .none, false⟩,
  ⟨0x1400, 0x1400, 0x01, 0x01, .dom, .ro, [.op, .mgr, .ten, .brd], 0x0, false, false, 1312, true, 1, false, .none, false⟩,
  ⟨0x1400, 0x1400, 0x02, 0x02, .dom, .ro, [.op, .mgr, .ten, .brd], 0x0, false, false, 8192, false, 1, false, .none, false⟩,
  ⟨0x1400, 0x1400, 0x03, 0x03, .dom, .wo, [.op, .mgr, .ten], 0x0, false, false, 32, true, 1, false, .role, false⟩,
  ⟨0x1400, 0x1400, 0x04, 0x04, .dom, .ro, [.op, .mgr, .ten], 0x0, false, false, 16384, false, 1, false, .role, false⟩,
  ⟨0x1400, 0x1400, 0x05, 0x05, .u8, .ro, [.op, .mgr, .ten], 0x0, false, false, 0, false, 1, false, .role, false⟩,
  ⟨0x1400, 0x1400, 0x06, 0x06, .u16, .ro, [.op, .mgr, .brd], 0x0, false, false, 0, false, 1, false, .none, false⟩,
  ⟨0x1400, 0x1400, 0x07, 0x07, .u32, .ro, [.op, .mgr, .brd], 0x0, false, false, 0, false, 1, false, .none, true⟩,
  ⟨0x6100, 0x6100, 0x01, 0x01, .i32, .ro, [.op, .mgr, .brd], 0x0, false, false, 0, false, 1, false, .none, true⟩,
  ⟨0x6100, 0x6100, 0x02, 0x02, .u8, .ro, [.op, .mgr, .brd], 0x0, false, false, 0, false, 1, false, .none, true⟩,
  ⟨0x6100, 0x6100, 0x03, 0x03, .u32, .ro, [.op, .mgr, .brd], 0x0, false, false, 0, false, 1, false, .none, true⟩,
  ⟨0x6100, 0x6100, 0x04, 0x04, .u32, .ro, [.op, .mgr, .brd], 0x0, false, false, 0, false, 1, false, .none, true⟩,
  ⟨0x6100, 0x6100, 0x05, 0x05, .u32, .ro, [.op, .mgr, .brd], 0x0, false, false, 0, false, 1, false, .none, true⟩,
  ⟨0x6100, 0x6100, 0x06, 0x06, .u16, .ro, [.op, .mgr, .brd], 0x0, false, false, 0, false, 1, false, .none, true⟩,
  ⟨0x8000, 0x8000, 0x01, 0x01, .u8, .wo, [.op], 0x0, false, false, 0, false, 1, false, .none, false⟩,
  ⟨0x8000, 0x8000, 0x02, 0x02, .u32, .rw, [.op], 0x0, false, false, 0, false, 1, false, .none, false⟩,
  ⟨0x8000, 0x8000, 0x03, 0x03, .u8, .ro, [.op], 0x0, false, false, 0, false, 1, false, .none, false⟩,
  ⟨0x8000, 0x8000, 0x04, 0x04, .u32, .ro, [.op], 0x0, false, false, 0, false, 1, false, .none, false⟩,
  ⟨0x8001, 0x8001, 0x01, 0x01, .dom, .ro, [.op], 0x0, false, false, 2048, true, 1, false, .none, false⟩,
  ⟨0x8002, 0x8002, 0x01, 0x01, .dom, .ro, [.op], 0x0, false, false, 4320, true, 1, false, .none, false⟩,
  ⟨0x8003, 0x8003, 0x01, 0x01, .dom, .ro, [.op], 0x0, false, false, 64, true, 1, false, .none, false⟩,
  ⟨0x8004, 0x8004, 0x01, 0x01, .dom, .ro, [.op], 0x0, false, false, 256, true, 1, false, .none, false⟩]

/-- Every row of the dictionary (R398). -/
def catalogue : List ObjRow := catalogue0 ++ catalogue1 ++ catalogue2 ++ catalogue3 ++ catalogue4 ++ catalogue5 ++ catalogue6 ++ catalogue7 ++ catalogue8 ++ catalogue9

/-- 0x2000:00: BEAT_PERIOD, default 1,000 (R60). -/
def Reg.beatPeriod : Nat := objKey 0x2000 0x00

/-- 0x2001:01: COMBINE_END, default 20 (R60). -/
def Reg.combineEnd : Nat := objKey 0x2001 0x01

/-- 0x2001:02: ATTN_END, default 240 (R60). -/
def Reg.attnEnd : Nat := objKey 0x2001 0x02

/-- 0x2001:03: SCORE_END, default 300 (R60). -/
def Reg.scoreEnd : Nat := objKey 0x2001 0x03

/-- 0x2001:04: DISPATCH_START, default 250 (R60). -/
def Reg.dispatchStart : Nat := objKey 0x2001 0x04

/-- 0x2001:05: INTAKE_CLOSE, default 460 (R60). -/
def Reg.intakeClose : Nat := objKey 0x2001 0x05

/-- 0x2001:06: COMPUTE_END, default 670 (R60). -/
def Reg.computeEnd : Nat := objKey 0x2001 0x06

/-- 0x2001:07: RETURN_END, default 980 (R60). -/
def Reg.returnEnd : Nat := objKey 0x2001 0x07

/-- 0x2001:08: MAINT_START, default 980 (R60). -/
def Reg.maintStart : Nat := objKey 0x2001 0x08

/-- 0x2001:09: SAMPLE_END, default 700 (R60). -/
def Reg.sampleEnd : Nat := objKey 0x2001 0x09

/-- 0x2002:01: HALL_TIME, default — (R60). -/
def Reg.hallTime : Nat := objKey 0x2002 0x01

/-- 0x2002:02: HALL_TIME_SET, default — (R60). -/
def Reg.hallTimeSet : Nat := objKey 0x2002 0x02

/-- 0x2002:03: BEAT_NUMBER, default 0 (R60). -/
def Reg.beatNumber : Nat := objKey 0x2002 0x03

/-- 0x2003:01: TIME_STATE, default 0 (R60). -/
def Reg.timeState : Nat := objKey 0x2003 0x01

/-- 0x2003:02: TIME_BOUND, default — (R60). -/
def Reg.timeBound : Nat := objKey 0x2003 0x02

/-- 0x2003:03: EXCH_INTERVAL, default 100,000 (R60). -/
def Reg.exchInterval : Nat := objKey 0x2003 0x03

/-- 0x2003:04: REF_SELECT, default 0 (R60). -/
def Reg.refSelect : Nat := objKey 0x2003 0x04

/-- 0x2003:05: LAST_OFFSET, default 0 (R60). -/
def Reg.lastOffset : Nat := objKey 0x2003 0x05

/-- 0x2003:06: HOLDOVER_COUNT, default 0 (R60). -/
def Reg.holdoverCount : Nat := objKey 0x2003 0x06

/-- 0x2003:07: REF_MISSING, default 0 (R60). -/
def Reg.refMissing : Nat := objKey 0x2003 0x07

/-- 0x2004:01: ANCHOR_BEAT, default 0 (R60). -/
def Reg.anchorBeat : Nat := objKey 0x2004 0x01

/-- 0x2004:02: ANCHOR_TIME, default 0 (R60). -/
def Reg.anchorTime : Nat := objKey 0x2004 0x02

/-- 0x2010:01: COMMIT_CMD, default — (R60). -/
def Reg.commitCmd : Nat := objKey 0x2010 0x01

/-- 0x2010:02: COMMIT_BEAT, default 0 (R60). -/
def Reg.commitBeat : Nat := objKey 0x2010 0x02

/-- 0x2011:01: COMMIT_STATE, default 0 (R60). -/
def Reg.commitState : Nat := objKey 0x2011 0x01

/-- 0x2011:02: COMMIT_ABORT, default 0 (R60). -/
def Reg.commitAbort : Nat := objKey 0x2011 0x02

/-- 0x2011:03: LAST_APPLIED_BEAT, default 0 (R60). -/
def Reg.lastAppliedBeat : Nat := objKey 0x2011 0x03

/-- 0x2011:04: PENDING_BEAT, default 0 (R60). -/
def Reg.pendingBeat : Nat := objKey 0x2011 0x04

/-- 0x2011:05: STAGED_COUNT, default 0 (R60). -/
def Reg.stagedCount : Nat := objKey 0x2011 0x05

/-- 0x6020:08–0x6020:67: OVERRUN_COUNT, default 0 (R60); the argument is the sub-index. -/
def Reg.overrunCount (sub : Nat) : Nat := objKey 0x6020 sub

/-- 0x6021:01: LAST_OVERRUN_BEAT, default 0 (R60). -/
def Reg.lastOverrunBeat : Nat := objKey 0x6021 0x01

/-- 0x6021:02: OVERRUN_UNITS, default 0 (R60). -/
def Reg.overrunUnits : Nat := objKey 0x6021 0x02

/-- 0x6021:03: OVERRUN_TOTAL, default 0 (R60). -/
def Reg.overrunTotal : Nat := objKey 0x6021 0x03

/-- 0x6021:04: CUT_COUNT, default 0 (R60). -/
def Reg.cutCount : Nat := objKey 0x6021 0x04

/-- 0x3000:01: SAMPLE_SEED, default 0 (R84). -/
def Reg.sampleSeed : Nat := objKey 0x3000 0x01

/-- 0x3000:02: SAMPLE_TEMP, default 1.0 (R84). -/
def Reg.sampleTemp : Nat := objKey 0x3000 0x02

/-- 0x3000:03: SAMPLE_TOPK, default 64 (R84). -/
def Reg.sampleTopk : Nat := objKey 0x3000 0x03

/-- 0x3000:04: SAMPLE_TOPP, default 1.0 (R84). -/
def Reg.sampleTopp : Nat := objKey 0x3000 0x04

/-- 0x3000:05: VOCAB_SIZE, default 0 (R84). -/
def Reg.vocabSize : Nat := objKey 0x3000 0x05

/-- 0x3000:06: RENORM, default 0 (R84). -/
def Reg.renorm : Nat := objKey 0x3000 0x06

/-- 0x3000:07: VOCAB_BASE, default 0 (R84). -/
def Reg.vocabBase : Nat := objKey 0x3000 0x07

/-- 0x3000:08: VOCAB_LEN, default 0 (R84). -/
def Reg.vocabLen : Nat := objKey 0x3000 0x08

/-- 0x3000:09: VOCAB_SHARES, default 1 (R84). -/
def Reg.vocabShares : Nat := objKey 0x3000 0x09

/-- 0x3010:01: LAYER_SLOT_CFG, default zeros (R84). -/
def Reg.layerSlotCfg : Nat := objKey 0x3010 0x01

/-- 0x3010:02: GATE_SEL, default 0 (R84). -/
def Reg.gateSel : Nat := objKey 0x3010 0x02

/-- 0x3010:03: GATE_GROUP_W, default empty (R84). -/
def Reg.gateGroupW : Nat := objKey 0x3010 0x03

/-- 0x3010:04: GATE_EXPERT_W, default empty (R84). -/
def Reg.gateExpertW : Nat := objKey 0x3010 0x04

/-- 0x3010:05: GATE_GROUP_BIAS, default empty (R84). -/
def Reg.gateGroupBias : Nat := objKey 0x3010 0x05

/-- 0x3010:06: GATE_EXPERT_BIAS, default empty (R84). -/
def Reg.gateExpertBias : Nat := objKey 0x3010 0x06

/-- 0x3010:07: GATE_COPY_BUSY, default 0 (R84). -/
def Reg.gateCopyBusy : Nat := objKey 0x3010 0x07

/-- 0x3010:08: AREA_LIVE, default 0 (R84). -/
def Reg.areaLive : Nat := objKey 0x3010 0x08

/-- 0x3010:09: AREA_STAGED, default 0 (R84). -/
def Reg.areaStaged : Nat := objKey 0x3010 0x09

/-- 0x3010:0A: GATE_OWNER, default 0xFF (R84). -/
def Reg.gateOwner : Nat := objKey 0x3010 0x0A

/-- 0x6030:01: SCORED_TOKENS, default 0 (R84). -/
def Reg.scoredTokens : Nat := objKey 0x6030 0x01

/-- 0x6030:02: NAN_SCORES, default 0 (R84). -/
def Reg.nanScores : Nat := objKey 0x6030 0x02

/-- 0x6030:03: SHORT_LISTS, default 0 (R84). -/
def Reg.shortLists : Nat := objKey 0x6030 0x03

/-- 0x6030:04: INACTIVE_SLOT, default 0 (R84). -/
def Reg.inactiveSlot : Nat := objKey 0x6030 0x04

/-- 0x6030:05: KV_SELECTIONS, default 0 (R84). -/
def Reg.kvSelections : Nat := objKey 0x6030 0x05

/-- 0x6030:06: VOCAB_MERGES, default 0 (R84). -/
def Reg.vocabMerges : Nat := objKey 0x6030 0x06

/-- 0x6030:07: VOCAB_PARTIAL, default 0 (R84). -/
def Reg.vocabPartial : Nat := objKey 0x6030 0x07

/-- 0x6030:08: SCORER_BUSY, default 0 (R84). -/
def Reg.scorerBusy : Nat := objKey 0x6030 0x08

/-- 0x6030:09: VOCAB_EMPTY, default 0 (R84). -/
def Reg.vocabEmpty : Nat := objKey 0x6030 0x09

/-- 0x6030:0A: STAGE1_CLAMP, default 0 (R84). -/
def Reg.stage1Clamp : Nat := objKey 0x6030 0x0A

/-- 0x3020:01: MAP_SEL, default 0 (R114). -/
def Reg.mapSel : Nat := objKey 0x3020 0x01

/-- 0x3020:02: EXPERT_MAP, default empty (R114). -/
def Reg.expertMap : Nat := objKey 0x3020 0x02

/-- 0x3030:01: GRANT_SEL, default 0 (R114). -/
def Reg.grantSel : Nat := objKey 0x3030 0x01

/-- 0x3030:02: SEND_GRANTS, default empty (R114). -/
def Reg.sendGrants : Nat := objKey 0x3030 0x02

/-- 0x3030:03: RECV_GRANTS, default empty (R114). -/
def Reg.recvGrants : Nat := objKey 0x3030 0x03

/-- 0x3040:01: PLATFORM_TABLE, default zeros (R114). -/
def Reg.platformTable : Nat := objKey 0x3040 0x01

/-- 0x3040:02: HIDDEN_WIDTH, default 0 (R114). -/
def Reg.hiddenWidth : Nat := objKey 0x3040 0x02

/-- 0x7000:20: BATCH_CANCEL, default — (R114). -/
def Reg.batchCancel : Nat := objKey 0x7000 0x20

/-- 0x7000:21: CANCEL_LEAD, default 8 (R114). -/
def Reg.cancelLead : Nat := objKey 0x7000 0x21

/-- 0x7000:22: CANCEL_ACTIVE, default 0 (R114). -/
def Reg.cancelActive : Nat := objKey 0x7000 0x22

/-- 0x6010:01: DISPATCHED, default 0 (R115). -/
def Reg.dispatched : Nat := objKey 0x6010 0x01

/-- 0x6010:02: COMBINED, default 0 (R115). -/
def Reg.combined : Nat := objKey 0x6010 0x02

/-- 0x6010:03: DROPPED_CAPACITY, default 0 (R115). -/
def Reg.droppedCapacity : Nat := objKey 0x6010 0x03

/-- 0x6010:04: REFUSED_POOL, default 0 (R115). -/
def Reg.refusedPool : Nat := objKey 0x6010 0x04

/-- 0x6010:05: LATE_DISCARDED, default 0 (R115). -/
def Reg.lateDiscarded : Nat := objKey 0x6010 0x05

/-- 0x6010:06: CANCELLED_DISCARDED, default 0 (R115). -/
def Reg.cancelledDiscarded : Nat := objKey 0x6010 0x06

/-- 0x6010:07: LOST_FAULT, default 0 (R115). -/
def Reg.lostFault : Nat := objKey 0x6010 0x07

/-- 0x6010:08: OPEN_CHOICES, default 0 (R115). -/
def Reg.openChoices : Nat := objKey 0x6010 0x08

/-- 0x6011:01: CREDITS_GRANTED, default 0 (R115). -/
def Reg.creditsGranted : Nat := objKey 0x6011 0x01

/-- 0x6011:02: CREDITS_SPENT, default 0 (R115). -/
def Reg.creditsSpent : Nat := objKey 0x6011 0x02

/-- 0x6011:03: CREDITS_EXPIRED, default 0 (R115). -/
def Reg.creditsExpired : Nat := objKey 0x6011 0x03

/-- 0x6011:04: CHOICES_RECEIVED, default 0 (R115). -/
def Reg.choicesReceived : Nat := objKey 0x6011 0x04

/-- 0x6011:05: CHOICES_ACCEPTED, default 0 (R115). -/
def Reg.choicesAccepted : Nat := objKey 0x6011 0x05

/-- 0x6011:06: CREDITS_RETURNED, default 0 (R115). -/
def Reg.creditsReturned : Nat := objKey 0x6011 0x06

/-- 0x6011:07: CHOICES_EMITTED, default 0 (R115). -/
def Reg.choicesEmitted : Nat := objKey 0x6011 0x07

/-- 0x6011:08–0x6011:0D: REFUSE_CAUSE, default 0 (R115); the argument is the sub-index. -/
def Reg.refuseCause (sub : Nat) : Nat := objKey 0x6011 sub

/-- 0x6012:01: COMBINES, default 0 (R115). -/
def Reg.combines : Nat := objKey 0x6012 0x01

/-- 0x6012:02: PARTIAL_COMBINES, default 0 (R115). -/
def Reg.partialCombines : Nat := objKey 0x6012 0x02

/-- 0x6012:03: NO_EXPERT_TOKENS, default 0 (R115). -/
def Reg.noExpertTokens : Nat := objKey 0x6012 0x03

/-- 0x6012:04: MANIFEST_LATE, default 0 (R115). -/
def Reg.manifestLate : Nat := objKey 0x6012 0x04

/-- 0x6012:05: ORPHANS, default 0 (R115). -/
def Reg.orphans : Nat := objKey 0x6012 0x05

/-- 0x6012:06: SIDING_PACKETS, default 0 (R115). -/
def Reg.sidingPackets : Nat := objKey 0x6012 0x06

/-- 0x6012:07: SIDING_CELLS, default 0 (R115). -/
def Reg.sidingCells : Nat := objKey 0x6012 0x07

/-- 0x6012:08: CANCEL_LATE, default 0 (R115). -/
def Reg.cancelLate : Nat := objKey 0x6012 0x08

/-- 0x6012:09: LOST_TOKENS, default 0 (R115). -/
def Reg.lostTokens : Nat := objKey 0x6012 0x09

/-- 0x3000:0A: KV_BLOCK_BYTES, default 16,384 (R131). -/
def Reg.kvBlockBytes : Nat := objKey 0x3000 0x0A

/-- 0x3000:0B: KV_READ_LIMIT, default 1,048,576 (R131). -/
def Reg.kvReadLimit : Nat := objKey 0x3000 0x0B

/-- 0x3040:03: PLATFORM_RES, default zeros (R131). -/
def Reg.platformRes : Nat := objKey 0x3040 0x03

/-- 0x3040:04: IMAGE_STATE, default zeros (R131). -/
def Reg.imageState : Nat := objKey 0x3040 0x04

/-- 0x3040:05: IMAGE_LOAD, default — (R131). -/
def Reg.imageLoad : Nat := objKey 0x3040 0x05

/-- 0x3100:01: PRED_CFG, default zeros (R131). -/
def Reg.predCfg : Nat := objKey 0x3100 0x01

/-- 0x3100:02: PRED_SEL, default 0 (R131). -/
def Reg.predSel : Nat := objKey 0x3100 0x02

/-- 0x3100:03: PRED_SHARED, default empty (R131). -/
def Reg.predShared : Nat := objKey 0x3100 0x03

/-- 0x3100:04: PRED_GRANULE, default 32 (R131). -/
def Reg.predGranule : Nat := objKey 0x3100 0x04

/-- 0x6500:06: AUDIT_LIMIT, default 16 (R131). -/
def Reg.auditLimit : Nat := objKey 0x6500 0x06

/-- 0x6500:07: AUDIT_ALARM, default 0 (R131). -/
def Reg.auditAlarm : Nat := objKey 0x6500 0x07

/-- 0x6040:01: SEGMENTS_SEALED, default 0 (R132). -/
def Reg.segmentsSealed : Nat := objKey 0x6040 0x01

/-- 0x6040:02: SEAL_WAIT_NS, default 0 (R132). -/
def Reg.sealWaitNs : Nat := objKey 0x6040 0x02

/-- 0x6040:03: PLATFORMS_SKIPPED, default 0 (R132). -/
def Reg.platformsSkipped : Nat := objKey 0x6040 0x03

/-- 0x6040:04: KV_BYTES_READ, default 0 (R132). -/
def Reg.kvBytesRead : Nat := objKey 0x6040 0x04

/-- 0x6040:05: LOAD_FAILS, default 0 (R132). -/
def Reg.loadFails : Nat := objKey 0x6040 0x05

/-- 0x6040:06: VE_BUSY, default 0 (R132). -/
def Reg.veBusy : Nat := objKey 0x6040 0x06

/-- 0x6040:07: MV_BUSY, default 0 (R132). -/
def Reg.mvBusy : Nat := objKey 0x6040 0x07

/-- 0x6500:01: PRED_TOKENS, default 0 (R132). -/
def Reg.predTokens : Nat := objKey 0x6500 0x01

/-- 0x6500:02: PRED_EMPTY, default 0 (R132). -/
def Reg.predEmpty : Nat := objKey 0x6500 0x02

/-- 0x6500:03: AUDITED, default 0 (R132). -/
def Reg.audited : Nat := objKey 0x6500 0x03

/-- 0x6500:04: AUDIT_MISSES, default 0 (R132). -/
def Reg.auditMisses : Nat := objKey 0x6500 0x04

/-- 0x6500:05: AUDITS_ABANDONED, default 0 (R132). -/
def Reg.auditsAbandoned : Nat := objKey 0x6500 0x05

/-- 0x6500:08: AUDIT_ALARMS, default 0 (R132). -/
def Reg.auditAlarms : Nat := objKey 0x6500 0x08

/-- 0x5000:01: NUMERIC_REV, default 1 (R154). -/
def Reg.numericRev : Nat := objKey 0x5000 0x01

/-- 0x5000:02: READOUT_SUBNORM, default 0 (R154). -/
def Reg.readoutSubnorm : Nat := objKey 0x5000 0x02

/-- 0x5000:03: SAT_READOUT, default 0 (R154). -/
def Reg.satReadout : Nat := objKey 0x5000 0x03

/-- 0x5000:04: BASE_MIN, default −128 (R154). -/
def Reg.baseMin : Nat := objKey 0x5000 0x04

/-- 0x5000:05: BASE_MAX, default 88 (R154). -/
def Reg.baseMax : Nat := objKey 0x5000 0x05

/-- 0x5000:06: ACC_BITS, default 80 (R154). -/
def Reg.accBits : Nat := objKey 0x5000 0x06

/-- 0x5000:07: ACC_POINT, default 40 (R154). -/
def Reg.accPoint : Nat := objKey 0x5000 0x07

/-- 0x50FF:01: REPRO_KEY, default — (R154). -/
def Reg.reproKey : Nat := objKey 0x50FF 0x01

/-- 0x6050:01: ACC_SAT, default 0 (R155). -/
def Reg.accSat : Nat := objKey 0x6050 0x01

/-- 0x6050:02: ACC_INEXACT, default 0 (R155). -/
def Reg.accInexact : Nat := objKey 0x6050 0x02

/-- 0x6050:03: ACC_NAN, default 0 (R155). -/
def Reg.accNan : Nat := objKey 0x6050 0x03

/-- 0x6050:04: SAT_COLUMNS, default 0 (R155). -/
def Reg.satColumns : Nat := objKey 0x6050 0x04

/-- 0x6050:05: BAD_CODE, default 0 (R155). -/
def Reg.badCode : Nat := objKey 0x6050 0x05

/-- 0x6050:06: SWAP_WAIT, default 0 (R155). -/
def Reg.swapWait : Nat := objKey 0x6050 0x06

/-- 0x6050:07: AE_BUSY, default 0 (R155). -/
def Reg.aeBusy : Nat := objKey 0x6050 0x07

/-- 0x6400:01: CLIP_WINDOW, default 1 (R172). -/
def Reg.clipWindow : Nat := objKey 0x6400 0x01

/-- 0x6400:02: CLIP_THRESH, default 65,536 per slot (R172). -/
def Reg.clipThresh : Nat := objKey 0x6400 0x02

/-- 0x6400:03: CLIP_SHARE, default zeros (R172). -/
def Reg.clipShare : Nat := objKey 0x6400 0x03

/-- 0x6400:04: CLIP_FLAGS, default zeros (R172). -/
def Reg.clipFlags : Nat := objKey 0x6400 0x04

/-- 0x6400:05: CLIP_EVENTS, default 0 (R172). -/
def Reg.clipEvents : Nat := objKey 0x6400 0x05

/-- 0x6400:06: QUANT_ELEMS, default 0 (R172). -/
def Reg.quantElems : Nat := objKey 0x6400 0x06

/-- 0x6400:07: CLIPPED_ELEMS, default 0 (R172). -/
def Reg.clippedElems : Nat := objKey 0x6400 0x07

/-- 0x6400:08: DEQ_SAT, default 0 (R172). -/
def Reg.deqSat : Nat := objKey 0x6400 0x08

/-- 0x6400:09: QNAN_BLOCKS, default 0 (R172). -/
def Reg.qnanBlocks : Nat := objKey 0x6400 0x09

/-- 0x6400:0A: TT_BUSY, default 0 (R172). -/
def Reg.ttBusy : Nat := objKey 0x6400 0x0A

/-- 0x6060:01: SE_BUSY, default 0 (R185). -/
def Reg.seBusy : Nat := objKey 0x6060 0x01

/-- 0x6060:02: SE_NNZ, default 0 (R185). -/
def Reg.seNnz : Nat := objKey 0x6060 0x02

/-- 0x6060:03: SE_LANE_IDLE, default 0 (R185). -/
def Reg.seLaneIdle : Nat := objKey 0x6060 0x03

/-- 0x6060:04: SE_BAD_TILE, default 0 (R185). -/
def Reg.seBadTile : Nat := objKey 0x6060 0x04

/-- 0x6060:05: SE_ACC_WAIT, default 0 (R185). -/
def Reg.seAccWait : Nat := objKey 0x6060 0x05

/-- 0x6060:06: SE_PORT_WAIT, default 0 (R185). -/
def Reg.sePortWait : Nat := objKey 0x6060 0x06

/-- 0x4000+c:01: BANK0, default empty (R209). -/
def Reg.bank0 (unit : Nat) : Nat := objKey (0x4000 + unit) 0x01

/-- 0x4000+c:02: BANK1, default empty (R209). -/
def Reg.bank1 (unit : Nat) : Nat := objKey (0x4000 + unit) 0x02

/-- 0x4000+c:03: BANK_SELECT, default 0 (R209). -/
def Reg.bankSelect (unit : Nat) : Nat := objKey (0x4000 + unit) 0x03

/-- 0x4000+c:04: MODE, default 0 (R209). -/
def Reg.mode (unit : Nat) : Nat := objKey (0x4000 + unit) 0x04

/-- 0x4000+c:05: BANK0_DIGEST, default zeros (R209). -/
def Reg.bank0Digest (unit : Nat) : Nat := objKey (0x4000 + unit) 0x05

/-- 0x4000+c:06: BANK1_DIGEST, default zeros (R209). -/
def Reg.bank1Digest (unit : Nat) : Nat := objKey (0x4000 + unit) 0x06

/-- 0x4000+c:07: LOAD_ABORT, default 0 (R209). -/
def Reg.loadAbort (unit : Nat) : Nat := objKey (0x4000 + unit) 0x07

/-- 0x4000+c:08: SEG_TEMPLATES, default empty (R209). -/
def Reg.segTemplates (unit : Nat) : Nat := objKey (0x4000 + unit) 0x08

/-- 0x4080:01: BANK_STATUS, default zeros (R209). -/
def Reg.bankStatus : Nat := objKey 0x4080 0x01

/-- 0x6070:01: BANK_SWITCHES, default 0 (R211). -/
def Reg.bankSwitches : Nat := objKey 0x6070 0x01

/-- 0x6070:02: SEG_REFUSED, default 0 (R211). -/
def Reg.segRefused : Nat := objKey 0x6070 0x02

/-- 0x6070:03: INVOCATIONS, default 0 (R211). -/
def Reg.invocations : Nat := objKey 0x6070 0x03

/-- 0x6070:04: REPEAT_CLAMP, default 0 (R211). -/
def Reg.repeatClamp : Nat := objKey 0x6070 0x04

/-- 0x6070:05: GATE_SKIPS, default 0 (R211). -/
def Reg.gateSkips : Nat := objKey 0x6070 0x05

/-- 0x6070:06: SEQ_STALL, default 0 (R211). -/
def Reg.seqStall : Nat := objKey 0x6070 0x06

/-- 0x6070:07: HOLD_CYCLES, default 0 (R211). -/
def Reg.holdCycles : Nat := objKey 0x6070 0x07

/-- 0x6070:08: SIG_EXCESS, default 0 (R211). -/
def Reg.sigExcess : Nat := objKey 0x6070 0x08

/-- 0x6070:09: SIG_CONFLICT, default 0 (R211). -/
def Reg.sigConflict : Nat := objKey 0x6070 0x09

/-- 0x2300+p:01: PORT_CFG, default EN 1, ROLE by R222, RETRY_LIMIT 16 (R247). -/
def Reg.portCfg (unit : Nat) : Nat := objKey (0x2300 + unit) 0x01

/-- 0x2300+p:02: PORT_STATE, default 0 (R247). -/
def Reg.portState (unit : Nat) : Nat := objKey (0x2300 + unit) 0x02

/-- 0x2300+p:03: PEER, default 0 (R247). -/
def Reg.peer (unit : Nat) : Nat := objKey (0x2300 + unit) 0x03

/-- 0x2300+p:04: LANE_STATE, default 0x00FF (R247). -/
def Reg.laneState (unit : Nat) : Nat := objKey (0x2300 + unit) 0x04

/-- 0x2300+p:05: ASYM_CORR, default 0 (R247). -/
def Reg.asymCorr (unit : Nat) : Nat := objKey (0x2300 + unit) 0x05

/-- 0x2300+p:06: LINK_DELAY, default 0 (R247). -/
def Reg.linkDelay (unit : Nat) : Nat := objKey (0x2300 + unit) 0x06

/-- 0x2300+p:10: TX_FLITS, default 0 (R247). -/
def Reg.txFlits (unit : Nat) : Nat := objKey (0x2300 + unit) 0x10

/-- 0x2300+p:11: RX_FLITS, default 0 (R247). -/
def Reg.rxFlits (unit : Nat) : Nat := objKey (0x2300 + unit) 0x11

/-- 0x2300+p:12: FEC_CORRECTED, default 0 (R247). -/
def Reg.fecCorrected (unit : Nat) : Nat := objKey (0x2300 + unit) 0x12

/-- 0x2300+p:13: FEC_UNCORR, default 0 (R247). -/
def Reg.fecUncorr (unit : Nat) : Nat := objKey (0x2300 + unit) 0x13

/-- 0x2300+p:14: CRC_FAILS, default 0 (R247). -/
def Reg.crcFails (unit : Nat) : Nat := objKey (0x2300 + unit) 0x14

/-- 0x2300+p:15: RETRIES, default 0 (R247). -/
def Reg.retries (unit : Nat) : Nat := objKey (0x2300 + unit) 0x15

/-- 0x2300+p:16: LANE_REMAPS, default 0 (R247). -/
def Reg.laneRemaps (unit : Nat) : Nat := objKey (0x2300 + unit) 0x16

/-- 0x2300+p:17: PORT_FAILS, default 0 (R247). -/
def Reg.portFails (unit : Nat) : Nat := objKey (0x2300 + unit) 0x17

/-- 0x2400:01: RANK_TABLE, default empty (R248). -/
def Reg.rankTable : Nat := objKey 0x2400 0x01

/-- 0x2400:02: RANK_COUNT, default 0 (R248). -/
def Reg.rankCount : Nat := objKey 0x2400 0x02

/-- 0x2400:03: MY_RANK, default 0 (R248). -/
def Reg.myRank : Nat := objKey 0x2400 0x03

/-- 0x2400:04: JOB_ID, default 0 (R248). -/
def Reg.jobId : Nat := objKey 0x2400 0x04

/-- 0x2400:05: LOCATION, default 0 (R248). -/
def Reg.location : Nat := objKey 0x2400 0x05

/-- 0x2400:06: LOCATION_ACTIVE, default — (R248). -/
def Reg.locationActive : Nat := objKey 0x2400 0x06

/-- 0x2401:01: ROUTE_TABLE, default zeros (R248). -/
def Reg.routeTable : Nat := objKey 0x2401 0x01

/-- 0x2401:02: ROUTE_COMMITS, default 0 (R248). -/
def Reg.routeCommits : Nat := objKey 0x2401 0x02

/-- 0x2402:01: DRAIN_JOB, default 0 (R248). -/
def Reg.drainJob : Nat := objKey 0x2402 0x01

/-- 0x2402:02: DRAIN_CLASSES, default 0 (R248). -/
def Reg.drainClasses : Nat := objKey 0x2402 0x02

/-- 0x2402:03: DRAIN_PORTS, default 0 (R248). -/
def Reg.drainPorts : Nat := objKey 0x2402 0x03

/-- 0x2402:04: DRAIN_CMD, default — (R248). -/
def Reg.drainCmd : Nat := objKey 0x2402 0x04

/-- 0x2402:05: DRAIN_STATE, default 0 (R248). -/
def Reg.drainState : Nat := objKey 0x2402 0x05

/-- 0x2402:06: DRAIN_TIMEOUT, default 2,000,000 (R248). -/
def Reg.drainTimeout : Nat := objKey 0x2402 0x06

/-- 0x2500:01: MCAST_SEL, default 0 (R248). -/
def Reg.mcastSel : Nat := objKey 0x2500 0x01

/-- 0x2500:02: MCAST_GROUP, default zeros (R248). -/
def Reg.mcastGroup : Nat := objKey 0x2500 0x02

/-- 0x6080:01: UNDELIVERABLE, default 0 (R249). -/
def Reg.undeliverable : Nat := objKey 0x6080 0x01

/-- 0x6080:02: ALT_USED, default 0 (R249). -/
def Reg.altUsed : Nat := objKey 0x6080 0x02

/-- 0x6080:03: BAD_RANK, default 0 (R249). -/
def Reg.badRank : Nat := objKey 0x6080 0x03

/-- 0x6080:04: MCAST_SENT, default 0 (R249). -/
def Reg.mcastSent : Nat := objKey 0x6080 0x04

/-- 0x6080:05: MCAST_ZERO, default 0 (R249). -/
def Reg.mcastZero : Nat := objKey 0x6080 0x05

/-- 0x6080:06: MCAST_BAD_MASK, default 0 (R249). -/
def Reg.mcastBadMask : Nat := objKey 0x6080 0x06

/-- 0x6080:07: MCAST_REFUSED, default 0 (R249). -/
def Reg.mcastRefused : Nat := objKey 0x6080 0x07

/-- 0x6080:08: TRANSIT_FLITS, default 0 (R249). -/
def Reg.transitFlits : Nat := objKey 0x6080 0x08

/-- 0x6080:09: FOREIGN_DISCARD, default 0 (R249). -/
def Reg.foreignDiscard : Nat := objKey 0x6080 0x09

/-- 0x6080:0A: DRAIN_TIMEOUTS, default 0 (R249). -/
def Reg.drainTimeouts : Nat := objKey 0x6080 0x0A

/-- 0x2840:01: RM_XLATE, default empty (R269). -/
def Reg.rmXlate : Nat := objKey 0x2840 0x01

/-- 0x2840:02: RM_XLATE_COUNT, default 0 (R269). -/
def Reg.rmXlateCount : Nat := objKey 0x2840 0x02

/-- 0x2840:03: RM_TIMEOUT, default 100,000 (R269). -/
def Reg.rmTimeout : Nat := objKey 0x2840 0x03

/-- 0x2840:04: RM_COMBINE, default 0x03 (R269). -/
def Reg.rmCombine : Nat := objKey 0x2840 0x04

/-- 0x2840:05: RM_RECALL, default — (R269). -/
def Reg.rmRecall : Nat := objKey 0x2840 0x05

/-- 0x2840:06: RECALL_STATE, default 0 (R269). -/
def Reg.recallState : Nat := objKey 0x2840 0x06

/-- 0x2840:07: RM_FAULT_LOG, default zeros (R269). -/
def Reg.rmFaultLog : Nat := objKey 0x2840 0x07

/-- 0x2840:08: RM_HOME_SHARE, default 16 (R269). -/
def Reg.rmHomeShare : Nat := objKey 0x2840 0x08

/-- 0x6090:01: RM_REQUESTS, default 0 (R270). -/
def Reg.rmRequests : Nat := objKey 0x6090 0x01

/-- 0x6090:02: RM_READ_KIB, default 0 (R270). -/
def Reg.rmReadKib : Nat := objKey 0x6090 0x02

/-- 0x6090:03: RM_WRITE_KIB, default 0 (R270). -/
def Reg.rmWriteKib : Nat := objKey 0x6090 0x03

/-- 0x6090:04: RM_SERVED, default 0 (R270). -/
def Reg.rmServed : Nat := objKey 0x6090 0x04

/-- 0x6090:05: RM_NAK_SENT, default 0 (R270). -/
def Reg.rmNakSent : Nat := objKey 0x6090 0x05

/-- 0x6090:06: RM_ERRORS, default 0 (R270). -/
def Reg.rmErrors : Nat := objKey 0x6090 0x06

/-- 0x6090:07: RM_LATE_RESP, default 0 (R270). -/
def Reg.rmLateResp : Nat := objKey 0x6090 0x07

/-- 0x6090:08: RM_COMBINED, default 0 (R270). -/
def Reg.rmCombined : Nat := objKey 0x6090 0x08

/-- 0x6090:09: RM_COMBINE_FULL, default 0 (R270). -/
def Reg.rmCombineFull : Nat := objKey 0x6090 0x09

/-- 0x6090:0A: RM_INVALIDATIONS, default 0 (R270). -/
def Reg.rmInvalidations : Nat := objKey 0x6090 0x0A

/-- 0x2600:01: COLL_SEL, default 0 (R283). -/
def Reg.collSel : Nat := objKey 0x2600 0x01

/-- 0x2600:02: COLL_GROUP, default empty (R283). -/
def Reg.collGroup : Nat := objKey 0x2600 0x02

/-- 0x2600:03: COLL_START, default — (R283). -/
def Reg.collStart : Nat := objKey 0x2600 0x03

/-- 0x2600:04: COLL_STATUS, default zeros (R283). -/
def Reg.collStatus : Nat := objKey 0x2600 0x04

/-- 0x2600:05: COLL_TIMEOUT, default 10,000,000 (R283). -/
def Reg.collTimeout : Nat := objKey 0x2600 0x05

/-- 0x60A0:01: COLL_STARTED, default 0 (R284). -/
def Reg.collStarted : Nat := objKey 0x60A0 0x01

/-- 0x60A0:02: COLL_DONE, default 0 (R284). -/
def Reg.collDone : Nat := objKey 0x60A0 0x02

/-- 0x60A0:03: COLL_FAILED, default 0 (R284). -/
def Reg.collFailed : Nat := objKey 0x60A0 0x03

/-- 0x60A0:04: COLL_CHUNKS_SENT, default 0 (R284). -/
def Reg.collChunksSent : Nat := objKey 0x60A0 0x04

/-- 0x60A0:05: COLL_CRC_FAILS, default 0 (R284). -/
def Reg.collCrcFails : Nat := objKey 0x60A0 0x05

/-- 0x60A0:06: COLL_RESENDS, default 0 (R284). -/
def Reg.collResends : Nat := objKey 0x60A0 0x06

/-- 0x60A0:07: COLL_KIB, default 0 (R284). -/
def Reg.collKib : Nat := objKey 0x60A0 0x07

/-- 0x60A0:08: ADD_INTO_CHUNKS, default 0 (R284). -/
def Reg.addIntoChunks : Nat := objKey 0x60A0 0x08

/-- 0x2800:01: FAST_FRAMES, default 196,608 (R316). -/
def Reg.fastFrames : Nat := objKey 0x2800 0x01

/-- 0x2800:02: FAST_FREE, default — (R316). -/
def Reg.fastFree : Nat := objKey 0x2800 0x02

/-- 0x2800:03: FAST_RESERVED, default 512 (R316). -/
def Reg.fastReserved : Nat := objKey 0x2800 0x03

/-- 0x2800:04: CC_SOFT_BYTES, default 262,144 (R316). -/
def Reg.ccSoftBytes : Nat := objKey 0x2800 0x04

/-- 0x2810:01: SLOW_EXTENTS, default 4,194,304 (R316). -/
def Reg.slowExtents : Nat := objKey 0x2810 0x01

/-- 0x2810:02: SLOW_FREE, default — (R316). -/
def Reg.slowFree : Nat := objKey 0x2810 0x02

/-- 0x2810:03: READ_RELOCATE, default 200,000 (R316). -/
def Reg.readRelocate : Nat := objKey 0x2810 0x03

/-- 0x2810:04: FLASH_WEAR, default zeros (R316). -/
def Reg.flashWear : Nat := objKey 0x2810 0x04

/-- 0x2810:05: FLASH_WEAR_MAX, default zeros (R316). -/
def Reg.flashWearMax : Nat := objKey 0x2810 0x05

/-- 0x2810:06: IMAGE_STORE, default — (R316). -/
def Reg.imageStore : Nat := objKey 0x2810 0x06

/-- 0x2810:07: IMAGE_DELETE, default — (R316). -/
def Reg.imageDelete : Nat := objKey 0x2810 0x07

/-- 0x2810:08: IMAGE_LIST, default empty (R316). -/
def Reg.imageList : Nat := objKey 0x2810 0x08

/-- 0x2820:01: CXL_STATE, default zeros (R316). -/
def Reg.cxlState : Nat := objKey 0x2820 0x01

/-- 0x2820:02: CXL_EXTENTS, default zeros (R316). -/
def Reg.cxlExtents : Nat := objKey 0x2820 0x02

/-- 0x2820:03: CXL_FREE, default zeros (R316). -/
def Reg.cxlFree : Nat := objKey 0x2820 0x03

/-- 0x2820:04: CXL_TIMEOUT, default 20,000 (R316). -/
def Reg.cxlTimeout : Nat := objKey 0x2820 0x04

/-- 0x2820:05: CXL_EN, default 0x03 (R316). -/
def Reg.cxlEn : Nat := objKey 0x2820 0x05

/-- 0x2830:01: HOME_CMD, default — (R316). -/
def Reg.homeCmd : Nat := objKey 0x2830 0x01

/-- 0x2830:02: HOME_STATUS, default zeros (R316). -/
def Reg.homeStatus : Nat := objKey 0x2830 0x02

/-- 0x2830:03: HOME_RESULT, default empty (R316). -/
def Reg.homeResult : Nat := objKey 0x2830 0x03

/-- 0x2830:04: HOME_LOG, default zeros (R316). -/
def Reg.homeLog : Nat := objKey 0x2830 0x04

/-- 0x2830:05: HOME_USE, default zeros (R316). -/
def Reg.homeUse : Nat := objKey 0x2830 0x05

/-- 0x2830:06: KV_FRAME_LIMIT, default 0 (R316). -/
def Reg.kvFrameLimit : Nat := objKey 0x2830 0x06

/-- 0x60B0:01: HBM_CE, default 0 (R317). -/
def Reg.hbmCe : Nat := objKey 0x60B0 0x01

/-- 0x60B0:02: HBM_UE, default 0 (R317). -/
def Reg.hbmUe : Nat := objKey 0x60B0 0x02

/-- 0x60B0:03: HBM_POISONED, default 0 (R317). -/
def Reg.hbmPoisoned : Nat := objKey 0x60B0 0x03

/-- 0x60B0:04: PATROL_PASSES, default 0 (R317). -/
def Reg.patrolPasses : Nat := objKey 0x60B0 0x04

/-- 0x60B0:05: SRAM_CE, default 0 (R317). -/
def Reg.sramCe : Nat := objKey 0x60B0 0x05

/-- 0x60B0:06: SRAM_UE, default 0 (R317). -/
def Reg.sramUe : Nat := objKey 0x60B0 0x06

/-- 0x60B0:07: FLASH_UE, default 0 (R317). -/
def Reg.flashUe : Nat := objKey 0x60B0 0x07

/-- 0x60B0:08: FLASH_RELOC, default 0 (R317). -/
def Reg.flashReloc : Nat := objKey 0x60B0 0x08

/-- 0x60B0:09: FLASH_FORCED, default 0 (R317). -/
def Reg.flashForced : Nat := objKey 0x60B0 0x09

/-- 0x60B0:0A: CXL_TIMEOUTS, default 0 (R317). -/
def Reg.cxlTimeouts : Nat := objKey 0x60B0 0x0A

/-- 0x60B0:0B: CXL_POISON, default 0 (R317). -/
def Reg.cxlPoison : Nat := objKey 0x60B0 0x0B

/-- 0x60B0:0C: MOVES_DONE, default 0 (R317). -/
def Reg.movesDone : Nat := objKey 0x60B0 0x0C

/-- 0x60B0:0D: MOVES_FAILED, default 0 (R317). -/
def Reg.movesFailed : Nat := objKey 0x60B0 0x0D

/-- 0x60B0:0E: REQ_ENDS, default 0 (R317). -/
def Reg.reqEnds : Nat := objKey 0x60B0 0x0E

/-- 0x60B0:0F: CC_ATOMICS, default 0 (R317). -/
def Reg.ccAtomics : Nat := objKey 0x60B0 0x0F

/-- 0x2A00:01: QUOTA_SEL, default 0 (R330). -/
def Reg.quotaSel : Nat := objKey 0x2A00 0x01

/-- 0x2A00:02: QUOTA_TABLE, default zeros (R330). -/
def Reg.quotaTable : Nat := objKey 0x2A00 0x02

/-- 0x2A01:01: POOL_FREE, default 16,384 each (R330). -/
def Reg.poolFree : Nat := objKey 0x2A01 0x01

/-- 0x2A01:02: POOL_LOW, default 16,384 each (R330). -/
def Reg.poolLow : Nat := objKey 0x2A01 0x02

/-- 0x2A01:03: QUOTA_HELD, default zeros (R330). -/
def Reg.quotaHeld : Nat := objKey 0x2A01 0x03

/-- 0x2A01:04: POOL_BROKEN, default 0 (R330). -/
def Reg.poolBroken : Nat := objKey 0x2A01 0x04

/-- 0x2A01:05: MARKS_USED, default 0 (R330). -/
def Reg.marksUsed : Nat := objKey 0x2A01 0x05

/-- 0x60C0:01: CHAINS_ALLOCATED, default 0 (R331). -/
def Reg.chainsAllocated : Nat := objKey 0x60C0 0x01

/-- 0x60C0:02: CELLS_ALLOCATED, default 0 (R331). -/
def Reg.cellsAllocated : Nat := objKey 0x60C0 0x02

/-- 0x60C0:03: CELLS_RELEASED, default 0 (R331). -/
def Reg.cellsReleased : Nat := objKey 0x60C0 0x03

/-- 0x60C0:04: ALLOC_FAIL_QUOTA, default 0 (R331). -/
def Reg.allocFailQuota : Nat := objKey 0x60C0 0x04

/-- 0x60C0:05: ALLOC_FAIL_POOL, default 0 (R331). -/
def Reg.allocFailPool : Nat := objKey 0x60C0 0x05

/-- 0x60C0:06: MARK_OVERFLOW, default 0 (R331). -/
def Reg.markOverflow : Nat := objKey 0x60C0 0x06

/-- 0x60C0:07: INVARIANT_FAILS, default 0 (R331). -/
def Reg.invariantFails : Nat := objKey 0x60C0 0x07

/-- 0x2200:01: TENANT_SEL, default 0 (R350). -/
def Reg.tenantSel : Nat := objKey 0x2200 0x01

/-- 0x2200:02: TENANT_REG, default zeros (R350). -/
def Reg.tenantReg : Nat := objKey 0x2200 0x02

/-- 0x2200:03: RUNNING_SLOT, default 0xFF (R350). -/
def Reg.runningSlot : Nat := objKey 0x2200 0x03

/-- 0x2200:04: BATCH_SIZE, default 1 (R350). -/
def Reg.batchSize : Nat := objKey 0x2200 0x04

/-- 0x2201:01: SWAP_EPOCH, default 0 (R350). -/
def Reg.swapEpoch : Nat := objKey 0x2201 0x01

/-- 0x2201:02: SWAP_INCOMING, default 0xFF (R350). -/
def Reg.swapIncoming : Nat := objKey 0x2201 0x02

/-- 0x2201:03: SWAP_WINDOW, default 200,000 (R350). -/
def Reg.swapWindow : Nat := objKey 0x2201 0x03

/-- 0x2201:04: SWAP_CMD, default — (R350). -/
def Reg.swapCmd : Nat := objKey 0x2201 0x04

/-- 0x2201:05: SWAP_STATE, default 0 (R350). -/
def Reg.swapState : Nat := objKey 0x2201 0x05

/-- 0x2201:06: SWAP_RESUME_BEAT, default 0 (R350). -/
def Reg.swapResumeBeat : Nat := objKey 0x2201 0x06

/-- 0x2201:07: SWAP_LAST_NS, default zeros (R350). -/
def Reg.swapLastNs : Nat := objKey 0x2201 0x07

/-- 0x2210:01: ACCOUNT, default zeros (R350). -/
def Reg.account : Nat := objKey 0x2210 0x01

/-- 0x2220:01: INTERFERENCE, default zeros (R350). -/
def Reg.interference : Nat := objKey 0x2220 0x01

/-- 0x50FF:02: KEY_INPUT, default — (R350). -/
def Reg.keyInput : Nat := objKey 0x50FF 0x02

/-- 0x50FF:03: REPRO_STALE, default 0 (R350). -/
def Reg.reproStale : Nat := objKey 0x50FF 0x03

/-- 0x60D0:01: SWAPS, default 0 (R351). -/
def Reg.swaps : Nat := objKey 0x60D0 0x01

/-- 0x60D0:02: SWAP_LATE, default 0 (R351). -/
def Reg.swapLate : Nat := objKey 0x60D0 0x02

/-- 0x60D0:03: RESTORE_FAILS, default 0 (R351). -/
def Reg.restoreFails : Nat := objKey 0x60D0 0x03

/-- 0x60D0:04: SESSION_REFUSED, default 0 (R351). -/
def Reg.sessionRefused : Nat := objKey 0x60D0 0x04

/-- 0x2100:01: ROLE, default 0 (R368). -/
def Reg.role : Nat := objKey 0x2100 0x01

/-- 0x2100:02: DOMAIN_ID, default 0 (R368). -/
def Reg.domainId : Nat := objKey 0x2100 0x02

/-- 0x2100:03: MGR_STATE, default 0 (R368). -/
def Reg.mgrState : Nat := objKey 0x2100 0x03

/-- 0x2100:04: MANAGER_LOC, default 0 (R368). -/
def Reg.managerLoc : Nat := objKey 0x2100 0x04

/-- 0x2100:05: DOMAIN_SIZE, default 0 (R368). -/
def Reg.domainSize : Nat := objKey 0x2100 0x05

/-- 0x2100:06: DOMAIN_TABLE, default empty (R368). -/
def Reg.domainTable : Nat := objKey 0x2100 0x06

/-- 0x2100:07: HEARTBEAT, default 10,000 (R368). -/
def Reg.heartbeat : Nat := objKey 0x2100 0x07

/-- 0x2100:08: MGR_SILENCE, default 100,000 (R368). -/
def Reg.mgrSilence : Nat := objKey 0x2100 0x08

/-- 0x2100:10: PART_CMD, default — (R368). -/
def Reg.partCmd : Nat := objKey 0x2100 0x10

/-- 0x2100:11: PART_BEAT, default 0 (R368). -/
def Reg.partBeat : Nat := objKey 0x2100 0x11

/-- 0x2100:12: PART_STATE, default 0 (R368). -/
def Reg.partState : Nat := objKey 0x2100 0x12

/-- 0x2100:13: START_SHARED, default 0 (R368). -/
def Reg.startShared : Nat := objKey 0x2100 0x13

/-- 0x2100:14: STANDIN, default empty (R368). -/
def Reg.standin : Nat := objKey 0x2100 0x14

/-- 0x2100:15: REPLICA, default empty (R368). -/
def Reg.replica : Nat := objKey 0x2100 0x15

/-- 0x2100:16: FAULT_LOG, default zeros (R368). -/
def Reg.faultLog : Nat := objKey 0x2100 0x16

/-- 0x2100:17: ADMIT, default — (R368). -/
def Reg.readmitBeat : Nat := objKey 0x2100 0x17

/-- 0x60E0:01: ADMIT_REFUSED, default 0 (R369). -/
def Reg.admitRefused : Nat := objKey 0x60E0 0x01

/-- 0x60E0:02: START_HOLDS, default 0 (R369). -/
def Reg.startHolds : Nat := objKey 0x60E0 0x02

/-- 0x60E0:03: DEVICES_LOST, default 0 (R369). -/
def Reg.devicesLost : Nat := objKey 0x60E0 0x03

/-- 0x60E0:04: FAULT_REPORTS, default 0 (R369). -/
def Reg.faultReports : Nat := objKey 0x60E0 0x04

/-- 0x60E0:05: REPLICA_FAILS, default 0 (R369). -/
def Reg.replicaFails : Nat := objKey 0x60E0 0x05

/-- 0x60E0:06: ADOPTIONS, default 0 (R369). -/
def Reg.adoptions : Nat := objKey 0x60E0 0x06

/-- 0x1004:01: BOOT_STAGE, default 0 (R396). -/
def Reg.bootStage : Nat := objKey 0x1004 0x01

/-- 0x1020:01: SESSION_BIND, default 0xFF (R396). -/
def Reg.sessionBind : Nat := objKey 0x1020 0x01

/-- 0x1030:01–0x1030:04: LAST_ABORT, default 0 (R396); the argument is the sub-index. -/
def Reg.lastAbort (sub : Nat) : Nat := objKey 0x1030 sub

/-- 0x1100:01: I3C_EN, default 1 (R396). -/
def Reg.i3cEn : Nat := objKey 0x1100 0x01

/-- 0x1100:02: I3C_IBI, default 0x0F (R396). -/
def Reg.i3cIbi : Nat := objKey 0x1100 0x02

/-- 0x1100:03: DX_IDLE_TIMEOUT, default 1,000,000,000 (R396). -/
def Reg.dxIdleTimeout : Nat := objKey 0x1100 0x03

/-- 0x7000:01: STREAM_IN_RECORDS, default 65,536 (R396). -/
def Reg.streamInRecords : Nat := objKey 0x7000 0x01

/-- 0x7000:02: STREAM_OUT_RECORDS, default 65,536 (R396). -/
def Reg.streamOutRecords : Nat := objKey 0x7000 0x02

/-- 0x7000:03: OPEN_BATCHES, default 0 (R396). -/
def Reg.openBatches : Nat := objKey 0x7000 0x03

/-- 0x60F0:01: STREAM_IN_TAKEN, default 0 (R397). -/
def Reg.streamInTaken : Nat := objKey 0x60F0 0x01

/-- 0x60F0:02: STREAM_IN_REFUSED, default 0 (R397). -/
def Reg.streamInRefused : Nat := objKey 0x60F0 0x02

/-- 0x60F0:03: STREAM_OUT_WRITTEN, default 0 (R397). -/
def Reg.streamOutWritten : Nat := objKey 0x60F0 0x03

/-- 0x60F0:04: STREAM_OUT_DISCARDED, default 0 (R397). -/
def Reg.streamOutDiscarded : Nat := objKey 0x60F0 0x04

/-- 0x60F0:05: DX_TRANSFERS, default 0 (R397). -/
def Reg.dxTransfers : Nat := objKey 0x60F0 0x05

/-- 0x60F0:06: DX_ERRORS, default 0 (R397). -/
def Reg.dxErrors : Nat := objKey 0x60F0 0x06

/-- 0x60F0:07: BAD_ACCESS, default 0 (R397). -/
def Reg.badAccess : Nat := objKey 0x60F0 0x07

/-- 0x1000:00: DICT_REV, default 1 (R401). -/
def Reg.dictRev : Nat := objKey 0x1000 0x00

/-- 0x1001:01: VENDOR, default "Varmund" (R401). -/
def Reg.vendor : Nat := objKey 0x1001 0x01

/-- 0x1001:02: PART_NUMBER, default — (R401). -/
def Reg.partNumber : Nat := objKey 0x1001 0x02

/-- 0x1001:03: STEPPING, default — (R401). -/
def Reg.stepping : Nat := objKey 0x1001 0x03

/-- 0x1001:04: SERIAL, default — (R401). -/
def Reg.serial : Nat := objKey 0x1001 0x04

/-- 0x1001:05: MEMBER, default 3 (R401). -/
def Reg.member : Nat := objKey 0x1001 0x05

/-- 0x1002:00: GRADE, default — (R401). -/
def Reg.grade : Nat := objKey 0x1002 0x00

/-- 0x1003:01: CORE_MAP_LO, default — (R401). -/
def Reg.coreMapLo : Nat := objKey 0x1003 0x01

/-- 0x1003:02: CORE_MAP_HI, default — (R401). -/
def Reg.coreMapHi : Nat := objKey 0x1003 0x02

/-- 0x1005:01: FACTORY_RECORD, default — (R401). -/
def Reg.factoryRecord : Nat := objKey 0x1005 0x01

/-- 0x1010:01: STORE, default — (R401). -/
def Reg.storeCmd : Nat := objKey 0x1010 0x01

/-- 0x1010:02: STORE_STATE, default 0 (R401). -/
def Reg.storeState : Nat := objKey 0x1010 0x02

/-- 0x1011:01: RESTORE_DEFAULTS, default — (R401). -/
def Reg.restoreDefaults : Nat := objKey 0x1011 0x01

/-- 0x1012:01: NV_BANK, default 0xFF (R401). -/
def Reg.nvBank : Nat := objKey 0x1012 0x01

/-- 0x1012:02: NV_SEQ_A, default 0 (R401). -/
def Reg.nvSeqA : Nat := objKey 0x1012 0x02

/-- 0x1012:03: NV_SEQ_B, default 0 (R401). -/
def Reg.nvSeqB : Nat := objKey 0x1012 0x03

/-- 0x1012:04: NV_DEFAULTS, default 0 (R401). -/
def Reg.nvDefaults : Nat := objKey 0x1012 0x04

/-- 0x1012:05: NV_STORES_A, default 0 (R401). -/
def Reg.nvStoresA : Nat := objKey 0x1012 0x05

/-- 0x1012:06: NV_STORES_B, default 0 (R401). -/
def Reg.nvStoresB : Nat := objKey 0x1012 0x06

/-- 0x1014:01: FW_RUNNING, default — (R401). -/
def Reg.fwRunning : Nat := objKey 0x1014 0x01

/-- 0x1014:02: FW_SEQ_A, default — (R401). -/
def Reg.fwSeqA : Nat := objKey 0x1014 0x02

/-- 0x1014:03: FW_SEQ_B, default — (R401). -/
def Reg.fwSeqB : Nat := objKey 0x1014 0x03

/-- 0x1014:04: FW_BUILD, default — (R401). -/
def Reg.fwBuild : Nat := objKey 0x1014 0x04

/-- 0x1014:05: FW_UPDATE, default — (R401). -/
def Reg.fwUpdate : Nat := objKey 0x1014 0x05

/-- 0x1014:06: FW_UPDATE_STATE, default 0 (R401). -/
def Reg.fwUpdateState : Nat := objKey 0x1014 0x06

/-- 0x1400:01: IDENTITY_PUBKEY, default — (R403). -/
def Reg.identityPubkey : Nat := objKey 0x1400 0x01

/-- 0x1400:02: VENDOR_CERT, default — (R403). -/
def Reg.vendorCert : Nat := objKey 0x1400 0x02

/-- 0x1400:03: ATTEST_NONCE, default — (R403). -/
def Reg.attestNonce : Nat := objKey 0x1400 0x03

/-- 0x1400:04: ATTEST_REPORT, default — (R403). -/
def Reg.attestReport : Nat := objKey 0x1400 0x04

/-- 0x1400:05: ATTEST_STATE, default 0 (R403). -/
def Reg.attestState : Nat := objKey 0x1400 0x05

/-- 0x1400:06: KEY_SLOTS, default 0 (R403). -/
def Reg.keySlots : Nat := objKey 0x1400 0x06

/-- 0x1400:07: SECURITY_EVENTS, default 0 (R403). -/
def Reg.securityEvents : Nat := objKey 0x1400 0x07

/-- 0x6100:01: TJ_MAX, default — (R404). -/
def Reg.tjMax : Nat := objKey 0x6100 0x01

/-- 0x6100:02: THERMAL_STATE, default 0 (R404). -/
def Reg.thermalState : Nat := objKey 0x6100 0x02

/-- 0x6100:03: THERMAL_WARNINGS, default 0 (R404). -/
def Reg.thermalWarnings : Nat := objKey 0x6100 0x03

/-- 0x6100:04: THERMAL_HOLDS, default 0 (R404). -/
def Reg.thermalHolds : Nat := objKey 0x6100 0x04

/-- 0x6100:05: PKG_POWER, default — (R404). -/
def Reg.pkgPower : Nat := objKey 0x6100 0x05

/-- 0x6100:06: VDD_CORE_SET, default — (R404). -/
def Reg.vddCoreSet : Nat := objKey 0x6100 0x06

/-- 0x8000:01: DIAG_CMD, default — (R405). -/
def Reg.diagCmd : Nat := objKey 0x8000 0x01

/-- 0x8000:02: DIAG_ARG, default 0 (R405). -/
def Reg.diagArg : Nat := objKey 0x8000 0x02

/-- 0x8000:03: DIAG_STATE, default 0 (R405). -/
def Reg.diagState : Nat := objKey 0x8000 0x03

/-- 0x8000:04: DIAG_RESULT, default 0 (R405). -/
def Reg.diagResult : Nat := objKey 0x8000 0x04

/-- 0x8001:01: HBM_MARGIN, default zeros (R405). -/
def Reg.hbmMargin : Nat := objKey 0x8001 0x01

/-- 0x8002:01: EYE_SCAN, default zeros (R405). -/
def Reg.eyeScan : Nat := objKey 0x8002 0x01

/-- 0x8003:01: FLASH_MOUNT, default zeros (R405). -/
def Reg.flashMount : Nat := objKey 0x8003 0x01

/-- 0x8004:01: SRAM_TEST, default zeros (R405). -/
def Reg.sramTest : Nat := objKey 0x8004 0x01

end Sys2Proof.Machine
end

