-- ==== Sys2Proof/Machine/Bits.lean ====
section
/-! DEFINITION. Plain helpers the meanings share: bit fields, little-endian byte strings (R8), sparse tables with strictly
rising keys, byte stores in canonical form and byte strings of the dictionary. -/

namespace Sys2Proof.Machine

/-! ### Fields and bytes -/

/-- Bits [lo + w - 1 : lo] of v. -/
def field (v lo w : Nat) : Nat := v / 2 ^ lo % 2 ^ w

/-- Bit i of v. -/
def bitAt (v i : Nat) : Bool := v.testBit i

/-- v with bit i set to b. -/
def setBitAt (v i : Nat) (b : Bool) : Nat :=
  if v.testBit i = b then v else if b then v + 2 ^ i else v - 2 ^ i

/-- Number of bits of v below `n` that are set. -/
def popCount : Nat → Nat → Nat
  | 0, _ => 0
  | n + 1, v => (if v.testBit n then 1 else 0) + popCount n v

/-- The least number at which a set bit of v stands, below n. -/
def lowestBit (n v : Nat) : Option Nat := (List.range n).find? (fun i => v.testBit i)

/-- The members of a bit mask, in ascending order. -/
def maskMembers (n v : Nat) : List Nat := (List.range n).filter (fun i => v.testBit i)

/-- A counter of w bits that wraps. -/
def wrapAdd (w a b : Nat) : Nat := (a + b) % 2 ^ w

/-- Little-endian value of a byte string (R8). -/
def leNat : List Byte → Nat
  | [] => 0
  | b :: bs => b.toNat + 256 * leNat bs

/-- The n little-endian bytes of a value (R8). -/
def leBytes : Nat → Nat → List Byte
  | 0, _ => []
  | n + 1, v => BitVec.ofNat 8 v :: leBytes n (v / 256)

/-- Two's complement value of an n-bit code. -/
def signedOf (n v : Nat) : Int := if v < 2 ^ (n - 1) then (v : Int) else (v : Int) - (2 ^ n : Nat)

/-- The n-bit code of an integer. -/
def codeOf (n : Nat) (v : Int) : Nat := (v % ((2 ^ n : Nat) : Int)).toNat

/-- Bytes [off, off + n) of a byte string; a byte past its end reads 0. -/
def bytesAt (bs : List Byte) (off n : Nat) : List Byte := (List.range n).map (fun i => bs.getD (off + i) 0)

/-- The little-endian value of bytes [off, off + n) of a byte string. -/
def natAt (bs : List Byte) (off n : Nat) : Nat := leNat (bytesAt bs off n)

/-- A byte string with bytes from off on replaced. -/
def patchBytes (bs : List Byte) (off : Nat) (new : List Byte) : List Byte :=
  bs.take off ++ new ++ bs.drop (off + new.length)

/-- Whether every byte is zero. -/
def allZero (bs : List Byte) : Bool := bs.all (fun b => b == 0)

/-- A list cut into pieces of n elements. -/
def piecesOf (n : Nat) : Nat → List α → List (List α)
  | 0, _ => []
  | k + 1, l => if l.isEmpty then [] else l.take n :: piecesOf n k (l.drop n)

/-- The 64-bit words of a byte string, the last padded with zero bytes (R382). -/
def toWords (bs : List Byte) : List Word64 :=
  (piecesOf 8 ((bs.length + 7) / 8) bs).map (fun p => BitVec.ofNat 64 (leNat p))

/-- The bytes of 64-bit words. -/
def ofWords (ws : List Word64) : List Byte := ws.flatMap (fun w => leBytes 8 w.toNat)

/-- Insertion into a list sorted by `le`. -/
def insertBy (le : α → α → Bool) (x : α) : List α → List α
  | [] => [x]
  | y :: ys => if le x y then x :: y :: ys else y :: insertBy le x ys

/-- Stable insertion sort: an element stays before the elements it is `le`. -/
def sortBy (le : α → α → Bool) (l : List α) : List α := l.foldr (insertBy le) []

/-- The first element that holds p, and the list without it. -/
def takeFirst (p : α → Bool) : List α → Option (α × List α)
  | [] => none
  | x :: xs => if p x then some (x, xs) else (takeFirst p xs).map (fun r => (r.1, x :: r.2))

/-! ### Sparse tables -/

/-- The value listed under key k. -/
def mapGet (k : Nat) : List (Nat × α) → Option α
  | [] => none
  | (j, v) :: m => if j = k then some v else mapGet k m

/-- A table with key k set to v; keys stay strictly rising. -/
def mapSet (k : Nat) (v : α) : List (Nat × α) → List (Nat × α)
  | [] => [(k, v)]
  | (j, w) :: m => if k < j then (k, v) :: (j, w) :: m else if k = j then (k, v) :: m else (j, w) :: mapSet k v m

/-- A table without key k. -/
def mapDel (k : Nat) : List (Nat × α) → List (Nat × α)
  | [] => []
  | (j, w) :: m => if j = k then m else (j, w) :: mapDel k m

/-- Whether every key exceeds b and the keys rise. -/
def keysAbove (b : Nat) : List (Nat × α) → Bool
  | [] => true
  | (j, _) :: m => decide (b < j) && keysAbove j m

/-- Whether a table's keys rise strictly. -/
def keysRise : List (Nat × α) → Bool
  | [] => true
  | (j, _) :: m => keysAbove j m

/-- The value under a key, or d. -/
def mapGetD (d : α) (k : Nat) (m : List (Nat × α)) : α := (mapGet k m).getD d

/-- A table with the value of key k changed by f (d where none is listed). -/
def mapUpd (d : α) (k : Nat) (f : α → α) (m : List (Nat × α)) : List (Nat × α) := mapSet k (f (mapGetD d k m)) m

/-! ### Byte stores -/

/-- A byte store: the bytes that are not 0, at strictly rising addresses; an unlisted address reads 0 (assumption 4). -/
abbrev Memory := List Host.Cell

/-- Canonical form of a byte store: addresses rise strictly and no listed byte is 0. -/
def Memory.wf (m : Memory) : Bool := keysRise m && m.all (fun c => c.2 != 0)

/-- The byte at an address. -/
def memGet (m : Memory) (a : Nat) : Byte := mapGetD 0 a m

/-- A store with one byte written. -/
def memSet (m : Memory) (a : Nat) (b : Byte) : Memory := if b = 0 then mapDel a m else mapSet a b m

/-- n bytes from an address on. -/
def memRead (m : Memory) (a n : Nat) : List Byte := (List.range n).map (fun i => memGet m (a + i))

/-- A store with bytes written from an address on. -/
def memWrite (m : Memory) (a : Nat) : List Byte → Memory
  | [] => m
  | b :: bs => memWrite (memSet m a b) (a + 1) bs

/-- A store with n bytes from an address on cleared to 0. -/
def memClear (m : Memory) (a n : Nat) : Memory := m.filter (fun c => !(decide (a ≤ c.1) && decide (c.1 < a + n)))

/-- The 64-bit words that [a, a + n) touches. -/
def wordsOf (a n : Nat) : List Nat := if n = 0 then [] else (List.range ((a + n - 1) / 8 - a / 8 + 1)).map (a / 8 + ·)

/-- The 64-bit words that [a, a + n) covers whole. -/
def wholeWords (a n : Nat) : List Nat := (wordsOf a n).filter (fun w => decide (a ≤ 8 * w) && decide (8 * w + 8 ≤ a + n))

/-! ### Byte strings of the dictionary -/

/-- The empty byte string. -/
def Blob.empty : Blob := ⟨0, []⟩

/-- Byte i of a byte string. -/
def Blob.get (b : Blob) (i : Nat) : Byte := memGet b.cells i

/-- The little-endian value of n bytes at an offset. -/
def Blob.nat (b : Blob) (off n : Nat) : Nat := leNat (memRead b.cells off n)

/-- Bytes [off, off + n). -/
def Blob.slice (b : Blob) (off n : Nat) : List Byte := memRead b.cells off n

/-- All bytes. -/
def Blob.bytes (b : Blob) : List Byte := memRead b.cells 0 b.len

/-- The byte string of a list. -/
def Blob.ofBytes (bs : List Byte) : Blob := ⟨bs.length, memWrite [] 0 bs⟩

/-- A byte string of n zero bytes. -/
def Blob.zeros (n : Nat) : Blob := ⟨n, []⟩

/-- A byte string with bytes from off on replaced; its length stays. -/
def Blob.patch (b : Blob) (off : Nat) (bs : List Byte) : Blob := ⟨b.len, memWrite b.cells off bs⟩

/-- A byte string with the n-byte field at off set to v. -/
def Blob.setNat (b : Blob) (off n v : Nat) : Blob := ⟨b.len, memWrite b.cells off (leBytes n v)⟩

end Sys2Proof.Machine
end

