-- ==== Sys2Proof/Machine/Float.lean ====
section
/-! DEFINITION. Exact values and their single rounding (R61, R146, R152, R162, R164, R170): binary32 and BF16 arithmetic,
the element and scale formats of R143 and R144, and the correctly rounded functions of the vector engine. -/

namespace Sys2Proof.Machine

/-! ### Exact values -/

/-- The exact value m × 2^e. -/
structure Dy where
  m : Int
  e : Int
deriving DecidableEq, Repr, Inhabited

/-- Exact zero. -/
def dyZero : Dy := ⟨0, 0⟩

/-- Exact product. -/
def dyMul (a b : Dy) : Dy := ⟨a.m * b.m, a.e + b.e⟩

/-- m × 2^e counted in units of 2^q, for q at most e. -/
def dyAt (a : Dy) (q : Int) : Int := a.m * ((2 ^ (a.e - q).toNat : Nat) : Int)

/-- Exact sum. -/
def dyAdd (a b : Dy) : Dy :=
  let q := min a.e b.e
  ⟨dyAt a q + dyAt b q, q⟩

/-- Exact sum of a list. -/
def dySum (l : List Dy) : Dy := l.foldl dyAdd dyZero

/-- Exact comparison: a < b. -/
def dyLt (a b : Dy) : Bool :=
  let q := min a.e b.e
  decide (dyAt a q < dyAt b q)

/-- The nearest integer to m × 2^e, ties to even (R149). -/
def dyRoundInt (a : Dy) : Int :=
  if 0 ≤ a.e then a.m * ((2 ^ a.e.toNat : Nat) : Int)
  else
    let d : Int := ((2 ^ (-a.e).toNat : Nat) : Int)
    let f := a.m / d
    let r := a.m % d
    if d < 2 * r ∨ (2 * r = d ∧ f % 2 = 1) then f + 1 else f

/-- Whether m × 2^e is an integer. -/
def dyIsInt (a : Dy) : Bool := if 0 ≤ a.e then true else a.m % ((2 ^ (-a.e).toNat : Nat) : Int) == 0

/-! ### One rounding -/

/-- The exponent of the leading bit of num / den, both positive. -/
def leadExp (num den : Nat) : Int :=
  let k : Int := (Nat.log2 num : Int) - (Nat.log2 den : Int)
  if 0 ≤ k then (if den * 2 ^ k.toNat ≤ num then k else k - 1)
  else (if den ≤ num * 2 ^ (-k).toNat then k else k - 1)

/-- num / den × 2^e rounded once to nearest, ties to even, on the grid of a format with p significand bits and least step
2^qmin. The answer is the code of the magnitude, with no upper bound: step count above qmin times 2^(p-1), plus the
significand. -/
def roundMag (p : Nat) (qmin : Int) (num den : Nat) (e : Int) : Nat :=
  if num = 0 ∨ den = 0 then 0
  else
    let q := max qmin (leadExp num den + e - ((p : Int) - 1))
    let n := if 0 ≤ e - q then num * 2 ^ (e - q).toNat else num
    let d := if 0 ≤ e - q then den else den * 2 ^ (q - e).toNat
    let f := n / d
    let r := n % d
    let m := if d < 2 * r ∨ (2 * r = d ∧ f % 2 = 1) then f + 1 else f
    (q - qmin).toNat * 2 ^ (p - 1) + m

/-- The exact value of a magnitude code of such a format. -/
def magVal (p : Nat) (qmin : Int) (c : Nat) : Dy :=
  let k := c / 2 ^ (p - 1)
  if k = 0 then ⟨c, qmin⟩ else ⟨((2 ^ (p - 1) + c % 2 ^ (p - 1) : Nat) : Int), qmin + k - 1⟩

/-! ### FP32 -/

/-- The code of +infinity. -/
def fInf : FP32 := 0x7F800000

/-- The NaN of read-out (R152). -/
def fNaN : FP32 := 0x7FC00000

/-- Sign of a code. -/
def fNeg (x : FP32) : Bool := x.toNat.testBit 31

/-- Magnitude of a code. -/
def fMag (x : FP32) : Nat := x.toNat % 2 ^ 31

/-- Whether a code is a NaN. -/
def fIsNaN (x : FP32) : Bool := decide (0x7F800000 < fMag x)

/-- Whether a code is an infinity. -/
def fIsInf (x : FP32) : Bool := fMag x == 0x7F800000

/-- Whether a code is finite. -/
def fIsFin (x : FP32) : Bool := decide (fMag x < 0x7F800000)

/-- Whether a code is a zero. -/
def fIsZero (x : FP32) : Bool := fMag x == 0

/-- A code from sign and magnitude. -/
def fCode (neg : Bool) (mag : Nat) : FP32 := BitVec.ofNat 32 ((if neg then 2 ^ 31 else 0) + mag)

/-- The exact value of a finite code. -/
def fVal (x : FP32) : Dy :=
  let v := magVal 24 (-149) (fMag x)
  if fNeg x then ⟨-v.m, v.e⟩ else v

/-- num / den × 2^e with a sign, rounded once to FP32; beyond the range, infinity (R152, R170). -/
def fRound (neg : Bool) (num den : Nat) (e : Int) : FP32 :=
  fCode neg (min (roundMag 24 (-149) num den e) 0x7F800000)

/-- An exact value rounded once to FP32; exact zero is +0. -/
def fOfDy (a : Dy) : FP32 := fRound (decide (a.m < 0)) a.m.natAbs 1 a.e

/-- The NaN an operation on two codes produces: a quiet NaN whose sign and payload the manual does not state
(assumption 5). -/
def fNaNOf (a b : FP32) : FP32 := Config.nanBits a b ||| 0x7FC00000

/-- The code with its sign inverted. -/
def fNegate (x : FP32) : FP32 := x ^^^ 0x80000000

/-- FP32 addition, one rounding to nearest-even (R146, R159, R170). -/
def fAdd (a b : FP32) : FP32 :=
  if fIsNaN a ∨ fIsNaN b then fNaNOf a b
  else if fIsInf a then (if fIsInf b ∧ fNeg a ≠ fNeg b then fNaNOf a b else a)
  else if fIsInf b then b
  else
    let s := dyAdd (fVal a) (fVal b)
    if s.m = 0 then (if fNeg a ∧ fNeg b then fCode true 0 else fCode false 0) else fOfDy s

/-- FP32 subtraction. -/
def fSub (a b : FP32) : FP32 := if fIsNaN b then fNaNOf a b else fAdd a (fNegate b)

/-- FP32 multiplication, one rounding (R146, R170). -/
def fMul (a b : FP32) : FP32 :=
  let neg := fNeg a != fNeg b
  if fIsNaN a ∨ fIsNaN b then fNaNOf a b
  else if fIsInf a ∨ fIsInf b then (if fIsZero a ∨ fIsZero b then fNaNOf a b else fCode neg 0x7F800000)
  else
    let p := dyMul (fVal a) (fVal b)
    fRound neg p.m.natAbs 1 p.e

/-- FP32 division, one rounding (R74, R79, R171). -/
def fDiv (a b : FP32) : FP32 :=
  let neg := fNeg a != fNeg b
  if fIsNaN a ∨ fIsNaN b then fNaNOf a b
  else if fIsInf a then (if fIsInf b then fNaNOf a b else fCode neg 0x7F800000)
  else if fIsInf b then fCode neg 0
  else if fIsZero b then (if fIsZero a then fNaNOf a b else fCode neg 0x7F800000)
  else
    let x := fVal a
    let y := fVal b
    fRound neg x.m.natAbs y.m.natAbs (x.e - y.e)

/-- a < b for codes that are not NaN; +0 and −0 are equal (R62). -/
def fLt (a b : FP32) : Bool :=
  let key := fun (x : FP32) => if fNeg x then -(fMag x : Int) else (fMag x : Int)
  !(fIsNaN a) && !(fIsNaN b) && decide (key a < key b)

/-- Whether two codes are numerically equal. -/
def fEq (a b : FP32) : Bool := !(fIsNaN a) && !(fIsNaN b) && !(fLt a b) && !(fLt b a)

/-- The larger value; a NaN ranks above every other value (R171). +0 ranks above −0 (assumption 6). -/
def fMax (a b : FP32) : FP32 :=
  if fIsNaN a ∨ fIsNaN b then fNaNOf a b
  else if fLt a b then b else if fLt b a then a else if fNeg a then b else a

/-- A natural number as FP32, one rounding. -/
def fOfNat (n : Nat) : FP32 := fRound false n 1 0

/-- Whether a code is subnormal. -/
def fIsSub (x : FP32) : Bool := decide (0 < fMag x) && decide (fMag x < 0x800000)

/-- Largest finite FP32 code with a sign. -/
def fMaxFin (neg : Bool) : FP32 := fCode neg 0x7F7FFFFF

/-! ### BF16 -/

/-- Sign of a BF16 code. -/
def bNeg (x : BF16) : Bool := x.toNat.testBit 15

/-- A BF16 value as FP32, exact. -/
def fOfB (x : BF16) : FP32 := BitVec.ofNat 32 (x.toNat * 65536)

/-- A finite FP32 or infinite value rounded once to BF16; a NaN becomes a quiet NaN (assumption 5). -/
def bOfF (x : FP32) : BF16 :=
  if fIsNaN x then (Config.nanBits16 x ||| 0x7FC0)
  else if fIsInf x then BitVec.ofNat 16 ((if fNeg x then 2 ^ 15 else 0) + 0x7F80)
  else
    let v := fVal x
    BitVec.ofNat 16 ((if fNeg x then 2 ^ 15 else 0) + min (roundMag 8 (-133) v.m.natAbs 1 v.e) 0x7F80)

/-- An exact value rounded once to BF16. -/
def bOfDy (a : Dy) : BF16 :=
  BitVec.ofNat 16 ((if a.m < 0 then 2 ^ 15 else 0) + min (roundMag 8 (-133) a.m.natAbs 1 a.e) 0x7F80)

/-- Whether a BF16 code is infinite. -/
def bIsInf (x : BF16) : Bool := x.toNat % 2 ^ 15 == 0x7F80

/-- Whether a BF16 code is a NaN. -/
def bIsNaN (x : BF16) : Bool := decide (0x7F80 < x.toNat % 2 ^ 15)

/-- Whether a BF16 code is subnormal. -/
def bIsSub (x : BF16) : Bool := decide (0 < x.toNat % 2 ^ 15) && decide (x.toNat % 2 ^ 15 < 0x80)

/-- Largest finite BF16 code with a sign. -/
def bMaxFin (neg : Bool) : BF16 := BitVec.ofNat 16 ((if neg then 2 ^ 15 else 0) + 0x7F7F)

/-! ### Element and scale formats (R143, R144, R162) -/

/-- Width of an element in bits (R143, R144). -/
def eltBits : EltFmt → Nat
  | .fp4 | .int4 => 4
  | .int2 | .ternary => 2
  | .e2m3 | .e3m2 => 6
  | .e4m3 | .e5m2 | .mxint8 => 8
  | .bf16 => 16
  | .fp32 => 32

/-- Whether a format is an MX format (R143). -/
def eltIsMx : EltFmt → Bool
  | .fp4 | .e2m3 | .e3m2 | .e4m3 | .e5m2 | .mxint8 => true
  | _ => false

/-- The elements that share a scale: 32 in MX, 16 in INT4 and INT2 (R143, R144). Ternary has one scale per column. -/
def eltBlock : EltFmt → Nat
  | .int4 | .int2 => 16
  | _ => 32

/-- Significand bits of a format's grid; a uniform grid has 64. -/
def eltPrec : EltFmt → Nat
  | .fp4 => 2
  | .e2m3 | .e4m3 => 4
  | .e3m2 | .e5m2 => 3
  | _ => 64

/-- The exponent of a format's least step. -/
def eltStep : EltFmt → Int
  | .fp4 => -1
  | .e2m3 => -3
  | .e3m2 => -4
  | .e4m3 => -9
  | .e5m2 => -16
  | .mxint8 => -6
  | _ => 0

/-- An element's exact value; none for a NaN or infinity code (R143), and for the reserved ternary code 0 (R144). -/
def eltVal (f : EltFmt) (c : Nat) : Option Dy :=
  let signed := fun (w : Nat) =>
    let v := magVal (eltPrec f) (eltStep f) (c % 2 ^ (w - 1))
    if c.testBit (w - 1) then Dy.mk (-v.m) v.e else v
  match f with
  | .fp4 => some (signed 4)
  | .e2m3 | .e3m2 => some (signed 6)
  | .e4m3 => if c % 128 = 0x7F then none else some (signed 8)
  | .e5m2 => if 0x7C ≤ c % 128 then none else some (signed 8)
  | .mxint8 => some ⟨signedOf 8 c, -6⟩
  | .int4 => some ⟨signedOf 4 c, 0⟩
  | .int2 => some ⟨signedOf 2 c, 0⟩
  | .ternary => some ⟨if c = 1 then 1 else if c = 3 then -1 else 0, 0⟩
  | .bf16 => let x := fOfB (BitVec.ofNat 16 c); if fIsFin x then some (fVal x) else none
  | .fp32 => let x : FP32 := BitVec.ofNat 32 c; if fIsFin x then some (fVal x) else none

/-- A scale's exact value: E8M0 for the MX formats, E4M3 for INT4, INT2 and ternary; none for its NaN code. -/
def scaleVal (f : EltFmt) (c : Nat) : Option Dy :=
  if eltIsMx f then (if c = 0xFF then none else some ⟨1, (c : Int) - 127⟩) else eltVal .e4m3 c

/-- Largest magnitude of a format on each side, in units of its least step (R162). -/
def eltMax (f : EltFmt) (neg : Bool) : Nat :=
  match f with
  | .fp4 => 12
  | .e2m3 => 60
  | .e3m2 => 448
  | .e4m3 => 229376
  | .e5m2 => 3758096384
  | .mxint8 => 127
  | .int4 => 7
  | .int2 => if neg then 2 else 1
  | .ternary => 1
  | _ => 0

/-- The code of a signed magnitude code in a format. -/
def eltCode (f : EltFmt) (neg : Bool) (mag : Nat) : Nat :=
  match f with
  | .mxint8 => codeOf 8 (if neg then -(mag : Int) else mag)
  | .int4 => codeOf 4 (if neg then -(mag : Int) else mag)
  | .int2 | .ternary => codeOf 2 (if neg then -(mag : Int) else mag)
  | _ => (if neg then 2 ^ (eltBits f - 1) else 0) + mag

/-- The magnitude code of the largest magnitude. -/
def eltMaxMag (f : EltFmt) (neg : Bool) : Nat := roundMag (eltPrec f) (eltStep f) (eltMax f neg) 1 (eltStep f)

/-- num / den × 2^e with a sign quantised under R162: its code, and whether it was clipped. -/
def eltRound (f : EltFmt) (neg : Bool) (num den : Nat) (e : Int) : Nat × Bool :=
  let lim := Dy.mk (eltMax f neg * den) (eltStep f)
  if dyLt lim ⟨num, e⟩ then (eltCode f neg (eltMaxMag f neg), true)
  else (eltCode f neg (roundMag (eltPrec f) (eltStep f) num den e), false)

/-- An exact value rounded once to FP8 E4M3 with the clamp of R152 and R71: its code, and whether it was clamped. -/
def e4m3OfDy (a : Dy) : Nat × Bool :=
  let mag := roundMag 4 (-9) a.m.natAbs 1 a.e
  let neg := decide (a.m < 0)
  if 0x7E < mag then ((if neg then 128 else 0) + 0x7E, true) else ((if neg then 128 else 0) + mag, false)

/-! ### Packed elements (R145) -/

/-- Element i of a packed run that starts on byte `off` of a byte string. -/
def packedAt (f : EltFmt) (bs : List Byte) (off i : Nat) : Nat :=
  let w := eltBits f
  let bit := i * w
  field (natAt bs (off + bit / 8) 5) (bit % 8) w

/-- A run of codes packed little-endian from bit 0 of its first byte. -/
def packRun (f : EltFmt) (cs : List Nat) : List Byte :=
  let w := eltBits f
  leBytes ((cs.length * w + 7) / 8) (cs.foldr (fun c acc => c + 2 ^ w * acc) 0)

/-! ### The functions of R170 -/

/-- floor(ln 2 × 2^256). -/
def ln2Fix : Nat := 80260960185991308862233904206310070533990667611589946606122867505419956976171

/-- e^(r / 2^256) × 2^256 for 0 ≤ r < 2^256, by 80 terms of its series. -/
def expFix (r : Nat) : Nat :=
  ((List.range 80).foldl (fun (acc : Nat × Nat) i => let t := acc.2 * r / 2 ^ 256 / (i + 1); (acc.1 + t, t))
    (2 ^ 256, 2 ^ 256)).1

/-- e^x for a finite code: E and k with e^x = E / 2^256 × 2^k, to more than 200 bits (assumption 7). -/
def expParts (x : FP32) : Nat × Int :=
  let v := fVal x
  let fx : Int := v.m * ((2 ^ (v.e + 256).toNat : Nat) : Int)
  let k := fx / (ln2Fix : Int)
  (expFix (fx % (ln2Fix : Int)).toNat, k)

/-- exp, rounded once. -/
def fExp (x : FP32) : FP32 :=
  if fIsNaN x then fNaNOf x x
  else if fIsZero x then 0x3F800000
  else if fIsInf x ∨ fLt (fOfNat 200) x ∨ fLt x (fNegate (fOfNat 200)) then
    (if fNeg x then 0 else fInf)
  else
    let p := expParts x
    fRound false p.1 1 (p.2 - 256)

/-- sigmoid, the rounding of the exact 1 / (1 + e^(−x)) (R74, R170). -/
def fSigmoid (x : FP32) : FP32 :=
  if fIsNaN x then fNaNOf x x
  else if fIsZero x then 0x3F000000
  else if fIsInf x ∨ fLt (fOfNat 200) x ∨ fLt x (fNegate (fOfNat 200)) then
    (if fNeg x then 0 else 0x3F800000)
  else
    let p := expParts (fNegate x)
    -- 1 / (1 + E 2^(k - 256)), with numerator and denominator on one power of two
    if 0 ≤ p.2 then fRound false (2 ^ 256) (2 ^ 256 + p.1 * 2 ^ p.2.toNat) 0
    else fRound false (2 ^ (256 + (-p.2).toNat)) (2 ^ (256 + (-p.2).toNat) + p.1) 0

/-- tanh, rounded once. Below 2^−13 the exact value rounds to x. -/
def fTanh (x : FP32) : FP32 :=
  if fIsNaN x then fNaNOf x x
  else if fMag x ≤ 0x39000000 then x
  else if fIsInf x ∨ fLt (fOfNat 50) (fCode false (fMag x)) then fCode (fNeg x) 0x3F800000
  else
    let v := fVal (fCode true (fMag x))
    let fx : Int := 2 * v.m * ((2 ^ (v.e + 256).toNat : Nat) : Int)
    let k := fx / (ln2Fix : Int)
    let e := expFix (fx % (ln2Fix : Int)).toNat
    let one := 2 ^ (256 + (-k).toNat)
    fRound (fNeg x) (one - e) (one + e) 0

/-- The integer square root by its bits, from bit n down. -/
def isqrtFrom : Nat → Nat → Nat → Nat
  | 0, _, r => r
  | n + 1, v, r => isqrtFrom n v (if (r + 2 ^ n) * (r + 2 ^ n) ≤ v then r + 2 ^ n else r)

/-- rsqrt, the rounding of the exact value. -/
def fRsqrt (x : FP32) : FP32 :=
  if fIsNaN x then fNaNOf x x
  else if fIsZero x then fCode (fNeg x) 0x7F800000
  else if fNeg x then fNaNOf x x
  else if fIsInf x then 0
  else
    let v := fVal x
    let m := v.m.toNat
    let odd := v.e % 2 = 1
    let m' := if odd then 2 * m else m
    let e' := if odd then v.e - 1 else v.e
    -- 1 / sqrt(m' 2^e') = sqrt(2^160 / m') 2^(-80 - e'/2); a remainder leaves a sticky bit
    let q := 2 ^ 160 / m'
    let r := isqrtFrom 81 q 0
    let sticky := if r * r * m' = 2 ^ 160 then 0 else 1
    fRound false (2 * r + sticky) 1 (-81 - e' / 2)

/-- Reciprocal, rounded once. -/
def fRecip (x : FP32) : FP32 := fDiv 0x3F800000 x

/-! ### Reductions (R170) -/

/-- One level of the pairwise tree. -/
def pairLevel : List FP32 → List FP32
  | a :: b :: l => fAdd a b :: pairLevel l
  | l => l

/-- The pairwise tree over 512 lane sums. -/
def pairTree (l : List FP32) : FP32 := ((List.range 9).foldl (fun v _ => pairLevel v) l).getD 0 0

/-- The sum of lane l: elements l, l + 512, … in ascending order. -/
def laneSum (xs : List FP32) (l : Nat) : FP32 :=
  match (List.range ((xs.length - l + 511) / 512)).map (fun i => xs.getD (l + 512 * i) 0) with
  | [] => 0
  | y :: ys => ys.foldl fAdd y

/-- A reduction by addition. -/
def fSumReduce (xs : List FP32) : FP32 := pairTree ((List.range 512).map (laneSum xs))

/-- A reduction by maximum. -/
def fMaxReduce (xs : List FP32) : FP32 := xs.tail.foldl fMax (xs.getD 0 0)

/-! ### Rotation (R159) -/

/-- One pass of the block rotation with partner distance h. -/
def rotPass (x : List FP32) (h : Nat) : List FP32 :=
  (List.range x.length).map (fun j =>
    if j / h % 2 = 0 then fAdd (x.getD j 0) (x.getD (j + h) 0) else fSub (x.getD (j - h) 0) (x.getD j 0))

/-- The constant c[n]. -/
def rotConst (n : Nat) : FP32 :=
  if n = 32 then 0x3E3504F3 else if n = 64 then 0x3E000000 else if n = 128 then 0x3DB504F3 else 0x3D800000

/-- The rotation of one block of n values; the inverse is the same procedure. -/
def rotBlock (n : Nat) (x : List FP32) : List FP32 :=
  (((List.range (Nat.log2 n)).foldl (fun v k => rotPass v (2 ^ k)) x)).map (fun v => fMul v (rotConst n))

/-- A rotation of every run of n elements; n = 0 rotates nothing (R158). -/
def rotate (n : Nat) (x : List FP32) : List FP32 :=
  if n = 0 then x else (piecesOf n (x.length / n) x).flatMap (rotBlock n)

end Sys2Proof.Machine
end

