-- ==== Sys2Proof/Machine/Hash.lean ====
section
/-! DEFINITION. The check codes and the digest the manual names: CRC-32 of the link (R217), CRC-32C of chunks, moves and
settings banks (R281, R308, R415), and SHA3-256 (FIPS 202) of images, loader objects, firmware and keys. -/

namespace Sys2Proof.Machine

/-! ### Cyclic codes -/

/-- One bit of a reflected 32-bit CRC with the given polynomial. -/
def crcBit (poly : Nat) (c : Nat) : Nat := if c % 2 = 1 then (c / 2) ^^^ poly else c / 2

/-- One byte of a reflected 32-bit CRC. -/
def crcByte (poly : Nat) (c : Nat) (b : Byte) : Nat :=
  (List.range 8).foldl (fun r _ => crcBit poly r) (c ^^^ b.toNat)

/-- A reflected 32-bit CRC with initial and final complement. -/
def crcOf (poly : Nat) (bs : List Byte) : Nat := (bs.foldl (crcByte poly) 0xFFFFFFFF) ^^^ 0xFFFFFFFF

/-- CRC-32 of IEEE 802.3 (R217). -/
def crc32 (bs : List Byte) : Nat := crcOf 0xEDB88320 bs

/-- CRC-32C, Castagnoli (R281, R308, R415). -/
def crc32c (bs : List Byte) : Nat := crcOf 0x82F63B78 bs

/-! ### SHA3-256

The state of FIPS 202 is one number of 1,600 bits: lane (x, y) stands at bit 64 (x + 5 y), and plane y at bit 320 y. -/

/-- The lane that stands at place i. -/
def laneWord (v i : Nat) : Nat := field v (64 * i) 64

/-- A lane turned left by n bits. -/
def turned (n w : Nat) : Nat := w * 2 ^ (n % 64) % 2 ^ 64 + w / 2 ^ (64 - n % 64)

/-- Step theta: every plane takes the parities of the neighbouring columns. -/
def stepTheta (st : Nat) : Nat :=
  let sums := (List.range 5).foldl (fun p y => p ^^^ field st (320 * y) 320) 0
  let mix := (List.range 5).foldr (fun x p => (laneWord sums ((x + 4) % 5) ^^^ turned 1 (laneWord sums ((x + 1) % 5))) + 2 ^ 64 * p) 0
  (List.range 5).foldl (fun v y => v ^^^ (mix * 2 ^ (320 * y))) st

/-- Steps rho and pi in the one walk that FIPS 202 gives both: its t-th lane turns by (t + 1)(t + 2)/2 and goes to the place the
walk visits next. Arguments: lanes still to go, t, the place of the walk, and what has been placed. -/
def stepWalk (st : Nat) : Nat → Nat → Nat × Nat → Nat → Nat
  | 0, _, _, out => out
  | k + 1, t, (x, y), out =>
    let y' := (2 * x + 3 * y) % 5
    stepWalk st k (t + 1) (y, y') (out + turned ((t + 1) * (t + 2) / 2) (laneWord st (x + 5 * y)) * 2 ^ (64 * (y + 5 * y')))

/-- Step chi on one plane: each lane against the complement of the next and the one after it. -/
def planeChi (p : Nat) : Nat :=
  let next := fun v : Nat => v / 2 ^ 64 + v % 2 ^ 64 * 2 ^ 256
  p ^^^ ((2 ^ 320 - 1 - next p) &&& next (next p))

/-- Step chi on the state. -/
def stepChi (st : Nat) : Nat := (List.range 5).foldr (fun y v => planeChi (field st (320 * y) 320) + 2 ^ 320 * v) 0

/-- The shift register whose low bit feeds the round constants, after n steps. -/
def feedback : Nat → Nat
  | 0 => 1
  | n + 1 => let r := 2 * feedback n; if 256 ≤ r then r ^^^ 0x171 else r

/-- Step iota: the constant of round r has at bit 2^j - 1 the register's low bit after j + 7 r steps. -/
def roundWord (r : Nat) : Nat :=
  (List.range 7).foldl (fun c j => c + feedback (j + 7 * r) % 2 * 2 ^ (2 ^ j - 1)) 0

/-- The permutation: 24 rounds of the five steps. -/
def permute (st : Nat) : Nat :=
  (List.range 24).foldl (fun v r =>
    let u := stepTheta v
    stepChi (stepWalk u 24 0 (1, 0) (laneWord u 0)) ^^^ roundWord r) st

/-- A message padded to whole blocks of 136 bytes (FIPS 202): 01 and the pad 1 0* 1 after its last bit. -/
def padded (bs : List Byte) : List Byte :=
  let blocks := bs.length / 136 + 1
  leBytes (136 * blocks) (leNat bs + 6 * 256 ^ bs.length + 2 ^ (1088 * blocks - 1))

/-- SHA3-256 of a byte string. -/
def sha3 (bs : List Byte) : List Byte :=
  let p := padded bs
  leBytes 32 ((piecesOf 136 (p.length / 136) p).foldl (fun st block => permute (st ^^^ leNat block)) 0)

end Sys2Proof.Machine
end

