-- ==== Sys2Proof/Machine/Wire.lean ====
section
/-! DEFINITION. The bytes of what travels on the fabric, little-endian as R8 states: flits (R217), the routing header and its
multicast extension (R227, R237), beat-class packets (R92 to R96), remote-memory and collective packets (R253, R280), DX packets
(R386) and notices (R472). -/

namespace Sys2Proof

open Sys2Proof.Machine

/-- The number whose bits [lo + w - 1 : lo] hold v, for each (lo, w, v). -/
def packed (fs : List (Nat × Nat × Nat)) : Nat := (fs.map (fun f => f.2.2 % 2 ^ f.2.1 * 2 ^ f.1)).foldl (· + ·) 0

/-- The bytes of FP32 values. -/
def f32Bytes (l : List FP32) : List Byte := l.flatMap (fun x => leBytes 4 x.toNat)

/-- The bytes of BF16 values. -/
def b16Bytes (l : List BF16) : List Byte := l.flatMap (fun x => leBytes 2 x.toNat)

/-- BF16 values of a byte string. -/
def b16Of (bs : List Byte) : List BF16 := (List.range (bs.length / 2)).map (fun i => BitVec.ofNat 16 (natAt bs (2 * i) 2))

/-- A byte string filled with zeros to a length. -/
def padTo (n : Nat) (bs : List Byte) : List Byte := bs ++ List.replicate (n - bs.length) 0

/-! ### The routing header -/

/-- The 8 B of a routing header (R227). -/
def RouteHdr.bytes (h : RouteHdr) : List Byte :=
  leBytes 8 (packed [(0, 20, h.dst), (20, 20, h.src), (40, 12, h.job), (52, 3, h.cls), (55, 1, h.mc.toNat), (56, 1, h.down.toNat),
    (57, 3, h.lastLevel)])

/-- The routing header that begins a byte string. -/
def RouteHdr.ofBytes (bs : List Byte) : RouteHdr :=
  let w := natAt bs 0 8
  ⟨field w 0 20, field w 20 20, field w 40 12, field w 52 3, w.testBit 55, w.testBit 56, field w 57 3⟩

/-- Bytes of the extension of a copy with n members (R237). -/
def extBytes (n : Nat) : Nat := 8 + (2 * n + 7) / 8 * 8

/-- The extension of a multicast copy: its mask and its members' device addresses (R237). -/
def mcExtension (mask : Nat) (members : List Nat) : List Byte :=
  padTo (extBytes members.length) (leBytes 8 mask ++ members.flatMap (leBytes 2))

/-! ### Beat-class packets -/

/-- The 32 B of a beat-class header whose payload has some bytes and choice entries (R92): VERSION is 1. -/
def BeatHdr.bytes (h : BeatHdr) (payload count : Nat) : List Byte :=
  leBytes 32 (packed [(0, 4, h.kind), (4, 4, 1), (8, 8, h.lslot), (16, 16, h.flags.toNat), (32, 16, h.srcRank), (48, 16, h.dstRank),
    (64, 32, h.batchTag), (96, 8, h.lane), (104, 24, h.position), (128, 16, h.gen), (144, 16, h.entryRank), (160, 32, h.beat),
    (192, 24, payload), (216, 5, count), (224, 16, h.nextRank), (240, 4, h.homeCluster)])

/-- The beat-class header that begins a byte string. -/
def BeatHdr.ofBytes (bs : List Byte) : BeatHdr :=
  let w := natAt bs 0 32
  { kind := field w 0 4, lslot := field w 8 8, flags := BitVec.ofNat 16 (field w 16 16), srcRank := field w 32 16,
    dstRank := field w 48 16, batchTag := field w 64 32, lane := field w 96 8, position := field w 104 24, gen := field w 128 16,
    entryRank := field w 144 16, beat := field w 160 32, nextRank := field w 224 16, homeCluster := field w 240 4 }

/-- The choice entries that a header's COUNT names (R92). -/
def headerCount (bs : List Byte) : Nat := field (natAt bs 0 32) 216 5

/-- The 8 B of a choice entry (R93, R95). -/
def ChoiceEntry.bytes (e : ChoiceEntry) : List Byte :=
  leBytes 8 (packed [(0, 4, e.choice), (4, 1, e.dropped.toNat), (5, 1, e.unavail.toNat), (8, 8, e.pslot), (16, 14, e.expert),
    (32, 32, e.gate.toNat)])

/-- The choice entry that begins a byte string. -/
def ChoiceEntry.ofBytes (bs : List Byte) : ChoiceEntry :=
  let w := natAt bs 0 8
  ⟨field w 0 4, field w 8 8, field w 16 14, BitVec.ofNat 32 (field w 32 32), w.testBit 4, w.testBit 5⟩

/-- Bytes of a beat-class packet's payload (R93 to R96). -/
def BeatPacket.payloadLen (p : BeatPacket) : Nat :=
  8 * p.entries.length + 2 * p.vec.length + 8 * p.cands.length + (if p.hdr.kind = 7 then 8 else 0)

/-- The payload of a beat-class packet (R93 to R96): choice entries, then a vector; the records of a candidate set; the token of
a sampled token. -/
def BeatPacket.payload (p : BeatPacket) : List Byte :=
  p.entries.flatMap ChoiceEntry.bytes ++ b16Bytes p.vec ++ p.cands.flatMap (fun c => leBytes 4 c.1 ++ leBytes 4 c.2.toNat) ++
    (if p.hdr.kind = 7 then leBytes 8 (packed [(0, 32, p.token), (32, 8, p.tokFlags.toNat)]) else [])

/-- The bytes of a beat-class packet. -/
def BeatPacket.bytes (p : BeatPacket) : List Byte := p.hdr.bytes p.payloadLen p.entries.length ++ p.payload

/-! ### Remote memory, collectives, DX -/

/-- The bytes of a remote-memory packet (R253). -/
def RmPacket.bytes (p : RmPacket) : List Byte :=
  leBytes 32 (packed [(0, 4, p.opc), (4, 4, p.version), (8, 3, p.dtype), (11, 1, p.cache.toNat), (12, 1, p.combined.toNat),
    (13, 3, p.rsvd), (16, 4, p.cause), (20, 12, p.rsvd / 2 ^ 3), (32, 16, p.srcRank), (48, 16, p.dstRank), (64, 16, p.tag),
    (80, 6, p.len), (86, 10, p.rsvd / 2 ^ 15), (96, 64, p.jva), (160, 96, p.rsvd / 2 ^ 25)]) ++ p.data

/-- The remote-memory packet of a byte string. -/
def RmPacket.ofBytes (bs : List Byte) : RmPacket :=
  let w := natAt bs 0 32
  { opc := field w 0 4, dtype := field w 8 3, cache := w.testBit 11, combined := w.testBit 12, cause := field w 16 4,
    srcRank := field w 32 16, dstRank := field w 48 16, tag := field w 64 16, len := field w 80 6, jva := field w 96 64,
    version := field w 4 4,
    rsvd := field w 13 3 + field w 20 12 * 2 ^ 3 + field w 86 10 * 2 ^ 15 + field w 160 96 * 2 ^ 25, data := bs.drop 32 }

/-- The bytes of a collective packet (R280): VERSION is 1. -/
def CollPacket.bytes (p : CollPacket) : List Byte :=
  leBytes 32 (packed [(0, 4, p.kind), (4, 4, 1), (8, 4, p.phase), (12, 4, p.cause), (16, 10, p.group), (32, 32, p.seqNo),
    (64, 16, p.srcOrd), (80, 16, p.dstOrd), (96, 32, p.chunk), (128, 17, p.data.length), (160, 32, p.crc)]) ++ p.data

/-- The collective packet of a byte string. -/
def CollPacket.ofBytes (bs : List Byte) : CollPacket :=
  let w := natAt bs 0 32
  { kind := field w 0 4, phase := field w 8 4, cause := field w 12 4, group := field w 16 10, seqNo := field w 32 32,
    srcOrd := field w 64 16, dstOrd := field w 80 16, chunk := field w 96 32, crc := field w 160 32, data := bs.drop 32 }

/-- The bytes of a DX packet (R386): KIND 1 a request, 2 a response; VERSION is 1. -/
def DxHdr.bytes (h : DxHdr) (kind : Nat) (payload : List Byte) : List Byte :=
  leBytes 32 (packed [(0, 4, kind), (4, 4, 1), (8, 4, h.cmd), (12, 1, h.shadow.toNat), (13, 1, h.final.toNat), (16, 8, h.sub),
    (24, 16, h.index), (40, 16, h.seqNo), (64, 32, h.offset), (96, 32, h.len), (128, 32, h.abort), (160, 13, payload.length)]) ++
    payload

/-- The DX header that begins a byte string. -/
def DxHdr.ofBytes (bs : List Byte) : DxHdr :=
  let w := natAt bs 0 32
  { cmd := field w 8 4, shadow := w.testBit 12, final := w.testBit 13, sub := field w 16 8, index := field w 24 16,
    seqNo := field w 40 16, offset := field w 64 32, len := field w 96 32, abort := field w 128 32 }

/-! ### Notices and other management messages -/

/-- A notice of R472. -/
structure NoticeHdr where
  kind     : Nat
  cause    : Nat
  tag      : Nat
  lane     : Nat
  position : Nat
  gen      : Nat
  cb       : Nat
  copyLen  : Nat
deriving DecidableEq, Repr

/-- The 32 B notice header (R472): VERSION is 1. -/
def NoticeHdr.bytes (h : NoticeHdr) : List Byte :=
  leBytes 32 (packed [(0, 4, h.kind), (4, 4, 1), (8, 8, h.cause), (32, 32, h.tag), (64, 8, h.lane), (72, 24, h.position),
    (96, 16, h.gen), (128, 64, h.cb), (192, 8, h.copyLen)])

/-- The notice header that begins a byte string. -/
def NoticeHdr.ofBytes (bs : List Byte) : NoticeHdr :=
  let w := natAt bs 0 32
  { kind := field w 0 4, cause := field w 8 8, tag := field w 32 32, lane := field w 64 8, position := field w 72 24,
    gen := field w 96 16, cb := field w 128 64, copyLen := field w 192 8 }

/-- The bytes of a management message: notices as R472 lays them out, DX packets as R386 does, and 32 B of any other, whose
layout the manual does not publish (assumption 136). -/
def MgmtMsg.bytes : MgmtMsg → List Byte
  | .cancel tag gen cb => NoticeHdr.bytes ⟨8, 0, tag, 0, 0, gen, cb, 0⟩
  | .undeliverable cause copy => NoticeHdr.bytes ⟨9, cause, 0, 0, 0, 0, 0, copy.length⟩ ++ padTo ((copy.length + 7) / 8 * 8) copy
  | .endNotice tag lane position gen cause => NoticeHdr.bytes ⟨10, cause, tag, lane, position, gen, 0, 0⟩
  | .dxRequest h d => h.bytes 1 d
  | .dxResponse h d => h.bytes 2 d
  | m => (List.range 32).map (Config.mgmtByte m)

/-! ### Packets -/

/-- Bytes of a packet's body, its class header included (R92, R253, R280, R386, R472). -/
def Body.size : Body → Nat
  | .beat p => 32 + p.payloadLen
  | .rm p => 32 + p.data.length
  | .coll p => 32 + p.data.length
  | .mgmt (.dxRequest _ d) => 32 + d.length
  | .mgmt (.dxResponse _ d) => 32 + d.length
  | .mgmt (.undeliverable _ copy) => 32 + max copy.length ((copy.length + 7) / 8 * 8)
  | .mgmt _ => 32

/-- The bytes of a packet's body. -/
def Body.bytes : Body → List Byte
  | .beat p => p.bytes
  | .rm p => p.bytes
  | .coll p => p.bytes
  | .mgmt m => m.bytes

/-- Bytes of a packet: routing header, multicast extension (R227, R237) and body. -/
def packetBytes (p : Packet) : Nat := 8 + (if p.route.mc then extBytes p.members.length else 0) + Body.size p.body

/-- A packet's bytes as they travel. -/
def Packet.bytes (p : Packet) : List Byte :=
  p.route.bytes ++ (if p.route.mc then mcExtension p.mask p.members else []) ++ p.body.bytes

/-- Flits of a packet (R213, R235). -/
def packetFlits (p : Packet) : Nat := (packetBytes p + 243) / 244

/-- What an undeliverable notice copies of a packet: its first 168 bytes, or all of it (R472). -/
def copyOf (p : Packet) : List Byte := p.bytes.take 168

/-- What stands in a copied packet after its routing header and extension. -/
def copiedBody (copy : List Byte) : List Byte :=
  if (RouteHdr.ofBytes copy).mc then copy.drop (8 + extBytes (popCount 64 (natAt copy 8 8))) else copy.drop 8

end Sys2Proof

namespace Sys2Proof.Machine

/-! ### Flits (R217) -/

/-- The fields of a flit header (R217). -/
structure FlitHdr where
  seqNo : Nat
  type  : Nat
  vc    : Nat
  sop   : Bool
  eop   : Bool
  fill  : Nat
  ack   : Nat
  ackV  : Bool
  trunc : Bool
deriving DecidableEq, Repr

/-- The number a flit header is. -/
def FlitHdr.word (h : FlitHdr) : Nat :=
  packed [(0, 16, h.seqNo), (16, 3, h.type), (19, 4, h.vc), (23, 1, h.sop.toNat), (24, 1, h.eop.toNat), (25, 8, h.fill), (33, 16, h.ack),
    (49, 1, h.ackV.toNat), (50, 1, h.trunc.toNat)]

/-- A flit: header, payload padded with zeros, and the CRC-32 of both. -/
def flitOf (h : FlitHdr) (payload : List Byte) : List Byte :=
  let b := leBytes 8 h.word ++ padTo 244 payload
  b ++ leBytes 4 (crc32 b)

/-- The header of a flit. -/
def flitHdr (f : List Byte) : FlitHdr :=
  let w := natAt f 0 8
  { seqNo := field w 0 16, type := field w 16 3, vc := field w 19 4, sop := w.testBit 23, eop := w.testBit 24, fill := field w 25 8,
    ack := field w 33 16, ackV := w.testBit 49, trunc := w.testBit 50 }

/-- The payload a flit carries: what FILL names in a last flit, nothing where it truncates, and 244 B otherwise. -/
def flitPayload (f : List Byte) : List Byte :=
  let h := flitHdr f
  if h.trunc then [] else bytesAt f 8 (if h.eop then h.fill % 244 + 1 else 244)

/-- Whether a flit is whole: 256 B, and its CRC-32 holds over bytes 0 to 251 (R217). -/
def flitOk (f : List Byte) : Bool := f.length == 256 && natAt f 252 4 == crc32 (f.take 252)

/-- The bytes of a data flit that carries an acknowledgement. -/
def SentFlit.bytes (f : SentFlit) (ack : Nat) (ackV : Bool) : List Byte :=
  let payload := if f.trunc then [] else bytesAt (f.pkt.bytes.drop (244 * f.index)) 0 (min 244 (packetBytes f.pkt - 244 * f.index))
  let last := f.trunc || decide (packetFlits f.pkt ≤ f.index + 1)
  flitOf ⟨f.seqNo, 1, f.vc, f.index == 0, last, if last then payload.length - 1 else 0, ack, ackV, f.trunc⟩ payload

end Sys2Proof.Machine
end

