-- ==== Sys2Proof/Machine/Ops.lean ====
section
/-! DEFINITION. The shared operations over the state: reading and writing dictionary numbers and byte strings, counters
and their latch (R59), hall time and ticks (R36), ranks and addresses (R225, R226), sending packets, reports and device
faults (R361, R432, R434), in-band interrupts (R391) and free values. -/

namespace Sys2Proof.Machine

/-! ### Rows of the dictionary -/

/-- The number of a role: O 0, M 1, T 2, B 3 (R68, R378). -/
def roleNum : Role → Nat
  | .op => 0
  | .mgr => 1
  | .ten => 2
  | .brd => 3

/-- The row of an index and sub-index, if the dictionary lists it (R370). -/
def findRow (index sub : Nat) : Option ObjRow :=
  catalogue.find? (fun r => decide (r.index ≤ index) && decide (index ≤ r.last) && decide (r.sub ≤ sub) &&
    decide (sub ≤ r.subLast))

/-- Whether an index exists. -/
def indexExists (index : Nat) : Bool :=
  catalogue.any (fun r => decide (r.index ≤ index) && decide (index ≤ r.last))

/-- The highest sub-index of an index whose objects start at sub-index 1 (R370): none where its object stands at 0. -/
def highestSub (index : Nat) : Option Nat :=
  let rows := catalogue.filter (fun r => decide (r.index ≤ index) && decide (index ≤ r.last))
  if rows.isEmpty || rows.any (fun r => r.sub == 0) then none
  else some (rows.foldl (fun m r => max m r.subLast) 0)

/-- The level R222 wires a port to. -/
def portLevel (p : Nat) : Nat := if p < 30 then 1 else if p < 46 then 2 else if p < 53 then 3 else 4

/-- The default of a number: its row's, and PORT_CFG's by port: EN 1, ROLE by R222, RETRY_LIMIT 16 (R247). -/
def regDefault (k : Nat) : Nat :=
  if keySub k = 1 ∧ 0x2300 ≤ keyIndex k ∧ keyIndex k < 0x233C then 1 + 2 * portLevel (keyIndex k - 0x2300) + 16 * 256
  else match findRow (keyIndex k) (keySub k) with
    | some r => r.dflt
    | none => 0

/-- The default of a byte string: CLIP_THRESH holds 65,536 in every slot (R172), a table of fixed length is zeros, any
other is empty. -/
def domDefault (k : Nat) : Blob :=
  if keyIndex k = 0x6400 ∧ keySub k = 2 then
    ⟨1024, (List.range 256).map (fun i => (4 * i + 2, (1 : Byte)))⟩
  else match findRow (keyIndex k) (keySub k) with
    | some r => if r.empties then Blob.empty else if r.fixed then Blob.zeros r.maxLen else Blob.empty
    | none => Blob.empty

/-! ### Numbers and byte strings -/

/-- The live value of a number. -/
def State.reg (s : State) (k : Nat) : Nat := (mapGet k s.regs).getD (regDefault k)

/-- The state with a number's live value set. -/
def State.setReg (s : State) (k v : Nat) : State := { s with regs := mapSet k v s.regs }

/-- The live value of a byte string. -/
def State.dom (s : State) (k : Nat) : Blob := (mapGet k s.doms).getD (domDefault k)

/-- The state with a byte string's live value set. -/
def State.setDom (s : State) (k : Nat) (b : Blob) : State := { s with doms := mapSet k b s.doms }

/-- A U32 counter raised by n, modulo 2^32. -/
def State.count (s : State) (k n : Nat) : State := s.setReg k (wrapAdd 32 (s.reg k) n)

/-- A U64 counter raised by n. -/
def State.count64 (s : State) (k n : Nat) : State := s.setReg k (wrapAdd 64 (s.reg k) n)

/-- A number as last latched at a tick (R59). -/
def State.latched (s : State) (k : Nat) : Nat := (mapGet k s.latch).getD (regDefault k)

/-- Whether a number is read as a latched shadow. -/
def isLatched (k : Nat) : Bool :=
  match findRow (keyIndex k) (keySub k) with
  | some r => r.latched
  | none => false

/-- A table as last latched at a tick (R59). -/
def State.latchedDom (s : State) (k : Nat) : Blob := (mapGet k s.latchDoms).getD (domDefault k)

/-- The latch takes the value of every counter and of every table of counts (R45 steps 1 to 4). -/
def State.takeLatch (s : State) : State :=
  { s with latch := s.regs.filter (fun e => isLatched e.1), latchDoms := s.doms.filter (fun e => isLatched e.1) }

/-! ### What late work runs under (R68, R83, R127) -/

/-- Beats from a packet's BEAT to the running beat, modulo 2^32; values from 2^31 up stand for a BEAT yet to come. -/
def State.age (s : State) (b : Nat) : Nat := (s.reg Reg.beatNumber + 2 ^ 32 - b % 2 ^ 32) % 2 ^ 32

/-- The state with the values that a commit replaced. -/
def State.under (s : State) (p : Prior) : State :=
  { s with regs := p.regs.foldl (fun m e => mapSet e.1 e.2 m) s.regs,
           doms := p.doms.foldl (fun m e => mapSet e.1 e.2 m) s.doms }

/-- The state as the work of a beat sees its settings: without the commits that applied after that beat's tick. -/
def State.asOf (s : State) (b : Nat) : State :=
  (s.prior.filter (fun p => decide (s.age p.beat < s.age b) && decide (s.age b < 2 ^ 31))).foldl State.under s

/-- The state as a token's stage 2 sees it: with the tables it began with (R68). -/
def State.stageView (s : State) (t : TokenId) : State := (s.prior.filter (fun p => p.toks.contains t)).foldl State.under s

/-- A token's stage 2 has ended: it reads no former tables any more. -/
def State.leaveTables (s : State) (t : TokenId) : State :=
  { s with prior := s.prior.map (fun p => { p with toks := p.toks.filter (fun x => x != t) }) }

/-- The key of an object that holds one value per role (R372). -/
def perRole (k : Nat) (r : Role) : Nat := k + roleNum r

/-- A fresh free value's argument: the model's own counter, and the state with it advanced. -/
def State.fresh (s : State) : Nat × State := (s.free, { s with free := s.free + 1 })

/-- n free values drawn. -/
def State.draws (s : State) (n : Nat) : State := { s with free := s.free + n }

/-! ### Identity, partition and beat -/

/-- The device address in effect (R225). -/
def State.here (s : State) : Nat := s.reg Reg.locationActive

/-- The running partition state (R356). -/
def State.part (s : State) : Nat := s.reg Reg.partState

/-- No beat is running (R55). -/
def State.noBeat (s : State) : Bool := !s.time.anchored || s.part == 0 || s.part == 1

/-- The beat now running. -/
def State.beatNow (s : State) : Nat := s.reg Reg.beatNumber

/-- The hall time of tick k (R36); the anchor's own time for any k not above the anchor beat. -/
def State.tickTime (s : State) (k : Nat) : Nat :=
  s.reg Reg.anchorTime + (k - s.reg Reg.anchorBeat) * s.reg Reg.beatPeriod

/-- The length of the maintenance slot for a period (R42). -/
def maintLen (p : Nat) : Nat := max 20 (p / 50)

/-- Whether core c is enabled (R5). -/
def State.coreOn (s : State) (c : Nat) : Bool := decide (c < 128) && s.nv.factory.coreMap.testBit c

/-- A core's own work: a disabled core does none (R3, R186). -/
def State.onCore (s : State) (c : Nat) (t : State) : State := if s.coreOn c then t else s

/-- The state of core c. -/
def State.core (s : State) (c : Nat) : Core := mapGetD Core.empty c s.cores

/-- The state with core c set. -/
def State.setCore (s : State) (c : Nat) (k : Core) : State := { s with cores := mapSet c k s.cores }

/-- The state with core c changed. -/
def State.updCore (s : State) (c : Nat) (f : Core → Core) : State := s.setCore c (f (s.core c))

/-- The tenant slot that runs, 0xFF for none (R350). -/
def State.slotNow (s : State) : Nat := s.reg Reg.runningSlot

/-- The tenant of the running slot, 0 where none runs. -/
def State.tenantNow (s : State) : Nat := (mapGetD TenantSlot.empty s.slotNow s.slots).tenant

/-! ### Ranks and addresses -/

/-- A physical endpoint address (R225). -/
def physAddr (dev cluster func : Nat) : Nat := dev * 64 + cluster % 16 * 4 + func % 4

/-- The device of a physical address. -/
def physDev (a : Nat) : Nat := a / 64 % 16384

/-- The cluster of a physical address. -/
def physCluster (a : Nat) : Nat := a / 4 % 16

/-- The record of a rank: its device address where the rank is below RANK_COUNT and VALID (R226). -/
def State.rankRecord (s : State) (rank : Nat) : Option Nat :=
  let w := (s.dom Reg.rankTable).nat (4 * rank) 4
  if rank < s.reg Reg.rankCount ∧ w.testBit 31 then some (field w 6 14) else none

/-- The stand-in of a lost rank, by the live STANDIN records (R364). -/
def State.standInOf (s : State) (rank : Nat) : Option Nat :=
  let b := s.dom Reg.standin
  ((List.range (b.len / 4)).find? (fun i => b.nat (4 * i) 2 == rank)).map (fun i => b.nat (4 * i + 2) 2)

/-- The device a rank is translated to at injection (R226, R364). -/
def State.rankDev (s : State) (rank : Nat) : Option Nat :=
  match s.rankRecord rank with
  | none => none
  | some d =>
    match s.standInOf rank with
    | some r => s.rankRecord r
    | none => some d

/-- The rank of this device (R226): the valid rank whose DEVADDR is LOCATION_ACTIVE. -/
def State.myRankOpt (s : State) : Option Nat :=
  (List.range (s.reg Reg.rankCount)).find? (fun n => s.rankRecord n == some s.here)

/-- MY_RANK as a number, 0 where the device holds no rank. -/
def State.myRank (s : State) : Nat := s.myRankOpt.getD 0

/-- Whether a packet for `rank` is for this device: its own rank, or a lost rank it stands in for (R364). -/
def State.servesRank (s : State) (rank : Nat) : Bool := rank == s.myRank || s.standInOf rank == some s.myRank

/-- The cause that a path's highest level gives (R49, R267): 1 on the same device, 2 in the quad, 3 in the rack, 4 in the
row, 5 in the hall. -/
def pathCause (here there : Nat) : Nat :=
  if here = there then 1
  else if here / 4 = there / 4 then 2
  else if here / 64 = there / 64 then 3
  else if here / 1024 = there / 1024 then 4
  else 5

/-- The rank of a list that lies farthest from this device, the device's own where none has a record (R282). -/
def State.farthest (s : State) (ranks : List Nat) : Nat :=
  let far := fun r => pathCause s.here ((s.rankDev r).getD s.here)
  ranks.foldl (fun b r => if far b < far r then r else b) s.myRank

/-- Whether a swap has reached its epoch tick and the outgoing tenant's state is still the device's (R268, R282). -/
def State.leaving (s : State) : Bool := decide (2 ≤ s.swap.phase) && decide (s.swap.phase ≤ 5)

/-! ### The timebase (R29 to R33) -/

/-- REF_MISSING (R34): the board reference is selected and absent. -/
def State.refMissing (s : State) : Bool := s.reg Reg.refSelect == 1 && s.package.brefLost

/-- The ns in which the projected bound of HOLDOVER grows by 1 ps (R33): 2,000 at 0.5 ppm, with the board reference
selected and present, and 200 at 5 ppm otherwise. -/
def State.driftNs (s : State) : Nat := if s.reg Reg.refSelect = 1 ∧ !s.package.brefLost then 2000 else 200

/-- The error bound against the hall reference in ps, projected forward in HOLDOVER (R33). -/
def State.boundNow (s : State) : Nat :=
  let t := s.time
  if s.reg Reg.timeState < 3 then t.boundPs else t.boundPs + (t.hallTime - t.measuredAt + s.driftNs - 1) / s.driftNs

/-- The timebase enters HOLDOVER (R31, R32). -/
def State.enterHoldover (s : State) : State :=
  ({ s with time := { s.time with goodRun := 0 } }.setReg Reg.timeState 3).count Reg.holdoverCount 1

/-! ### Sending -/

/-- A packet goes to the source Junction, which will route it (R232). -/
def State.inject (s : State) (p : Packet) : State := { s with fabric := { s.fabric with inject := s.fabric.inject ++ [p] } }

/-- The routing header that the source Junction writes (R227, R228). -/
def State.routeHdr (s : State) (dev cluster srcCluster func cls : Nat) : RouteHdr :=
  { dst := physAddr dev cluster func, src := physAddr s.here srcCluster func, job := s.reg Reg.jobId, cls := cls,
    mc := false, down := false, lastLevel := 0 }

/-- A packet for a rank: refused at the source and counted in BAD_RANK where the rank has no record (R226). -/
def State.sendRank (s : State) (rank cluster srcCluster func cls : Nat) (b : Body) : State :=
  match s.rankDev rank with
  | none => s.count Reg.badRank 1
  | some d => s.inject ⟨s.routeHdr d cluster srcCluster func cls, 0, [], b⟩

/-- A management message of class 5 to a device, with JOB 0 (R227, R246). -/
def State.sendMgmt (s : State) (dev : Nat) (m : MgmtMsg) : State :=
  s.inject ⟨{ s.routeHdr dev 0 0 3 5 with job := 0 }, 0, [], .mgmt m⟩

/-- A notice that carries the job's JOB, to a rank (R472). -/
def State.sendNotice (s : State) (rank : Nat) (m : MgmtMsg) : State := s.sendRank rank 0 0 3 5 (.mgmt m)

/-! ### Reports, faults and interrupts -/

/-- The I3C target raises an in-band interrupt for event n when I3C_IBI enables it (R391). -/
def State.ibi (s : State) (n : Nat) : State :=
  if (s.reg Reg.i3cIbi).testBit (n - 1) ∧ s.reg Reg.i3cEn = 1 ∧ s.host.i3c.answering then
    { s with host := { s.host with i3c := { s.host.i3c with ibis := s.host.i3c.ibis ++ [n] } } }
  else s

/-- A report joins FAULT_LOG, which keeps the latest 64, and is counted (R368, R369, R432). -/
def State.logReport (s : State) (kind mid cause : Nat) : State :=
  let log := s.manager.faultLog ++ [[kind, mid, cause, s.time.hallTime]]
  ({ s with manager := { s.manager with faultLog := log.drop (log.length - 64) } }).count Reg.faultReports 1

/-- A report is logged and sent to the device's manager, where it has one (R361, R432). -/
def State.report (s : State) (kind mid cause : Nat) : State :=
  let s := s.logReport kind mid cause
  if s.reg Reg.mgrState = 1 then s.sendMgmt (s.reg Reg.managerLoc) (.report kind mid cause) else s

/-! ### Dictionary sessions (R376, R380, R385) -/

/-- The session of block b: O 0, M 1, T 2, B 3. -/
def State.session (s : State) (b : Nat) : Session := mapGetD Session.idle b s.host.sessions

/-- The state with a session set. -/
def State.setSession (s : State) (b : Nat) (x : Session) : State :=
  { s with host := { s.host with sessions := mapSet b x s.host.sessions } }

/-- Whether a session holds a transfer. -/
def Session.busy (x : Session) : Bool := x.state == 1 || x.state == 2

/-- What a write transfer that does not complete leaves behind: a bank it was loading is INVALID (R199), and a firmware
update FAILED (R425). -/
def State.abandon (s : State) (x : Session) : State :=
  if x.cmd ≠ 2 ∨ !x.busy ∨ x.remote.isSome then s
  else if 0x4000 ≤ x.index ∧ x.index < 0x4080 ∧ (x.sub = 1 ∨ x.sub = 2) then
    let bad : Bank := { Bank.empty with state := 3 }
    s.updCore (x.index - 0x4000) (fun k => if x.sub = 1 then { k with bank0 := bad } else { k with bank1 := bad })
  else if x.index = 0x1014 ∧ x.sub = 5 then s.setReg Reg.fwUpdateState 4
  else s

/-- A transfer ends (R385): DONE with code 0, else ERROR with its code in DX_ABORT and LAST_ABORT, counted. -/
def State.endTransfer (s : State) (b code : Nat) : State :=
  let x := s.session b
  let s := s.setSession b { x with state := if code = 0 then 3 else 4, abort := code, words := 0, left := 0, data := [],
                                   remote := none, asked := false }
  if code = 0 then s else (s.setReg (Reg.lastAbort (b + 1)) code).count Reg.dxErrors 1

/-- A transfer that has not completed ends in ERROR. -/
def State.failTransfer (s : State) (b code : Nat) : State := (s.abandon (s.session b)).endTransfer b code

/-- A transfer in the tenant block ends when its slot leaves RUNNING or its bind changes (R378, R385). -/
def State.endTenantTransfer (s : State) : State :=
  if (s.session 2).busy then s.failTransfer 2 (7 * 65536 + 0x80) else s

/-! ### Device-fatal errors -/

/-- A device-fatal error stops a running swap at its step (R437): an outgoing slot whose save had not completed becomes
SWAP_FAILED. Causes 3 and 4 are the swap's own (R341). -/
def State.stopSwap (s : State) (cause : Nat) : State :=
  if s.swap.phase < 2 ∨ 5 < s.swap.phase ∨ cause = 3 ∨ cause = 4 then s
  else
    let i := s.slotNow
    let s := { s with swap := { s.swap with phase := 0 } }
    if i = 0xFF then s
    else
      let t := mapGetD TenantSlot.empty i s.slots
      let s := (if s.reg Reg.sessionBind = i then s.endTenantTransfer else s)
      ({ s with slots := mapSet i { t with state := 4 } s.slots }).setReg Reg.runningSlot 0xFF

/-- A device-fatal error (R431 class 4, R433, R434): reported with its cause, event 3 raised, and no beat work accepted
from the next tick on. The cause is kept until it clears (R366). -/
def State.deviceFatal (s : State) (cause : Nat) : State :=
  let s := ((s.stopSwap cause).report 3 0 cause).ibi 3
  { s with manager := { s.manager with causes := if s.manager.causes.contains cause then s.manager.causes
                                                 else s.manager.causes ++ [cause],
                                       mgmtDead := s.manager.mgmtDead || cause == 6 },
           beat := { s.beat with holdNext := true } }

/-- A class 3 error: TENANT_ERROR to the manager (R431, R432). -/
def State.tenantFault (s : State) (unit cause : Nat) : State := s.report 4 unit cause

/-- BOOT_STAGE changes, with its in-band interrupt (R391, R448). -/
def State.setBoot (s : State) (v : Nat) : State :=
  if s.reg Reg.bootStage = v then s else (s.setReg Reg.bootStage v).ibi 4

/-! ### Results of a write -/

/-- What a dictionary access answers: an abort code, 0 for success (R393), and the state it leaves. -/
abbrev Result := Nat × State

/-- An abort code (R393). -/
def abortCode (cls detail : Nat) : Nat := cls * 65536 + detail

/-- The first check that fails, in the order of the list: its abort code; 0 where none fails. -/
def firstFail : List (Bool × Nat) → Nat
  | [] => 0
  | (bad, code) :: cs => if bad then code else firstFail cs

end Sys2Proof.Machine
end

