-- ==== Sys2Proof/Machine/Operands.lean ====
section
/-! DEFINITION. The operand forms: the records of the tables a command reads (layer slots R65, Platforms R86 and R117,
predictor R123), the operands of an engine slot (R192), event counters and comparators (R193, R194), and the reads of
scratchpad, shared SRAM and tiles. -/

namespace Sys2Proof.Machine

/-! ### Layer-slot records (R65) -/

/-- A layer-slot record's fields. -/
structure LayerSlot where
  experts   : Nat
  groups    : Nat
  topGroups : Nat
  topK      : Nat
  direct    : Bool
  striped   : Bool
  bf16      : Bool
  norm      : Nat
  biasEn    : Bool
  kvSel     : Bool
  width     : Nat
  kvTopk    : Nat
  kvForce   : Nat
  gateScale : FP32
deriving DecidableEq, Repr, Inhabited

/-- The record of slot s in LAYER_SLOT_CFG content b. -/
def layerSlotOf (b : Blob) (s : Nat) : LayerSlot :=
  let w := b.nat (16 * s) 16
  { experts := field w 0 16, groups := field w 16 9, topGroups := field w 32 4, topK := field w 40 5,
    direct := w.testBit 48, striped := w.testBit 49, bf16 := w.testBit 50, norm := field w 51 2,
    biasEn := w.testBit 53, kvSel := w.testBit 54, width := field w 64 15, kvTopk := field w 80 7,
    kvForce := field w 88 3, gateScale := BitVec.ofNat 32 (field w 96 32) }

/-- The live record of a layer slot. -/
def State.layerSlot (s : State) (n : Nat) : LayerSlot := layerSlotOf (s.dom Reg.layerSlotCfg) n

/-- Bytes of an element of the slot's tables (R67). -/
def LayerSlot.eltBytes (l : LayerSlot) : Nat := if l.bf16 then 2 else 1

/-- Gt of R67. -/
def LayerSlot.groupRows (l : LayerSlot) : Nat := if 1 < l.groups then l.groups else 0

/-- Experts of one group. -/
def LayerSlot.perGroup (l : LayerSlot) : Nat := l.experts / l.groups

/-- The key of a per-slot table object for a layer slot (R473). -/
def slotKey (k slot : Nat) : Nat := k + slot

/-! ### Predictor and Platform execution records -/

/-- A PRED_CFG record's fields (R123). -/
structure PredRec where
  en       : Bool
  granules : Nat
  maxGran  : Nat
  thresh   : FP32
  eps      : FP32
deriving DecidableEq, Repr, Inhabited

/-- The record of layer slot s in PRED_CFG content b. -/
def predRecOf (b : Blob) (s : Nat) : PredRec :=
  let w := b.nat (16 * s) 16
  { en := w.testBit 0, granules := field w 8 8, maxGran := field w 16 8, thresh := BitVec.ofNat 32 (field w 32 32),
    eps := BitVec.ofNat 32 (field w 64 32) }

/-- A PLATFORM_RES record's fields (R117). -/
structure PlatRes where
  cls     : Nat
  pred    : Bool
  imageId : Nat
  segCost : Nat
  spBase  : Nat
  va      : Nat
deriving DecidableEq, Repr, Inhabited

/-- The record of Platform slot p in PLATFORM_RES content b. -/
def platResOf (b : Blob) (p : Nat) : PlatRes :=
  let w := b.nat (16 * p) 16
  { cls := field w 0 2, pred := w.testBit 2, imageId := field w 8 16, segCost := field w 24 8, spBase := field w 32 32,
    va := field w 64 64 }

/-- The place a record names: SP_BASE or WEIGHT_VA by its class (R119). -/
def PlatRes.place (r : PlatRes) : Nat := if r.cls = 0 then r.spBase else r.va

/-! ### Counters and comparators of a core (R193, R194) -/

/-- Whether counter i of a core is PERSISTENT. -/
def Core.isPersist (k : Core) (i : Nat) : Bool := k.persist.getD i false

/-- The key of the copy of counter i that beat n uses. -/
def Core.ctrKey (k : Core) (i n : Nat) : Nat := 2 * i + (if k.isPersist i then 0 else n % 2)

/-- Counter i for beat n. -/
def Core.ctr (k : Core) (i n : Nat) : Nat := mapGetD 0 (k.ctrKey i n) k.ctrs

/-- A source write of counter i for beat n. -/
def Core.setCtr (k : Core) (i n v : Nat) : Core := { k with ctrs := mapSet (k.ctrKey i n) (v % 2 ^ 32) k.ctrs }

/-- An increment of counter i for beat n. -/
def Core.incCtr (k : Core) (i n : Nat) : Core := k.setCtr i n (k.ctr i n + 1)

/-- The PER_BEAT copies of beat n's parity cleared (R193). -/
def Core.clearCtrs (k : Core) (n : Nat) : Core :=
  { k with ctrs := (List.range 8).foldl (fun m i => if k.isPersist i then m else mapDel (2 * i + n % 2) m) k.ctrs }

/-- A setting's truth for beat n, unsigned (R194). -/
def Core.cmpTrue (k : Core) (c : CmpSetting) (n : Nat) : Bool :=
  let a := k.ctr c.ctr n
  let b := match c.rhs with
    | .imm v => v
    | .ctr i => k.ctr i n
  match c.rel with
  | .eq => decide (a = b)
  | .ne => decide (a ≠ b)
  | .lt => decide (a < b)
  | .ge => decide (b ≤ a)

/-- Comparator i of the running invocation; an undefined one is false (the loader refuses it, R207). -/
def Core.cpTrue (k : Core) (i : Nat) : Bool :=
  match k.seq.settings[i]? with
  | some c => k.cmpTrue c k.seq.beat
  | none => false

/-! ### Engine queues and operands (R189 to R192) -/

/-- An engine's queue. -/
def Core.queue (k : Core) : Engine → EngQueue
  | .ae => k.ae
  | .se => k.se
  | .ve => k.ve
  | .tt => k.tt
  | .mv => k.mv

/-- A core with an engine's queue set. -/
def Core.setQueue (k : Core) (e : Engine) (q : EngQueue) : Core :=
  match e with
  | .ae => { k with ae := q }
  | .se => { k with se := q }
  | .ve => { k with ve := q }
  | .tt => { k with tt := q }
  | .mv => { k with mv := q }

/-- The address of an operand at repeat i, from its register's value at the slot's start (R192), modulo 2^64. -/
def operandAddr (o : Operand) (base i : Nat) : Nat :=
  let e0 := max 1 o.e0
  let e1 := max 1 o.e1
  codeOf 64 ((base : Int) + (i % e0 : Nat) * o.s0 + (i / e0 % e1 : Nat) * o.s1 + (i / (e0 * e1) : Nat) * o.s2)

/-- The value of an address register. -/
def Core.areg (k : Core) (r : Nat) : Nat := mapGetD 0 r k.aregs

/-- A literal offset, or operand k of the engine's running slot at its current repeat; 0 where it has none. -/
def Core.addr (k : Core) (e : Engine) : Addr → Nat
  | .lit a => a
  | .opnd i =>
    match (k.queue e).active with
    | none => 0
    | some a =>
      match a.slot.operands[i]? with
      | none => 0
      | some o => operandAddr o (a.bases.getD i 0) a.begun

/-! ### Stores -/

/-- Bytes of a scratchpad: 3 MiB (R11). -/
def scratchBytes : Nat := 3145728

/-- Bytes of a cluster's shared SRAM cache: 4 MiB beside the cell pool (R11, R288). -/
def cacheBytes : Nat := 4194304

/-- n bytes of a core's scratchpad. -/
def Core.spRead (k : Core) (a n : Nat) : List Byte := memRead k.scratch a n

/-- Whether a poisoned word lies in [a, a + n) of the scratchpad (R435). -/
def Core.spBad (k : Core) (a n : Nat) : Bool := (wordsOf a n).any (fun w => k.scratchBad.contains w)

/-- A core with bytes written to its scratchpad; a write of a whole word clears its poison (R435). Bytes past the
scratchpad's end are not written. -/
def Core.spWrite (k : Core) (a : Nat) (bs : List Byte) : Core :=
  let bs := bs.take (scratchBytes - a)
  { k with scratch := memWrite k.scratch a bs,
           scratchBad := k.scratchBad.filter (fun w => !((wholeWords a bs.length).contains w)) }

/-- n FP32 values from the scratchpad; a value in a poisoned word is a NaN (R435). -/
def Core.spF32 (k : Core) (a n : Nat) : List FP32 :=
  (List.range n).map (fun i =>
    if k.scratchBad.contains ((a + 4 * i) / 8) then fNaN else BitVec.ofNat 32 (leNat (k.spRead (a + 4 * i) 4)))

/-- n BF16 values from the scratchpad. -/
def Core.spB16 (k : Core) (a n : Nat) : List BF16 :=
  (List.range n).map (fun i =>
    if k.scratchBad.contains ((a + 2 * i) / 8) then 0x7FC0 else BitVec.ofNat 16 (leNat (k.spRead (a + 2 * i) 2)))

/-- The shared SRAM of a cluster. -/
def State.sharedMem (s : State) (k : Nat) : Memory := mapGetD [] k s.tiers.shared

/-- The state with bytes written to a cluster's shared SRAM; a whole word written clears its poison. -/
def State.sharedWrite (s : State) (k a : Nat) (bs : List Byte) : State :=
  { s with tiers := { s.tiers with
      shared := mapSet k (memWrite (s.sharedMem k) a bs) s.tiers.shared,
      sharedBad := s.tiers.sharedBad.filter (fun w => !(w.1 == k && (wholeWords a bs.length).contains w.2)) } }

/-- Whether a poisoned word lies in a range of a cluster's shared SRAM. -/
def State.sharedBadIn (s : State) (k a n : Nat) : Bool := (wordsOf a n).any (fun w => s.tiers.sharedBad.contains (k, w))

/-- The bytes of n packed elements that start on a byte boundary (R145). -/
def packedBytes (f : EltFmt) (n : Nat) : Nat := (n * eltBits f + 7) / 8

/-! ### Operand pairs and arrangements (R133, R134, R142) -/

/-- The class of an operand pair (R133). -/
inductive PairClass where
  | bits4 | bits2 | bits8 | bf16
deriving DecidableEq, Repr, Inhabited

/-- A format of 4 bits (R142). -/
def isFour (f : EltFmt) : Bool := f == .fp4 || f == .int4

/-- A format of 2 bits. -/
def isTwo (f : EltFmt) : Bool := f == .int2 || f == .ternary

/-- A format of 6 or 8 bits. -/
def isEight (f : EltFmt) : Bool := f == .e2m3 || f == .e3m2 || f == .e4m3 || f == .e5m2 || f == .mxint8

/-- The class of a weight and an activation format, none where the AE does not accept the pair (R142). -/
def pairClass (w a : EltFmt) : Option PairClass :=
  if isFour w && isFour a then some .bits4
  else if isTwo w && isFour a then some .bits2
  else if (isFour w || isTwo w) && isEight a then some .bits8
  else if isEight w && (isFour a || isEight a) then some .bits8
  else if w == .bf16 && a == .bf16 then some .bf16
  else none

/-- The arrangements of a class: columns, depth and folds (R133). -/
def arrangements : PairClass → List (Nat × Nat × List Nat)
  | .bits4 => [(128, 128, [1, 2, 4, 8]), (512, 32, [1]), (2048, 8, [1])]
  | .bits2 => [(128, 256, [1, 2, 4]), (512, 64, [1]), (2048, 16, [1])]
  | .bits8 => [(64, 128, [1, 2, 4]), (256, 32, [1]), (1024, 8, [1])]
  | .bf16 => [(64, 64, [1])]

/-- Whether a tile has an operand pair that the AE accepts and one of its class's arrangements and folds (R133, R142). -/
def tileFits (t : TileDesc) : Bool :=
  match pairClass t.wfmt t.afmt with
  | none => false
  | some c => (arrangements c).any (fun a => a.1 == t.cols && a.2.1 == t.depth && a.2.2.contains t.fold)

/-- Whether the SE accepts an operand pair: those of R142 with a weight of 8 bits or fewer (R175). -/
def sePairOk (w a : EltFmt) : Bool := w != .bf16 && (pairClass w a).isSome

/-- Whether a Turntable vector's length is a multiple of its rotation block and of its scale block (R158). -/
def quantFits (n rot : Nat) (f : EltFmt) : Bool :=
  (rot == 0 || rot == 32 || rot == 64 || rot == 128 || rot == 256) && (rot == 0 || n % rot == 0) &&
    (f == .ternary || f == .fp32 || f == .bf16 || n % eltBlock f == 0)

/-- A BASE that a word may hold (R148). -/
def baseFits (b : Int) : Bool := decide (-128 ≤ b) && decide (b ≤ 88)

/-- BASE as an accumulator entry holds it: 9 bits of two's complement (R147). -/
def baseField (b : Int) : Int := signedOf 9 (codeOf 9 b)

end Sys2Proof.Machine
end

