-- ==== Sys2Proof/Machine/Flags.lean ====
section
/-! DEFINITION. The flag computations: the sticky bits of an accumulator entry (R147 to R149), the read-out of an entry
with its saturation and NaN rules (R152), and the FLAGS a token carries (R48, R92, R95, R104). -/

namespace Sys2Proof.Machine

/-! ### Accumulator entries (R147 to R149) -/

/-- The largest value of the 80-bit accumulator. -/
def accTop : Int := 604462909807314587353087

/-- The least value of the 80-bit accumulator. -/
def accBottom : Int := -604462909807314587353088

/-- An integer clamped to the accumulator's range: the value, whether it clamped, and the clamp's sign. -/
def accClamp (v : Int) : Int × Bool × Bool :=
  if accTop < v then (accTop, true, false) else if v < accBottom then (accBottom, true, true) else (v, false, false)

/-- A column start: ACC, SAT, NAN and SAT_NEG cleared and BASE set (R148). -/
def AccEntry.start (base : Int) (fp : Bool) : AccEntry := ⟨0, false, false, false, fp, base⟩

/-- A NaN contribution: the sticky NAN bit, nothing added (R149 step 1). -/
def AccEntry.nanned (e : AccEntry) : AccEntry := { e with nan := true }

/-- A contribution's integer q and whether rounding changed it (R149 step 2). -/
def AccEntry.quot (e : AccEntry) (c : Dy) : Int × Bool :=
  let q := Dy.mk c.m (c.e - (e.base - 40))
  (dyRoundInt q, !dyIsInt q)

/-- An integer added under step 3 of R149: the entry, and whether it clamped. -/
def AccEntry.addInt (e : AccEntry) (q : Int) : AccEntry × Bool :=
  let r := accClamp (e.acc + q)
  if r.2.1 then ({ e with acc := r.1, sat := true, satNeg := r.2.2 }, true) else ({ e with acc := r.1 }, false)

/-! ### Read-out (R152) -/

/-- What a read-out or an input hands on: kind 0 a value with sign, magnitude and exponent; 1 an infinity; 2 a NaN; 3 a
saturated entry that reads as the largest finite magnitude. -/
structure RVal where
  kind : Nat
  neg  : Bool
  mag  : Nat
  e    : Int
deriving DecidableEq, Repr, Inhabited

/-- The NaN. -/
def rNaN : RVal := ⟨2, false, 0, 0⟩

/-- An FP32 code as a read-out value. -/
def rOfF (x : FP32) : RVal :=
  if fIsNaN x then rNaN else if fIsInf x then ⟨1, fNeg x, 0, 0⟩
  else let v := fVal x; ⟨0, fNeg x, v.m.natAbs, v.e⟩

/-- The product of a value and a read-out factor. Zero times infinity is a NaN. -/
def rMul (a : RVal) (f : FP32) : RVal :=
  let b := rOfF f
  let neg := a.neg != b.neg
  if a.kind = 2 ∨ b.kind = 2 then rNaN
  else if a.kind = 1 ∨ b.kind = 1 then
    (if (a.kind = 0 ∧ a.mag = 0) ∨ (b.kind = 0 ∧ b.mag = 0) then rNaN else ⟨1, neg, 0, 0⟩)
  else ⟨0, neg, a.mag * b.mag, a.e + b.e⟩

/-- Steps 1 to 3 of R152: what an entry reads out as, with a factor, and whether it is counted in SAT_COLUMNS. -/
def AccEntry.readOut (e : AccEntry) (bad : Bool) (satRead : Nat) (f : FP32) : RVal × Bool :=
  if e.nan ∨ bad then (rNaN, false)
  else if e.sat then (if satRead = 0 then ⟨3, e.satNeg, 0, 0⟩ else rNaN, true)
  else if e.fp32 then (rMul (rOfF (BitVec.ofNat 32 e.acc.toNat)) f, false)
  else (rMul ⟨0, decide (e.acc < 0), e.acc.natAbs, e.base - 40⟩ f, false)

/-- Steps 4 and 5 of R152 for FP32. Exact zero reads out as +0. -/
def RVal.toF32 (v : RVal) (subnorm : Nat) : FP32 :=
  if v.kind = 2 then fNaN
  else if v.kind = 3 then fMaxFin v.neg
  else if v.kind = 1 then fCode v.neg 0x7F800000
  else if v.mag = 0 then 0
  else
    let r := fRound v.neg v.mag 1 v.e
    if subnorm = 1 ∧ fIsSub r then fCode v.neg 0 else r

/-- Steps 4 and 5 of R152 for BF16. -/
def RVal.toB16 (v : RVal) (subnorm : Nat) : BF16 :=
  if v.kind = 2 then 0x7FC0
  else if v.kind = 3 then bMaxFin v.neg
  else if v.kind = 1 then BitVec.ofNat 16 ((if v.neg then 2 ^ 15 else 0) + 0x7F80)
  else if v.mag = 0 then 0
  else
    let r := bOfDy ⟨if v.neg then -(v.mag : Int) else v.mag, v.e⟩
    if subnorm = 1 ∧ bIsSub r then BitVec.ofNat 16 (if v.neg then 2 ^ 15 else 0) else r

/-- Step 4 of R152 for a bare FP8 E4M3 value: the code, and whether it is counted in STAGE1_CLAMP. -/
def RVal.toE4m3 (v : RVal) : Nat × Bool :=
  let sign := if v.neg then 128 else 0
  if v.kind = 2 then (0x7F, false)
  else if v.kind = 3 then (sign + 0x7E, false)
  else if v.kind = 1 then (sign + 0x7E, true)
  else if v.mag = 0 then (0, false)
  else e4m3OfDy ⟨if v.neg then -(v.mag : Int) else v.mag, v.e⟩

/-! ### Quantising a block (R161 to R163) -/

/-- The elements that share a scale in a vector of n elements: ternary has one scale for all of them (R161). -/
def scaleBlock (f : EltFmt) (n : Nat) : Nat := if f = .ternary then max 1 n else eltBlock f

/-- The NaN code of an element format that has one (R163). -/
def eltNaN (f : EltFmt) : Nat :=
  if f = .e4m3 then 0x7F else 0x7D + Config.nanE5M2 % 3 + (if Config.nanE5M2 / 3 % 2 = 1 then 128 else 0)

/-- One block quantised (R162, R163): element codes, output scale, clipped elements, and whether it took a NaN. R163 speaks of a NaN
input or factor: a supplied scale that is itself the NaN code, or lies in a poisoned word, makes the block a NaN block too (DESIGN
CHOICE, assumption 127). -/
def quantBlock (f : EltFmt) (sc : Nat) (xs : List RVal) : List Nat × Nat × Nat × Bool :=
  let sv := scaleVal f sc
  let nan := sv.isNone || xs.any (fun x => x.kind == 2)
  if nan ∧ ¬(f = .e4m3 ∨ f = .e5m2) then
    (xs.map (fun _ => 0), if eltIsMx f then 0xFF else 0x7F, 0, true)
  else
    let rs := xs.map (fun x =>
      match sv with
      | none => (eltNaN f, false)
      | some v =>
        let neg := x.neg != decide (v.m < 0)
        if x.kind = 2 then (eltNaN f, false)
        else if v.m = 0 then (0, false)
        else if x.kind = 1 then (eltCode f neg (eltMaxMag f neg), true)
        else if x.kind = 3 then (eltCode f x.neg (eltMaxMag f x.neg), false)
        else eltRound f neg x.mag v.m.natAbs (x.e - v.e))
    (rs.map (·.1), sc, rs.countP (·.2), nan)

/-- A vector quantised block by block: packed elements, scales, clipped elements and NaN blocks. -/
def quantVector (f : EltFmt) (scales : List Nat) (xs : List RVal) : List Byte × List Byte × Nat × Nat :=
  let blk := scaleBlock f xs.length
  let blocks := (List.range ((xs.length + blk - 1) / blk)).map (fun i =>
    quantBlock f (scales.getD i 0) ((xs.drop (i * blk)).take blk))
  (packRun f (blocks.flatMap (·.1)), blocks.map (fun b => BitVec.ofNat 8 b.2.1),
    (blocks.map (fun b => b.2.2.1)).sum, blocks.countP (fun b => b.2.2.2))

end Sys2Proof.Machine
end

