-- ==== Sys2Proof/Machine/Sequencer.lean ====
section
/-! DEFINITION. The sequencer of a core: invocations, words and slots, engine queues, SYNC operations, signal lines, banks
and dynamic segments (R186 to R203), and the meanings of the SYNC commands. -/

namespace Sys2Proof.Machine

/-! ### Banks and segments -/

/-- Bank b of a core. -/
def Core.bank (k : Core) (b : Nat) : Bank := if b = 0 then k.bank0 else k.bank1

/-- A core with bank b set. -/
def Core.setBank (k : Core) (b : Nat) (x : Bank) : Core := if b = 0 then { k with bank0 := x } else { k with bank1 := x }

/-- Segment n mod 2, which belongs to beat n (R202). -/
def Core.seg (k : Core) (n : Nat) : Segment := if n % 2 = 0 then k.seg0 else k.seg1

/-- A core with the segment of beat n set. -/
def Core.setSeg (k : Core) (n : Nat) (x : Segment) : Core :=
  if n % 2 = 0 then { k with seg0 := x } else { k with seg1 := x }

/-! ### Slots and engine queues -/

/-- The repeat count of a slot read at its dequeue (R191), before the clamp. -/
def Core.slotCount (k : Core) (x : EngSlot) : Nat :=
  match x.rep with
  | .imm n => n
  | .ctr i => k.ctr i k.seq.beat

/-- Whether a slot's gate lets it run (R195). -/
def Core.gateOpen (k : Core) (x : EngSlot) : Bool :=
  match x.gate with
  | none => true
  | some c => k.cpTrue c

/-- The next slot that runs, from the slots waiting in list order: slots with a false gate or a count of 0 are skipped.
Answers the slots skipped by a gate, the clamps, and the queue that is left. -/
def Core.pickSlot (k : Core) : List EngSlot → Nat × Nat × EngQueue
  | [] => (0, 0, ⟨[], none⟩)
  | x :: xs =>
    if !k.gateOpen x then
      let r := k.pickSlot xs
      (r.1 + 1, r.2.1, r.2.2)
    else if k.slotCount x = 0 then k.pickSlot xs
    else (0, if 65536 < k.slotCount x then 1 else 0,
      ⟨xs, some ⟨x, min 65536 (k.slotCount x), 0, 0, x.operands.map (fun o => k.areg o.reg)⟩⟩)

/-- An engine with no running slot dequeues its next one, with the counts of R191 and R195. -/
def State.refill (s : State) (c : Nat) (e : Engine) : State :=
  let k := s.core c
  if (k.queue e).active.isSome then s
  else
    let r := k.pickSlot (k.queue e).waiting
    ((s.setCore c (k.setQueue e r.2.2)).count Reg.gateSkips r.1).count Reg.repeatClamp r.2.1

/-- The five engines. -/
def allEngines : List Engine := [.ae, .se, .ve, .tt, .mv]

/-- Whether an engine of a core has neither a running slot nor a waiting one. -/
def Core.engineIdle (k : Core) (e : Engine) : Bool := (k.queue e).active.isNone && (k.queue e).waiting.isEmpty

/-- Whether every slot of an engine has completed; a mover's remote requests have been answered (R259). -/
def Core.engineDone (k : Core) (e : Engine) : Bool := k.engineIdle e && (e != .mv || (k.rmOut.isEmpty && k.rmWait.isEmpty))

/-! ### Invocations -/

/-- The invocation of a core that starts now for beat b, from its active bank (R186, R192, R194). One whose list holds no word has
issued its last: it ends as it starts. -/
def State.startInvocation (s : State) (c b : Nat) : State :=
  let k := s.core c
  let n := s.reg (Reg.bankSelect c) % 2
  let x := k.bank n
  if x.state ≠ 4 then s
  else
    let none' := x.image.words.isEmpty
    let k := { k with
      lastEnd := if none' then s.time.hallTime - s.tickTime b else k.lastEnd,
      persist := x.image.ctrPersist, cps := x.image.cmpInit,
      aregs := (List.range 16).foldl (fun m i => mapSet i (x.image.addrInit.getD i 0) m) k.aregs,
      seq := if none' then Sequencer.idle else
             { running := true, beat := b, bank := n, left := x.image.words, segLeft := [], replaying := false,
               holding := none, settings := x.image.cmpInit, nextDue := false,
               subnorm := s.reg Reg.readoutSubnorm, satRead := s.reg Reg.satReadout } }
    (s.setCore c k).count Reg.invocations 1

/-- A bank whose invocation has ended: VALID when it was DRAINING (R201). -/
def Core.bankReleased (k : Core) (b : Nat) : Core :=
  if (k.bank b).state = 5 then k.setBank b { k.bank b with state := 2 } else k

/-- The end of a core's invocation, `endNs` after its tick; the next one starts where it is due (R186, R187). -/
def State.endInvocation (s : State) (c endNs : Nat) : State :=
  let k := (s.core c).bankReleased (s.core c).seq.bank
  let due := k.seq.nextDue
  let s := s.setCore c { k with lastEnd := endNs, seq := Sequencer.idle }
  if due then s.startInvocation c s.beatNow else s

/-- An invocation whose last word has issued and whose engines have completed every slot ends (R186). -/
def State.checkEnd (s : State) (c : Nat) : State :=
  let k := s.core c
  if k.seq.running ∧ k.seq.left = [] ∧ k.seq.segLeft = [] ∧ k.seq.holding = none ∧ allEngines.all k.engineDone then
    s.endInvocation c (s.time.hallTime - s.tickTime k.seq.beat)
  else s

/-- The cut of R187: no further word issues, queued slots are discarded, the issued repeats are complete; the mover's
outstanding requests are forgotten, so that their responses come late (R267). -/
def State.cutInvocation (s : State) (c : Nat) : State :=
  let k := s.core c
  let k := allEngines.foldl (fun k e => k.setQueue e ⟨[], none⟩) k
  (s.setCore c { k with rmOut := [], rmWait := [] }).endInvocation c 0xFFFFFFFF

/-- One repeat of the engine's running slot is complete: its counter is incremented (R193); after the last repeat the
post-increments are added (R192) and the next slot is dequeued. -/
def State.repeatDone (s : State) (c : Nat) (e : Engine) : State :=
  let k := s.core c
  match (k.queue e).active with
  | none => s
  | some a =>
    let k := match a.slot.inc with
      | none => k
      | some i => k.incCtr i k.seq.beat
    if a.done + 1 < a.count then
      s.setCore c (k.setQueue e { k.queue e with active := some { a with done := a.done + 1, begun := max a.begun (a.done + 1) } })
    else
      let regs := a.slot.operands.foldl
        (fun m o => mapSet o.reg (codeOf 64 ((mapGetD 0 o.reg m : Nat) + o.postInc)) m) k.aregs
      let k := { k with aregs := regs }
      ((s.setCore c (k.setQueue e { k.queue e with active := none })).refill c e).checkEnd c

/-- The mover begins a repeat of its running slot: its number, none where no slot runs. -/
def State.beginRepeat (s : State) (c : Nat) : Option Nat × State :=
  let k := s.core c
  match k.mv.active with
  | none => (none, s)
  | some a => (some a.begun, s.setCore c { k with mv := { k.mv with active := some { a with begun := a.begun + 1 } } })

/-- A repeat of the mover completes when the last of its requests has ended (R190, R258, R259). -/
def State.settleRepeat (s : State) (c : Nat) (rep : Option Nat) : State :=
  let k := s.core c
  if rep.isSome ∧ !(k.rmOut ++ k.rmWait).any (fun r => r.rep == rep) then s.repeatDone c .mv else s

/-! ### Words -/

/-- The word the sequencer issues next. -/
def Sequencer.head (q : Sequencer) : Option TWord := if q.replaying then q.segLeft.head? else q.left.head?

/-- The sequencer with its next word replaced by some words. -/
def Sequencer.replaceHead (q : Sequencer) (ws : List TWord) : Sequencer :=
  if q.replaying then { q with segLeft := ws ++ q.segLeft.tail } else { q with left := ws ++ q.left.tail }

/-- A splice whose words have all issued is complete: the segment is FREE (R202, R203). -/
def Core.spliceEnd (k : Core) : Core :=
  if k.seq.replaying ∧ k.seq.segLeft = [] then
    { k.setSeg k.seq.beat ⟨0, []⟩ with seq := { k.seq with replaying := false } }
  else k

/-- A core whose SYNC operation is satisfied: its word goes on without it, and issue is held no longer. -/
def Core.stripSync (k : Core) (op : SyncOp) : Core :=
  let q := match k.seq.head with
    | some w => if w.sync = some op then
                  k.seq.replaceHead (if w.slots.isEmpty then [] else [{ w with sync := none }])
                else k.seq
    | none => k.seq
  { k with seq := { q with holding := none } }

/-- A SYNC operation is satisfied. -/
def State.syncDone (s : State) (c : Nat) (op : SyncOp) : State :=
  (s.setCore c ((s.core c).stripSync op).spliceEnd).checkEnd c

/-- A SYNC operation holds issue. -/
def State.syncHold (s : State) (c : Nat) (op : SyncOp) : State :=
  s.updCore c (fun k => { k with seq := { k.seq with holding := some op } })

/-- Whether the sequencer's next word is poisoned in Timetable memory (R435). -/
def Core.headBad (k : Core) : Bool :=
  if k.seq.replaying then
    k.ttBad.contains (2 + k.seq.beat % 2, (k.seg k.seq.beat).words.length - k.seq.segLeft.length)
  else k.ttBad.contains (k.seq.bank, (k.bank k.seq.bank).image.words.length - k.seq.left.length)

/-- WORD_ISSUE (R189): the sequencer issues one word. A word with a SYNC slot first holds on it; a full target queue stalls
the sequencer for the cycle; a poisoned word is skipped as if every gate were false (R435). -/
def execWordIssue (core : Nat) (s : State) : Host.Outcome State Fault Refusal :=
  let k := s.core core
  .next (
    if !s.coreOn core ∨ !k.seq.running ∨ k.seq.holding.isSome then s
    else match k.seq.head with
      | none => s
      | some w =>
        if k.headBad then
          ((s.setCore core ({ k with seq := k.seq.replaceHead [] }).spliceEnd).count Reg.gateSkips 1).checkEnd core
        else match w.sync with
          | some op => s.syncHold core op
          | none =>
            if w.slots.any (fun x => decide (8 ≤ (k.queue x.engine).waiting.length)) then s.count Reg.seqStall 1
            else
              let k := { k with seq := k.seq.replaceHead [] }
              let k := w.slots.foldl (fun k x =>
                k.setQueue x.engine { k.queue x.engine with waiting := (k.queue x.engine).waiting ++ [x] }) k
              let s := s.setCore core k.spliceEnd
              (w.slots.foldl (fun s x => s.refill core x.engine) s).checkEnd core)

/-! ### Signal lines (R197) -/

/-- The agents that arrive at signal lines (R197), by number: cores 0 to 127, the control cores 128 + 2 k and 129 + 2 k and the Yard
160 + k of cluster k, and the management cores 176 to 180. -/
def agentCluster (c : Nat) : Option Nat :=
  if c < 128 then some (c / 8) else if c < 160 then some ((c - 128) / 2) else if c < 176 then some (c - 160) else none

/-- Whether an agent beside the cores arrives at a line: control cores at both kinds, Yards at cluster lines, management cores at die
lines. -/
def mayArrive (c : Nat) : LineRef → Bool
  | .cluster _ => decide (128 ≤ c) && decide (c < 176)
  | .die _ => decide (128 ≤ c) && decide (c < 181) && !(decide (160 ≤ c) && decide (c < 176))

/-- The key of a line in the parity of beat n, as agent c names it. -/
def lineKey (c : Nat) (l : LineRef) (n : Nat) : Nat :=
  match l with
  | .cluster i => ((1 + (agentCluster c).getD 0) * 1024 + i % 256) * 2 + n % 2
  | .die i => (i % 1024) * 2 + n % 2

/-- The state of a line. -/
def State.line (s : State) (key : Nat) : Line := mapGetD ⟨0, 0, false⟩ key s.lines

/-- An arrival at a line of n participants. -/
def State.arrive (s : State) (key n : Nat) : State :=
  let l := s.line key
  if l.fired then s.count Reg.sigExcess 1
  else
    let parts := if l.arrivals = 0 then n else l.parts
    let s := if l.arrivals ≠ 0 ∧ n ≠ l.parts then s.count Reg.sigConflict 1 else s
    { s with lines := mapSet key ⟨l.arrivals + 1, parts, decide (parts ≤ l.arrivals + 1)⟩ s.lines }

/-- The beat for which a core's SYNC operation acts: its invocation's, or the running beat. -/
def State.syncBeat (s : State) (c : Nat) : Nat := if (s.core c).seq.running then (s.core c).seq.beat else s.beatNow

/-! ### SYNC operations (R196) -/

/-- FENCE: holds issue until the masked engines have completed every slot queued before. -/
def execFence (core : Nat) (mask : List Engine) (s : State) : Host.Outcome State Fault Refusal :=
  .next (s.onCore core (if mask.all (s.core core).engineDone then s.syncDone core (.fence mask)
    else s.syncHold core (.fence mask)))

/-- The arrival of an agent that is no core, which has no list to hold. -/
def State.agentArrives (s : State) (c : Nat) (line : LineRef) (n : Nat) : State :=
  if mayArrive c line then s.arrive (lineKey c line s.beatNow) n else s

/-- RAISE (R196, R197): arrives at a line without waiting. -/
def execRaise (core : Nat) (line : LineRef) (n : Nat) (s : State) : Host.Outcome State Fault Refusal :=
  .next (if 128 ≤ core then s.agentArrives core line n
    else s.onCore core ((s.arrive (lineKey core line (s.syncBeat core)) n).syncDone core (.raise line n)))

/-- WAIT: holds issue until the line has fired for the invocation's parity. -/
def execWait (core : Nat) (line : LineRef) (s : State) : Host.Outcome State Fault Refusal :=
  .next (s.onCore core (if (s.line (lineKey core line (s.syncBeat core))).fired then s.syncDone core (.wait line)
    else s.syncHold core (.wait line)))

/-- BARRIER: RAISE, then WAIT, on one line. A barrier that already holds has arrived and only waits; an agent that is no core waits
by its own means. -/
def execBarrier (core : Nat) (line : LineRef) (n : Nat) (s : State) : Host.Outcome State Fault Refusal :=
  let key := lineKey core line (s.syncBeat core)
  let waiting := decide ((s.core core).seq.holding = some (.wait line))
  let s0 := s
  let s := if waiting then s else s.arrive key n
  -- after its arrival the word's operation is a WAIT on the line
  let s := s.updCore core (fun k => match k.seq.head with
    | some w => if w.sync = some (.barrier line n) then
        { k with seq := k.seq.replaceHead [{ w with sync := some (.wait line) }] } else k
    | none => k)
  .next (if 128 ≤ core then s0.agentArrives core line n
    else s0.onCore core (if (s.line key).fired then s.syncDone core (.wait line) else s.syncHold core (.wait line)))

/-- WAIT_OFFSET t: holds issue until hall time reaches the tick plus t; an invocation past its tick is satisfied at once. -/
def execWaitOffset (core t : Nat) (s : State) : Host.Outcome State Fault Refusal :=
  let b := s.syncBeat core
  .next (s.onCore core (if b < s.beatNow ∨ s.tickTime b + t ≤ s.time.hallTime then s.syncDone core (.waitOffset t)
    else s.syncHold core (.waitOffset t)))

/-- HOLD CPi: holds issue until the comparator is true; each evaluation that holds is one engine cycle (R195). -/
def execHold (core cp : Nat) (s : State) : Host.Outcome State Fault Refusal :=
  .next (s.onCore core (if (s.core core).cpTrue cp then s.syncDone core (.hold cp)
    else (s.syncHold core (.hold cp)).count Reg.holdCycles 1))

/-- CONFIG CPi: replaces a comparator's setting for the rest of the invocation (R194). -/
def execConfig (core cp : Nat) (setting : CmpSetting) (s : State) : Host.Outcome State Fault Refusal :=
  let t := s.updCore core (fun k =>
    let four := (List.range 4).map (fun i => k.seq.settings.getD i ⟨0, .lt, .imm 0⟩)
    { k with seq := { k.seq with settings := four.set cp setting } })
  .next (s.onCore core (t.syncDone core (.config cp setting)))

/-- SPLICE: replays the beat's sealed segment at this point (R203); an unsealed segment holds it. -/
def execSplice (core : Nat) (s : State) : Host.Outcome State Fault Refusal :=
  let k := s.core core
  let b := s.syncBeat core
  let g := k.seg b
  .next (
    if !s.coreOn core then s
    else if g.state ≠ 2 then s.syncHold core .splice
    else
      let k := k.stripSync .splice
      let k := { k.setSeg b { g with state := 3 } with
                   seq := { k.seq with segLeft := g.words, replaying := true, beat := b } }
      (s.setCore core k.spliceEnd).checkEnd core)

end Sys2Proof.Machine
end

