-- ==== Sys2Proof/Machine/Choices.lean ====
section
/-! DEFINITION. Tokens and their choices: token flags (R95), stale generations (R106), table records of R85 to R88, cell
chains and quotas (R318 to R327), the Siding (R108), the choice ledger (R110, R111), landing marks and landing failures
(R325), refusals (R99) and what an answer or refusal meets at its combine device (R103, R111). -/

namespace Sys2Proof.Machine

/-! ### Tokens -/

/-- The token of a beat-class header (R92). -/
def idOf (h : BeatHdr) : TokenId := ⟨h.batchTag, h.lane, h.position, h.gen, h.entryRank⟩

/-- Token flag i of FLAGS, counted from bit 16 (R95). -/
def flagBit (i : Nat) : BitVec 16 := BitVec.ofNat 16 (2 ^ i)

/-- OVERRUN, PARTIAL, NO_EXPERT, DROPPED, REFUSED, RENORMED, ENTRY and LATE of R95. -/
def flOverrun : BitVec 16 := flagBit 0
/-- PARTIAL (R95). -/
def flPartial : BitVec 16 := flagBit 1
/-- NO_EXPERT (R95). -/
def flNoExpert : BitVec 16 := flagBit 2
/-- DROPPED (R95). -/
def flDropped : BitVec 16 := flagBit 3
/-- REFUSED (R95). -/
def flRefused : BitVec 16 := flagBit 4
/-- RENORMED (R95). -/
def flRenormed : BitVec 16 := flagBit 5
/-- ENTRY (R95). -/
def flEntry : BitVec 16 := flagBit 6
/-- LATE (R95). -/
def flLate : BitVec 16 := flagBit 7

/-- Whether a flag is set. -/
def hasFlag (f b : BitVec 16) : Bool := f &&& b != 0

/-- FLAGS of an answer or refusal (R94): the choice in bits [19:16], x from bit 20 up. -/
def returnFlags (choice x : Nat) : BitVec 16 := BitVec.ofNat 16 (choice % 16 + 16 * x)

/-- The choice of an answer or refusal. -/
def returnChoice (p : BeatPacket) : Nat := p.hdr.flags.toNat % 16

/-- The cause of a refusal (R94). -/
def refusalCause (p : BeatPacket) : Nat := p.hdr.flags.toNat / 16 % 16

/-- The overrun flag of an answer (R94). -/
def answerOverrun (p : BeatPacket) : Bool := p.hdr.flags.toNat.testBit 4

/-- Whether generation x is newer than y (R106). -/
def genNewer (x y : Nat) : Bool :=
  let d := (x + 65536 - y) % 65536
  decide (1 ≤ d) && decide (d ≤ 32767)

/-- The generation that governs a tag now: the newest among the notices whose CB has been reached (R106). -/
def State.governing (s : State) (tag : Nat) : Option Nat :=
  s.combine.cancels.foldl (fun g c =>
    if c.tag = tag ∧ c.cb ≤ s.beatNow then
      match g with
      | none => some c.gen
      | some h => if genNewer c.gen h then some c.gen else some h
    else g) none

/-- Whether a packet or token of a tag and generation is stale (R106). -/
def State.stale (s : State) (tag gen : Nat) : Bool :=
  match s.governing tag with
  | none => false
  | some g => g != gen

/-- A later beat-class header of a token: the fields answers and refusals copy (R92). -/
def headerFor (tok : TokenId) (kind lslot beat src dst : Nat) (flags : BitVec 16) : BeatHdr :=
  { kind := kind, lslot := lslot, flags := flags, srcRank := src, dstRank := dst, batchTag := tok.tag, lane := tok.lane,
    position := tok.position, gen := tok.gen, entryRank := tok.entryRank, beat := beat % 2 ^ 32, nextRank := 0,
    homeCluster := 0 }

/-! ### Records of the placement tables -/

/-- A PLATFORM_TABLE record (R86). -/
structure PlatRec where
  lslot    : Nat
  expert   : Nat
  capacity : Nat
  core     : Nat
  en       : Bool
deriving DecidableEq, Repr, Inhabited

/-- The record of Platform slot p in PLATFORM_TABLE content b. -/
def platRecOf (b : Blob) (p : Nat) : PlatRec :=
  let w := b.nat (8 * p) 8
  { lslot := field w 0 8, expert := field w 16 14, capacity := field w 32 11, core := field w 48 7, en := w.testBit 63 }

/-- The live record of a Platform slot. -/
def State.plat (s : State) (p : Nat) : PlatRec := platRecOf (s.dom Reg.platformTable) p

/-- The cluster of a Platform slot's core, where the slot is enabled (R86, R97). -/
def State.platCluster (s : State) (p : Nat) : Option Nat :=
  if (s.plat p).en then some ((s.plat p).core / 8) else none

/-- An EXPERT_MAP record (R85). -/
structure MapRec where
  rank    : Nat
  pslot   : Nat
  unavail : Bool
deriving DecidableEq, Repr, Inhabited

/-- The record of expert e in EXPERT_MAP content b. -/
def mapRecOf (b : Blob) (e : Nat) : MapRec :=
  let w := b.nat (4 * e) 4
  { rank := field w 0 16, pslot := field w 16 8, unavail := w.testBit 31 }

/-- A RECV_GRANTS record (R88). -/
structure GrantRec where
  sender  : Nat
  pslot   : Nat
  credits : Nat
deriving DecidableEq, Repr, Inhabited

/-- The records of RECV_GRANTS content b. -/
def grantRecs (b : Blob) : List GrantRec :=
  (List.range (b.len / 8)).map (fun i =>
    let w := b.nat (8 * i) 8
    { sender := field w 0 16, pslot := field w 16 8, credits := field w 32 11 })

/-- The templates of a core's SEG_TEMPLATES (R208). -/
def State.templates (s : State) (core : Nat) : List Config.Template :=
  let b := s.dom (Reg.segTemplates core)
  if b.len ≤ 64 then [] else Config.decodeTemplates (b.bytes.drop 64)

/-! ### Pools and chains -/

/-- A cluster's pool. -/
def State.pool (s : State) (k : Nat) : Pool := mapGetD Pool.empty k s.pools.pools

/-- The state with a cluster's pool set. -/
def State.setPool (s : State) (k : Nat) (p : Pool) : State :=
  { s with pools := { s.pools with pools := mapSet k p s.pools.pools } }

/-- Cells a cluster holds: the sum of held(q) (R327). -/
def Pool.inUse (p : Pool) : Nat := (p.held.map (fun e => e.2)).foldl (· + ·) 0

/-- The requester class of a packet kind (R320). -/
def quotaClass (kind : Nat) : Nat :=
  if kind = 1 then 1 else if kind = 2 ∨ kind = 4 then 2 else if kind = 3 then 3 else 4

/-- Whether a packet kind lands striped over the 16 clusters (R319). -/
def landsStriped (kind : Nat) : Bool := kind == 2 || kind == 3 || kind == 4 || kind == 5

/-- Cells of one chain or slice of a packet (R319), for a hidden width. -/
def chainLen (hw : Nat) (p : BeatPacket) : Nat :=
  match p.hdr.kind with
  | 1 => 1 + (2 * hw + 255) / 256
  | 2 => (8 * 32 + hw + 2047) / 2048
  | 3 => (8 * 32 + 64 * p.entries.length + hw + 2047) / 2048
  | 4 => 1
  | 5 => (8 * 32 + hw + 2047) / 2048
  | 6 => (32 + 8 * p.cands.length + 255) / 256
  | _ => 1

/-- A QUOTA_TABLE entry: LIMIT, SRC and CLASS (R320). -/
def quotaEntry (b : Blob) (q : Nat) : Nat × Nat × Nat :=
  let w := b.nat (8 * q) 8
  (field w 0 15, field w 16 16, field w 32 3)

/-- The entry a request is charged to (R321). -/
def State.quotaFor (s : State) (k cls src : Nat) : Option Nat :=
  let b := s.dom (slotKey Reg.quotaTable k)
  (List.range 256).find? (fun q =>
    let e := quotaEntry b q
    e.2.2 == cls && (e.2.1 == src || e.2.1 == 0xFFFF))

/-- The decision on a chain of n cells (R323, R327): 0 granted, 1 POOL, 2 QUOTA; and the entry charged. -/
def State.chainDecision (s : State) (k : Nat) (r : ChainReq) : Nat × Nat :=
  let p := s.pool k
  if p.broken then (1, 0)
  else match s.quotaFor k r.cls r.pkt.hdr.srcRank with
    | none => (2, 0)
    | some q =>
      if (quotaEntry (s.dom (slotKey Reg.quotaTable k)) q).1 < mapGetD 0 q p.held + r.cells then (2, q)
      else if p.free < r.cells then (1, q)
      else (0, q)

/-- The first n cells of a pool's free list (R318), in the order of assumption 45. -/
def Pool.first (p : Pool) (n : Nat) : List Nat :=
  p.freed.take n ++ (List.range (n - p.freed.length)).map (p.fresh + ·)

/-- The links of a chain: each cell with the next one (R318). -/
def chainLinks (cells : List Nat) : List (Nat × Nat) := cells.zip cells.tail

/-- A pool from which n cells have been taken as a chain, charged to entry q. -/
def Pool.takeChain (p : Pool) (q n : Nat) : Pool :=
  let links := (chainLinks (p.first n)).foldl (fun m e => mapSet e.1 e.2 m) p.links
  { p with freed := p.freed.drop n, fresh := p.fresh + (n - p.freed.length), links := links, low := min p.low (p.free - n),
           held := mapSet q (mapGetD 0 q p.held + n) p.held }

/-- A pool to which a chain's cells have been given back (R326). -/
def Pool.giveBack (p : Pool) (c : Chain) : Pool :=
  { p with freed := p.freed ++ c.cells, links := c.cells.foldl (fun m i => mapDel i m) p.links,
           held := mapSet c.entry (mapGetD 0 c.entry p.held - c.cells.length) p.held }

/-- A chain granted in cluster k, charged to entry q (R318, R323, R331). -/
def State.grant (s : State) (k q : Nat) (r : ChainReq) : State :=
  let c : Chain := ⟨k, q, (s.pool k).first r.cells, r.cls, r.pkt.hdr.srcRank, false, r.pkt⟩
  let s := s.setPool k ((s.pool k).takeChain q r.cells)
  let s := { s with pools := { s.pools with chains := s.pools.chains ++ [c] } }
  (s.count64 Reg.chainsAllocated 1).count64 Reg.cellsAllocated r.cells

/-- A chain's cells go back to the free list and to the entry it was charged to (R326). -/
def State.freeChain (s : State) (c : Chain) : State :=
  let s := s.setPool c.cluster ((s.pool c.cluster).giveBack c)
  let s := { s with pools := { s.pools with chains := s.pools.chains.erase c } }
  s.count64 Reg.cellsReleased c.cells.length

/-- The chains that hold a packet. -/
def State.chainsOf (s : State) (p : BeatPacket) : List Chain := s.pools.chains.filter (fun c => c.pkt == p)

/-- Every chain of a packet released. -/
def State.freeChains (s : State) (p : BeatPacket) : State := (s.chainsOf p).foldl State.freeChain s

/-- Whether a chain of a packet holds a poisoned word (R436). -/
def State.chainBad (s : State) (p : BeatPacket) : Bool := (s.chainsOf p).any (fun c => c.bad)

/-! ### The Siding (R108) -/

/-- A packet that holds no chain goes to the Siding. -/
def State.sidingCount (s : State) (packets cells : Nat) : State :=
  (s.count Reg.sidingPackets packets).count Reg.sidingCells cells

/-- A packet goes to the Siding: its cells are freed at once, and it and they are counted. -/
def State.siding (s : State) (p : BeatPacket) : State :=
  let n := ((s.chainsOf p).map (fun c => c.cells.length)).foldl (· + ·) 0
  (s.freeChains p).sidingCount 1 n

/-! ### The ledger (R110, R111) -/

/-- One choice is settled: into dispatched and one outcome, and no longer open (R110). -/
def State.settle (s : State) (outcome : Nat) : State :=
  let s := (s.count64 Reg.dispatched 1).count64 outcome 1
  s.setReg Reg.openChoices (s.reg Reg.openChoices - 1)

/-- n choices enter the ledger (R110). -/
def State.enterLedger (s : State) (n : Nat) : State := s.count Reg.openChoices n

/-- The outcome of a refusal cause (R111). -/
def outcomeOfCause (c : Nat) : Nat := if c = 6 then Reg.lateDiscarded else Reg.refusedPool

/-- A user's request ends (R313): counted, with the end notice to the token's entry device. -/
def State.sendEnd (s : State) (t : TokenId) (cause : Nat) : State :=
  (s.count Reg.reqEnds 1).sendNotice t.entryRank (.endNotice t.tag t.lane t.position t.gen cause)

/-- A token's stage is over: its residual, its vectors and lists in the Yards and its kept KV blocks go. -/
def State.leaveStage (s : State) (tok : TokenId) : State :=
  let s := s.leaveTables tok
  { s with combine := { s.combine with residuals := s.combine.residuals.filter (fun r => r.tok != tok) },
           yards := { s.yards with inputs := s.yards.inputs.filter (fun x => x.tok != tok),
                                   replies := s.yards.replies.filter (fun p => p.tok != tok),
                                   kept := s.yards.kept.filter (fun k => k.1 != tok) } }

/-- Items held for a token of one beat. -/
def heldFor (t : TokenId) (b : Nat) (h : Held) : Bool := idOf h.pkt.hdr == t && h.pkt.hdr.beat == b

/-- Answers, refusals and marks held for a token go: packets to the Siding, marks released (R103, R107, R325). -/
def State.dropHeld (s : State) (t : TokenId) (b : Nat) : State :=
  let gone := (s.combine.answers ++ s.combine.refusals).filter (heldFor t b)
  let s := gone.foldl (fun s h => s.siding h.pkt) s
  { s with combine := { s.combine with answers := s.combine.answers.filter (fun h => !heldFor t b h),
                                       refusals := s.combine.refusals.filter (fun h => !heldFor t b h) },
           pools := { s.pools with marks := s.pools.marks.filter (fun m => !(m.tok == t && m.beat == b)) } }

/-- The cause held for a choice: a refusal's or a landing mark's (R325). -/
def State.heldRefusal (s : State) (t : TokenId) (b choice : Nat) : Option Nat :=
  match s.combine.refusals.find? (fun h => heldFor t b h && returnChoice h.pkt == choice && !h.bad) with
  | some h => some (refusalCause h.pkt)
  | none => (s.pools.marks.find? (fun m => m.tok == t && m.beat == b && m.choice == choice)).map (fun m => m.cause)

/-- A Manifest's token becomes known to the combine device (R103). -/
def State.know (s : State) (p : BeatPacket) : State :=
  { s with combine := { s.combine with known := s.combine.known ++ [(idOf p.hdr, p.hdr.beat)] } }

/-- Whether the token's Manifest has reached the device. -/
def State.knows (s : State) (t : TokenId) (b : Nat) : Bool := s.combine.known.contains (t, b)

/-- Every choice of a Manifest settled: dropped ones as dropped_capacity, the others by `f`; what was held for the token
goes to the Siding uncounted (R103, R107, R325, R436). -/
def State.settleAll (s : State) (p : BeatPacket) (dropped : Nat) (f : ChoiceEntry → Nat) : State :=
  let s := s.enterLedger p.entries.length
  let s := p.entries.foldl (fun s e => s.settle (if e.dropped then dropped else f e)) s
  s.dropHeld (idOf p.hdr) p.hdr.beat

/-- A Manifest's choices settled without entering them again: it had entered the ledger when it arrived. -/
def State.settleHeld (s : State) (p : BeatPacket) (dropped : Nat) (f : ChoiceEntry → Nat) : State :=
  let s := p.entries.foldl (fun s e => s.settle (if e.dropped then dropped else f e)) s
  s.dropHeld (idOf p.hdr) p.hdr.beat

/-- The outcome of a choice of a Manifest sent to the Siding (R111). -/
def State.sidingOutcome (s : State) (p : BeatPacket) (e : ChoiceEntry) : Nat :=
  match s.heldRefusal (idOf p.hdr) p.hdr.beat e.choice with
  | some c => outcomeOfCause c
  | none => Reg.lateDiscarded

/-! ### Answers and refusals at their combine device -/

/-- What an answer, a refusal or a landing mark brings: a packet that landed, or none for a mark. -/
structure Return where
  tok    : TokenId
  beat   : Nat
  choice : Nat
  answer : Bool
  cause  : Nat
  pkt    : Option BeatPacket
deriving DecidableEq, Repr, Inhabited

/-- The packet of a return goes to the Siding; a mark is simply released. -/
def State.dropReturn (s : State) (r : Return) : State :=
  match r.pkt with
  | some p => s.siding p
  | none => s

/-- Whether a return is already held for the choice. -/
def State.holdsReturn (s : State) (r : Return) : Bool :=
  (s.combine.answers ++ s.combine.refusals).any (fun h => heldFor r.tok r.beat h && returnChoice h.pkt == r.choice) ||
    s.pools.marks.any (fun m => m.tok == r.tok && m.beat == r.beat && m.choice == r.choice)

/-- A return is held for its token's combine. -/
def State.holdReturn (s : State) (r : Return) : State :=
  let late := decide (s.age r.beat = 1)
  match r.pkt with
  | none => { s with pools := { s.pools with marks := s.pools.marks ++ [⟨r.tok, r.choice, r.cause, r.beat, late⟩] } }
  | some p =>
    let h : Held := ⟨p, late, s.chainBad p⟩
    if r.answer then { s with combine := { s.combine with answers := s.combine.answers ++ [h] } }
    else { s with combine := { s.combine with refusals := s.combine.refusals ++ [h] } }

/-- Whether a BEAT's token is past ATTN_END of the beat after it (R103). -/
def State.pastAttn (s : State) (b : Nat) : Bool :=
  let a := s.age b
  (decide (2 ≤ a) && decide (a < 2 ^ 31)) || (a == 1 && s.beat.attnEnded)

/-- R103, R111: a return settles its pending choice, goes to the Siding uncounted when its choice is settled or its
Manifest has gone, becomes an orphan after ATTN_END with no Manifest, and is held otherwise. -/
def State.returnArrives (s : State) (r : Return) : State :=
  let pc : PendingChoice := ⟨r.tok, r.choice, r.beat⟩
  if s.combine.pending.contains pc then
    let s := { s with combine := { s.combine with pending := s.combine.pending.erase pc } }
    (s.settle (if r.answer then Reg.lateDiscarded else outcomeOfCause r.cause)).dropReturn r
  else if s.combine.manifests.any (heldFor r.tok r.beat) then
    if s.holdsReturn r then s.dropReturn r else s.holdReturn r
  else if s.knows r.tok r.beat then s.dropReturn r
  else if s.pastAttn r.beat then
    match r.pkt with
    | some _ => (s.dropReturn r).count Reg.orphans 1
    | none => s
  else if s.holdsReturn r then s.dropReturn r else s.holdReturn r

/-! ### Intake checks (R99) -/

/-- The receiving clusters of a Consist (R97), each once, in ascending order. -/
def State.receivers (s : State) (p : BeatPacket) : List Nat :=
  (List.range 16).filter (fun k => p.entries.any (fun e => s.platCluster e.pslot == some k))

/-- The cause by which a choice is refused, 0 where it is accepted; `chain` is the cause by which its chain failed, 0
where the chain stands. The order is that of R99. -/
def State.intakeCause (s : State) (p : BeatPacket) (chain : Nat) (e : ChoiceEntry) : Nat :=
  let r := s.plat e.pslot
  if s.beat.intakeClosed || !s.beat.accepts || s.noBeat || s.age p.hdr.beat != 0 then 6
  else if r.en && chain != 0 then chain
  else if !r.en || r.lslot != p.hdr.lslot || r.expert != e.expert then 5
  else if mapGetD 0 (e.pslot * 65536 + p.hdr.srcRank) s.platforms.recvLeft = 0 then 3
  else if mapGetD 0 e.pslot s.platforms.capLeft = 0 then 4
  else 0

/-- A refusal leaves for NEXT_RANK and the credit returns to the ledger (R89, R98, R99). -/
def State.refuse (s : State) (p : BeatPacket) (e : ChoiceEntry) (cause : Nat) : State :=
  let s := ((s.count64 Reg.choicesReceived 1).count64 Reg.creditsReturned 1).count (Reg.refuseCause (7 + cause)) 1
  let h := { headerFor (idOf p.hdr) 4 p.hdr.lslot p.hdr.beat s.myRank p.hdr.nextRank (returnFlags e.choice cause) with
             beat := p.hdr.beat }
  s.sendRank p.hdr.nextRank 0 0 0 1 (.beat ⟨h, [], [], [], 0, 0⟩)

/-- Every choice of a Consist for one cluster refused, as its chain failed with a cause (R97, R99). -/
def State.refuseCluster (s : State) (k : Nat) (p : BeatPacket) (cause : Nat) : State :=
  let es := p.entries.filter (fun e => s.platCluster e.pslot == some k)
  es.foldl (fun t e => t.refuse p e (s.intakeCause p cause e)) s

/-! ### Landing failures (R325) -/

/-- A packet that failed to land: a Consist's choices are refused; an answer or refusal leaves a mark; a Manifest's
choices settle and its step ends; exit traffic goes to the Siding. -/
def State.landingFailure (s : State) (k : Nat) (p : BeatPacket) (cause : Nat) : State :=
  let s := { s with pools := { s.pools with failed := s.pools.failed ++ [(k, p, cause)] } }
  match p.hdr.kind with
  | 1 => if s.stale p.hdr.batchTag p.hdr.gen then s.sidingCount (if (s.receivers p).head? = some k then 1 else 0) 0
         else s.refuseCluster k p cause
  | 2 | 4 =>
    if 256 ≤ s.pools.marks.length then (s.count Reg.markOverflow 1).sidingCount 1 0
    else s.returnArrives ⟨idOf p.hdr, p.hdr.beat, returnChoice p, false, cause, none⟩
  | 3 =>
    if s.knows (idOf p.hdr) p.hdr.beat then s
    else ((s.know p).settleAll p Reg.droppedCapacity (fun _ => Reg.refusedPool)).sendEnd (idOf p.hdr) 2
  | _ => s.sidingCount 1 0

/-! ### The allocators (R323, R324) -/

/-- A failed allocation is counted once by its cause (R324, R331). -/
def State.countFail (s : State) (cause : Nat) : State :=
  s.count (if cause = 2 then Reg.allocFailQuota else Reg.allocFailPool) 1

/-- One slice of a striped packet has been decided; after the last of the 16 the packet has landed or failed (R324). -/
def State.stripeStep (s : State) (p : BeatPacket) (cause : Nat) : State :=
  let old := (s.pools.stripes.find? (fun x => x.pkt == p)).getD ⟨p, 0, false, false⟩
  let x : StripeProgress := { old with decided := old.decided + 1, quota := old.quota || cause == 2,
                                       pool := old.pool || cause == 1 }
  let rest := s.pools.stripes.filter (fun x => x.pkt != p)
  if x.decided < 16 then { s with pools := { s.pools with stripes := rest ++ [x] } }
  else
    let s := { s with pools := { s.pools with stripes := rest } }
    if x.quota || x.pool then
      let c := if x.quota then 2 else 1
      ((s.freeChains p).countFail c).landingFailure 16 p c
    else s

/-- A cluster's allocator serves its first waiting request. -/
def State.serveChain (s : State) (k : Nat) : State :=
  match (s.pool k).waiting with
  | [] => s
  | r :: rest =>
    let s := s.setPool k { s.pool k with waiting := rest }
    let d := s.chainDecision k r
    let s := if d.1 = 0 then s.grant k d.2 r else s
    if r.striped then s.stripeStep r.pkt d.1
    else if d.1 = 0 then s else (s.countFail d.1).landingFailure k r.pkt d.1

/-- The clusters in which a packet needs a chain (R97, R102, R96). -/
def State.landingClusters (s : State) (p : BeatPacket) : List Nat :=
  if p.hdr.kind = 1 then s.receivers p
  else if landsStriped p.hdr.kind then List.range 16
  else [p.hdr.homeCluster % 16]

/-- Whether a cluster holds a chain or a waiting request for a packet, or its landing has failed there. -/
def State.requested (s : State) (k : Nat) (p : BeatPacket) : Bool :=
  s.pools.chains.any (fun c => c.cluster == k && c.pkt == p) || (s.pool k).waiting.any (fun r => r.pkt == p) ||
    s.pools.failed.any (fun f => (f.1 == k || f.1 == 16) && f.2.1 == p) || s.pools.stripes.any (fun x => x.pkt == p)

/-- The order in which an allocator serves requests of one fast cycle (R323): Manifest, answer and refusal, exit traffic, Consist. -/
def requestOrder (cls : Nat) : Nat := if cls = 3 then 0 else if cls = 2 then 1 else if cls = 4 then 2 else 3

/-- A request joins those that wait: behind all that came before, and among those of one nanosecond in the order of R323
(assumption 145). -/
def joinRequests (l : List ChainReq) (r : ChainReq) : List ChainReq :=
  let first := fun (y : ChainReq) => y.at' != r.at' || decide (requestOrder y.cls ≤ requestOrder r.cls)
  l.takeWhile first ++ r :: l.dropWhile first

/-- The Junction requests a packet's chains from the allocators of its clusters (R97, R324). -/
def State.requestChains (s : State) (p : BeatPacket) : State :=
  let n := chainLen (s.reg Reg.hiddenWidth) p
  let ks := (s.landingClusters p).filter (fun k => !s.requested k p)
  let r : ChainReq := ⟨quotaClass p.hdr.kind, n, p, landsStriped p.hdr.kind, s.time.hallTime⟩
  ks.foldl (fun s k => s.setPool k { s.pool k with waiting := joinRequests (s.pool k).waiting r }) s

/-- The allocator of a cluster serves its requests up to and with those of a packet. -/
def serveUntil (p : BeatPacket) : Nat → Nat → State → State
  | 0, _, s => s
  | n + 1, k, s => if (s.pool k).waiting.any (fun r => r.pkt == p) then serveUntil p n k (s.serveChain k) else s

/-- A packet that arrives whole has its chains decided: what was not requested is, and waiting requests are served. -/
def State.decideChains (s : State) (p : BeatPacket) : State :=
  let s := s.requestChains p
  (s.landingClusters p).foldl (fun s k => serveUntil p ((s.pool k).waiting.length) k s) s

/-- Whether a packet's landing has failed (in cluster k, or as a whole with k = 16). -/
def State.landingFailed (s : State) (k : Nat) (p : BeatPacket) : Bool := s.pools.failed.any (fun f => f.1 == k && f.2.1 == p)

/-- A delivered packet leaves the landing list (R246). -/
def State.takeLanding (s : State) (b : Body) : State :=
  match takeFirst (fun x : Packet => x.body == b) s.fabric.landing with
  | some (_, rest) => { s with fabric := { s.fabric with landing := rest } }
  | none => s

/-- CHAIN_ALLOCATE (R323): a cluster's allocator serves one waiting chain request. -/
def execChainAllocate (cluster : Nat) (s : State) : Host.Outcome State Fault Refusal :=
  .next (s.serveChain cluster)

end Sys2Proof.Machine
end

