-- ==== Sys2Proof/Machine/Combine.lean ====
section
/-! DEFINITION. Through-combine (R102 to R104), what arrives at a combine device, orphans, pending choices and their expiry
(R103, R111), the cancel list (R105 to R107), and overruns as they are counted (R46, R49). -/

namespace Sys2Proof.Machine

/-! ### Overruns (R46, R49) -/

/-- A unit overruns the running beat: counted once for the beat, in OVERRUN_COUNT unit × 8 + cause. -/
def State.overrun (s : State) (unit cause : Nat) : State :=
  if (s.reg Reg.overrunUnits).testBit unit then s
  else
    let s := (s.count (Reg.overrunCount (unit * 8 + cause)) 1).count Reg.overrunTotal 1
    (s.setReg Reg.lastOverrunBeat s.beatNow).setReg Reg.overrunUnits (setBitAt (s.reg Reg.overrunUnits) unit true)

/-! ### The combine of one token (R104) -/

/-- The fused multiply-add of R104: a × b + c rounded once to FP32, to nearest-even. -/
def fFma (a b c : FP32) : FP32 :=
  let neg := fNeg a != fNeg b
  if fIsNaN a ∨ fIsNaN b then fNaNOf a b
  else if fIsNaN c then fNaNOf c a
  else if fIsInf a ∨ fIsInf b then
    (if fIsZero a ∨ fIsZero b ∨ (fIsInf c ∧ fNeg c ≠ neg) then fNaNOf a b else fCode neg 0x7F800000)
  else if fIsInf c then c
  else if fIsZero a ∨ fIsZero b then (if fIsZero c then (if fNeg c = neg then c else 0) else c)
  else
    let v := dyAdd (dyMul (fVal a) (fVal b)) (fVal c)
    if v.m = 0 then 0 else fOfDy v

/-- What choice i of a token meets at its combine: nothing, an answer, or a refusal's cause; and whether it came late. -/
inductive Meets where
  | nothing
  | answer (p : BeatPacket) (late : Bool)
  | refusal (cause : Nat) (late : Bool)
deriving DecidableEq, Repr

/-- What is present for a choice of a token: a poisoned packet counts as absent (R436). -/
def State.meets (s : State) (t : TokenId) (b choice : Nat) : Meets :=
  let here := fun h : Held => heldFor t b h && returnChoice h.pkt == choice && !(h.bad || s.chainBad h.pkt)
  match s.combine.answers.find? here with
  | some h => .answer h.pkt h.late
  | none =>
    match s.combine.refusals.find? here with
    | some h => .refusal (refusalCause h.pkt) h.late
    | none =>
      match s.pools.marks.find? (fun m => m.tok == t && m.beat == b && m.choice == choice) with
      | some m => .refusal m.cause m.late
      | none => .nothing

/-- The running combine: the sum per element, answers added, choices missing, whether an answer carried an overrun and
whether a refusal was present. -/
structure Summing where
  sum     : List FP32
  got     : Nat
  missing : Nat
  overrun : Bool
  refused : Bool
deriving DecidableEq, Repr

/-- A choice stays pending (R104, R111). -/
def State.addPending (s : State) (c : PendingChoice) : State :=
  { s with combine := { s.combine with pending := s.combine.pending ++ [c] } }

/-- One entry of a Manifest at its combine (R104, R111). At a late combine what arrived after tick b + 1 is settled and
not added (R103). -/
def combineEntry (t : TokenId) (b : Nat) (late : Bool) (a : Summing × State) (e : ChoiceEntry) : Summing × State :=
  let x := a.1
  let s := a.2
  if e.dropped then (x, s.settle Reg.droppedCapacity)
  else match s.meets t b e.choice with
    | .nothing => ({ x with missing := x.missing + 1 }, s.addPending ⟨t, e.choice, b⟩)
    | .answer p after =>
      if late && after then ({ x with missing := x.missing + 1 }, s.settle Reg.lateDiscarded)
      else ({ x with sum := List.zipWith (fun v y => fFma e.gate (fOfB y) v) x.sum
                              ((List.range x.sum.length).map (fun j => p.vec.getD j 0)),
                     got := x.got + 1, overrun := x.overrun || answerOverrun p }, s.settle Reg.combined)
    | .refusal c after =>
      if late && after then ({ x with missing := x.missing + 1 }, s.settle (outcomeOfCause c))
      else ({ x with refused := true }, s.settle (outcomeOfCause c))

/-- What happens to an item held for a combined token: the cells of one that was used, or that a poison made absent, are
released; one that came late, or that names no accepted entry, goes to the Siding. -/
def State.combineHeld (s : State) (p : BeatPacket) (late : Bool) (h : Held) : State :=
  let names := p.entries.any (fun e => e.choice == returnChoice h.pkt && !e.dropped)
  if names && (h.bad || s.chainBad h.pkt || !(late && h.late)) then s.freeChains h.pkt else s.siding h.pkt

/-- A Manifest leaves the held ones, with the answers, refusals and marks of its token. -/
def State.closeToken (s : State) (p : BeatPacket) : State :=
  let t := idOf p.hdr
  let b := p.hdr.beat
  let keep := fun h : Held => !heldFor t b h
  { s with combine := { s.combine with manifests := s.combine.manifests.filter keep,
                                       answers := s.combine.answers.filter keep,
                                       refusals := s.combine.refusals.filter keep },
           pools := { s.pools with marks := s.pools.marks.filter (fun m => !(m.tok == t && m.beat == b)) } }

/-- A token's flags after its combine (R95, R104): ENTRY is not carried onward. -/
def combineFlags (f : BitVec 16) (late : Bool) (x : Summing) : BitVec 16 :=
  (f &&& ~~~flEntry) ||| (if late then flLate else 0) ||| (if x.overrun then flOverrun else 0) |||
    (if x.refused then flRefused else 0) ||| (if 0 < x.missing then flPartial else 0) |||
    (if x.got = 0 ∧ hasFlag f flEntry = false then flNoExpert else 0)

/-- COMBINE of one token (R102, R104): the residual at HOME_CLUSTER, the flags, the counters, the cells released. With no
accepted choice the sum of R104 is FP32 +0, which the model adds as its procedure states: an element of -0 becomes +0 and a NaN
takes the payload of the addition, where the prose passes the residual unchanged (DESIGN CHOICE, assumption 122). -/
def State.combineToken (s : State) (p : BeatPacket) (late : Bool) : State :=
  let t := idOf p.hdr
  let b := p.hdr.beat
  let held := (s.combine.answers ++ s.combine.refusals).filter (heldFor t b)
  let r := p.entries.foldl (combineEntry t b late) (⟨p.vec.map (fun _ => 0), 0, 0, false, false⟩, s)
  let x := r.1
  let s := held.foldl (fun s h => s.combineHeld p late h) r.2
  let s := (s.freeChains p).closeToken p
  let flags := combineFlags p.hdr.flags late x
  let out := List.zipWith (fun r v => bOfF (fAdd (fOfB r) v)) p.vec x.sum
  let s := s.count Reg.combines 1
  let s := if 0 < x.missing ∧ hasFlag p.hdr.flags flPartial = false then s.count Reg.partialCombines 1 else s
  let s := if x.got = 0 ∧ hasFlag p.hdr.flags flEntry = false ∧ hasFlag p.hdr.flags flNoExpert = false then
    s.count Reg.noExpertTokens 1 else s
  let s := if late then s.count Reg.manifestLate 1 else s
  let res : Residual := ⟨t, p.hdr.homeCluster % 16, p.hdr.lslot, hasFlag p.hdr.flags flEntry, flags, s.beatNow, out⟩
  { s with combine := { s.combine with residuals := s.combine.residuals ++ [res] } }

/-- A stale Manifest settles every choice as cancelled_discarded; it and what is held for it go to the Siding (R107). -/
def State.cancelToken (s : State) (p : BeatPacket) : State :=
  let s := { s with combine := { s.combine with manifests := s.combine.manifests.filter (fun h => h.pkt != p) } }
  (s.settleHeld p Reg.cancelledDiscarded (fun _ => Reg.cancelledDiscarded)).siding p

/-- A Manifest whose residual part is poisoned (R436): dropped entries settle as dropped_capacity, the others as
lost_fault, and its token's request ends with cause 1. -/
def State.poisonToken (s : State) (p : BeatPacket) : State :=
  let s := { s with combine := { s.combine with manifests := s.combine.manifests.filter (fun h => h.pkt != p) } }
  ((s.settleHeld p Reg.droppedCapacity (fun _ => Reg.lostFault)).freeChains p).sendEnd (idOf p.hdr) 1

/-- The combine of a held or late Manifest: stale, poisoned, or whole. -/
def State.combineManifest (s : State) (p : BeatPacket) (late : Bool) : State :=
  if s.stale p.hdr.batchTag p.hdr.gen then s.cancelToken p
  else if s.chainBad p then s.poisonToken p
  else s.combineToken p late

/-- Ascending BATCH_TAG and then LANE (R102). -/
def combineOrder (a b : Held) : Bool :=
  decide (a.pkt.hdr.batchTag < b.pkt.hdr.batchTag) ||
    (a.pkt.hdr.batchTag == b.pkt.hdr.batchTag && decide (a.pkt.hdr.lane ≤ b.pkt.hdr.lane))

/-- The combine window of tick b + 1 (R102, R103): every held Manifest of beat b, in order. -/
def State.combineWindow (s : State) : State :=
  let due := sortBy combineOrder (s.combine.manifests.filter (fun h => decide (s.age h.pkt.hdr.beat = 1)))
  due.foldl (fun s h => s.combineManifest h.pkt false) s

/-! ### Arrivals (R103) -/

/-- The packet's landing has failed in the 16 clusters: its record is taken off. -/
def State.clearFailed (s : State) (p : BeatPacket) : State :=
  { s with pools := { s.pools with failed := s.pools.failed.filter (fun f => f.2.1 != p) } }

/-- A whole answer or refusal: its slices are decided, then it meets its token (R103, R111, R325). -/
def State.returnLands (s : State) (p : BeatPacket) (answer : Bool) : State :=
  let s := (s.takeLanding (.beat p)).decideChains p
  if s.landingFailed 16 p then s.clearFailed p
  else s.returnArrives ⟨idOf p.hdr, p.hdr.beat, returnChoice p, answer, if answer then 0 else refusalCause p, some p⟩

/-- ANSWER_ARRIVAL (R102, R103, R111). -/
def execAnswerArrival (p : BeatPacket) (s : State) : Host.Outcome State Fault Refusal :=
  .next (if p.hdr.kind = 2 then s.returnLands p true else s)

/-- REFUSAL_ARRIVAL (R102, R103, R111). -/
def execRefusalArrival (p : BeatPacket) (s : State) : Host.Outcome State Fault Refusal :=
  .next (if p.hdr.kind = 4 then s.returnLands p false else s)

/-- A Manifest whose slices have landed (R103, R107, R110): repeated, stale, in time, late, or after ATTN_END. -/
def State.manifestLands (s : State) (p : BeatPacket) : State :=
  if s.knows (idOf p.hdr) p.hdr.beat then s.siding p
  else
    let s := (s.know p).enterLedger p.entries.length
    let a := s.age p.hdr.beat
    if s.stale p.hdr.batchTag p.hdr.gen then s.cancelToken p
    else if a = 0 ∨ 2 ^ 31 ≤ a then
      { s with combine := { s.combine with manifests := s.combine.manifests ++ [⟨p, false, s.chainBad p⟩] } }
    else if a = 1 ∧ !s.beat.attnEnded then s.combineManifest p true
    else (s.settleHeld p Reg.droppedCapacity (fun e => s.sidingOutcome p e)).siding p

/-- ORPHAN_SWEEP (R103, R325): at ATTN_END the answers and refusals of the beat before that no Manifest claims go to the
Siding as orphans, and their marks are released. -/
def execOrphanSweep (s : State) : Host.Outcome State Fault Refusal :=
  .next (
    if s.noBeat ∨ s.beat.attnEnded then s
    else
      let old := fun (t : TokenId) (b : Nat) => decide (1 ≤ s.age b) && decide (s.age b < 2 ^ 31) && !s.knows t b
      let gone := (s.combine.answers ++ s.combine.refusals).filter (fun h => old (idOf h.pkt.hdr) h.pkt.hdr.beat)
      let keep := fun h : Held => !old (idOf h.pkt.hdr) h.pkt.hdr.beat
      let t := gone.foldl (fun s h => (s.siding h.pkt).count Reg.orphans 1) s
      { t with beat := { t.beat with attnEnded := true },
               combine := { t.combine with answers := t.combine.answers.filter keep,
                                           refusals := t.combine.refusals.filter keep },
               pools := { t.pools with marks := t.pools.marks.filter (fun m => !old m.tok m.beat) } })

/-- The choices still pending two beats after their combine settle as lost_fault at tick b + 3 (R111); `ahead` is 1 where
that tick is the next one. -/
def State.expirePending (s : State) (ahead : Nat) : State :=
  let due := fun (c : PendingChoice) => decide (3 ≤ s.age c.beat + ahead) && decide (s.age c.beat < 2 ^ 31)
  let gone := s.combine.pending.filter due
  let t := gone.foldl (fun s _ => s.settle Reg.lostFault) s
  { t with combine := { t.combine with pending := t.combine.pending.filter (fun c => !due c) } }

/-- PENDING_EXPIRY (R111), at the tick that is about to fall. -/
def execPendingExpiry (s : State) : Host.Outcome State Fault Refusal :=
  .next (if s.noBeat then s else s.expirePending 1)

/-! ### The cancel list (R106) -/

/-- CANCEL_NOTICE_ARRIVAL (R106): the notice joins the list; one whose CB has passed applies at once and is counted. -/
def execCancelNoticeArrival (tag gen cb : Nat) (s : State) : Host.Outcome State Fault Refusal :=
  let n : CancelNotice := ⟨tag, gen, cb⟩
  let s := s.takeLanding (.mgmt (.cancel tag gen cb))
  .next (
    if s.combine.cancels.contains n then s
    else
      let s := { s with combine := { s.combine with cancels := s.combine.cancels ++ [n] } }
      let s := if cb ≤ s.beatNow ∧ !s.noBeat then s.count Reg.cancelLate 1 else s
      s.setReg Reg.cancelActive (s.combine.cancels.length % 256))

/-- The list without the notices that `gone` takes off. -/
def State.dropNotices (s : State) (gone : CancelNotice → Bool) : State :=
  let l := s.combine.cancels.filter (fun c => !gone c)
  ({ s with combine := { s.combine with cancels := l } }).setReg Reg.cancelActive (l.length % 256)

/-- CANCEL_NOTICE_EXPIRY (R106): a notice leaves the list at tick CB + 4. -/
def execCancelNoticeExpiry (tag gen : Nat) (s : State) : Host.Outcome State Fault Refusal :=
  .next (if s.noBeat then s
    else s.dropNotices (fun c => c.tag == tag && c.gen == gen && decide (c.cb + 4 ≤ s.beatNow + 1)))

end Sys2Proof.Machine
end

