-- ==== Sys2Proof/Machine/Homes.lean ====
section
/-! DEFINITION. The memory tiers (R285 to R317): home addresses, extents and their contents, homes held by tenants, HOME_CMD
with its queue and moves, KV frames and parked users, sealed images, and the errors a mover request ends with (R257, R258). -/

namespace Sys2Proof.Machine

/-! ### Home addresses (R305) and contents -/

/-- Bytes of a frame or extent: 2 MiB. -/
def extentBytes : Nat := 2097152

/-- The TIER of a home address: 1 fast, 2 slow, 3 far. -/
def homeTier (a : Nat) : Nat := field a 30 2

/-- The EXTENT of a home address. -/
def homeExt (a : Nat) : Nat := field a 0 22

/-- The PORT of a home address. -/
def homePort (a : Nat) : Nat := field a 22 1

/-- A home address from its fields. -/
def homeAddr (tier port ext : Nat) : Nat := ext % 2 ^ 22 + (if tier = 3 then port % 2 * 2 ^ 22 else 0) + tier % 4 * 2 ^ 30

/-- The near channel that byte off of a frame lies on (R290, R291): a LOCAL frame's units of 256 B rotate over the 16 channels of
its cluster, a SPREAD frame's lines go round the clusters, each share laid out as a LOCAL frame is. -/
def Home.channel (h : Home) (off : Nat) : Nat :=
  if h.spread then
    let line := off / 64
    16 * (line % 16) + (line / 16 * 64 + off % 64) / 256 % 16
  else 16 * h.cluster + off / 256 % 16

/-- Byte offset of an extent in its tier's store. -/
def homeBase (a : Nat) : Nat := (if homeTier a = 3 then homePort a * 2097152 + homeExt a else homeExt a) * extentBytes

/-- The byte store of a tier. -/
def Tiers.store (t : Tiers) (tier : Nat) : Memory := if tier = 1 then t.hbm else if tier = 2 then t.slow else t.far

/-- A tier's byte store set. -/
def Tiers.setStore (t : Tiers) (tier : Nat) (m : Memory) : Tiers :=
  if tier = 1 then { t with hbm := m } else if tier = 2 then { t with slow := m } else { t with far := m }

/-- n bytes of an extent. -/
def State.homeRead (s : State) (a off n : Nat) : List Byte := memRead (s.tiers.store (homeTier a)) (homeBase a + off) n

/-- The 64 B lines that [a, a + n) touches. -/
def linesOf (a n : Nat) : List Nat := if n = 0 then [] else (List.range ((a + n - 1) / 64 - a / 64 + 1)).map (a / 64 + ·)

/-- The 64 B lines that [a, a + n) covers whole. -/
def wholeLines (a n : Nat) : List Nat := (linesOf a n).filter (fun l => decide (a ≤ 64 * l) && decide (64 * l + 64 ≤ a + n))

/-- Bytes written to the fast tier; a whole line written clears its poison (R294). -/
def State.hbmWrite (s : State) (a : Nat) (bs : List Byte) : State :=
  { s with tiers := { s.tiers with
      hbm := memWrite s.tiers.hbm a bs,
      hbmBad := s.tiers.hbmBad.filter (fun l => !(wholeLines a bs.length).contains l) } }

/-- Bytes written to an extent. -/
def State.homeWrite (s : State) (a off : Nat) (bs : List Byte) : State :=
  if homeTier a = 1 then s.hbmWrite (homeBase a + off) bs
  else { s with tiers := s.tiers.setStore (homeTier a) (memWrite (s.tiers.store (homeTier a)) (homeBase a + off) bs) }

/-- Whether an uncorrectable line or an unreadable page lies in a range of an extent (R294, R299). -/
def State.homeBad (s : State) (a off n : Nat) : Bool :=
  if homeTier a = 1 then (linesOf (homeBase a + off) n).any (fun l => s.tiers.hbmBad.contains l)
  else if homeTier a = 2 then s.tiers.slowBad.any (fun p =>
    decide (p * 16384 < homeBase a + off + n) && decide (homeBase a + off < p * 16384 + 16384))
  else false

/-! ### Blocks of the flash stacks (R297, R299) -/

/-- Blocks of a flash stack: 16 channels of 8,192. -/
def stackBlocks : Nat := 131072

/-- The block that holds page p of slow extent e: pages go round the 16 channels of the extent's stack, 8 on each (R297). -/
def pageBlock (e p : Nat) : Nat :=
  e / 1048576 * stackBlocks + p % 16 * 8192 + (e % 1048576 * 8 + p / 16) / 1024

/-- Erase cycles of a block. -/
def Tiers.worn (t : Tiers) (b : Nat) : Nat := mapGetD 0 b t.erases

/-- A block of a stack with the fewest erase cycles: one never erased, where there is one. -/
def Tiers.leastWorn (t : Tiers) (stack : Nat) : Nat :=
  let es := t.erases.filter (fun e => e.1 / stackBlocks == stack)
  if es.length < stackBlocks then
    ((List.range (es.length + 1)).map (stack * stackBlocks + ·)).find? (fun b => t.worn b == 0) |>.getD (stack * stackBlocks)
  else (es.foldl (fun (m : Nat × Nat) e => if e.2 < m.2 then e else m) (es.headD (stack * stackBlocks, 0))).1

/-- A block is erased. Wear levelling keeps any two blocks of a stack within 500 cycles: the contents move, and the least worn block
is erased in its place, where the block itself would pass that (R299). -/
def Tiers.erase (t : Tiers) (b : Nat) : Tiers :=
  let l := t.leastWorn (b / stackBlocks)
  let b := if t.worn l + 500 ≤ t.worn b then l else b
  { t with erases := mapSet b (t.worn b + 1) t.erases }

/-- Pages of a stack are written: each 1,024 of them take a fresh block, the least worn one (R297, R299, assumption 141). -/
def Tiers.program (t : Tiers) (stack pages : Nat) : Tiers :=
  let n := mapGetD 0 stack t.written + pages
  let t := (List.range (n / 1024)).foldl (fun t _ => t.erase (t.leastWorn stack)) t
  { t with written := mapSet stack (n % 1024) t.written }

/-- A whole extent is written: 128 pages where it is a slow one. -/
def Tiers.writeExtent (t : Tiers) (a : Nat) : Tiers := if homeTier a = 2 then t.program (homeExt a / 1048576) 128 else t

/-- A freed extent is overwritten with zeros, poison included (R309). -/
def State.zeroExtent (s : State) (a : Nat) : State :=
  let t := s.tiers.writeExtent a
  let b := homeBase a
  let t := t.setStore (homeTier a) (memClear (t.store (homeTier a)) b extentBytes)
  { s with tiers := { t with
      hbmBad := if homeTier a = 1 then t.hbmBad.filter (fun l => !(decide (b / 64 ≤ l) && decide (l < b / 64 + 32768))) else t.hbmBad,
      slowBad := if homeTier a = 2 then t.slowBad.filter (fun p => !(decide (b / 16384 ≤ p) && decide (p < b / 16384 + 128)))
                 else t.slowBad } }

/-- The contents of one extent copied to another. -/
def State.copyExtent (s : State) (src dst : Nat) : State :=
  let cells := (s.tiers.store (homeTier src)).filter (fun c => decide (homeBase src ≤ c.1) && decide (c.1 < homeBase src + extentBytes))
  let m := cells.foldl (fun m c => memSet m (c.1 - homeBase src + homeBase dst) c.2) (s.tiers.store (homeTier dst))
  { s with tiers := (s.tiers.setStore (homeTier dst) m).writeExtent dst }

/-! ### Which extents are in use -/

/-- The record of a live or staged RM_XLATE list (R255). -/
structure XlateRec where
  jpn   : Nat
  ppn   : Nat
  rd    : Bool
  wr    : Bool
  ad    : Bool
  coh   : Bool
  valid : Bool
deriving DecidableEq, Repr, Inhabited

/-- The records of RM_XLATE content b. -/
def xlateRecs (b : Blob) : List XlateRec :=
  (List.range (b.len / 16)).map (fun i =>
    let w := b.nat (16 * i) 16
    { jpn := field w 0 27, ppn := field w 32 18, rd := w.testBit 60, wr := w.testBit 61, ad := w.testBit 62,
      coh := w.testBit 63, valid := w.testBit 127 })

/-- The valid live records. -/
def State.xlate (s : State) : List XlateRec := (xlateRecs (s.dom Reg.rmXlate)).filter (fun r => r.valid)

/-- Directory frames of the live COH pages: one frame per 128 pages (R316). -/
def State.dirFrames (s : State) : Nat := ((s.xlate.filter (fun r => r.coh)).length + 127) / 128

/-- The extents of a tier that are held, being moved to, or in a save area or an image. -/
def State.usedExts (s : State) (tier port : Nat) : List Nat :=
  let of := fun a => homeTier a == tier && (tier != 3 || homePort a == port)
  ((s.tiers.homes.map (fun h => h.addr)).filter of).map homeExt ++
    ((s.tiers.homes.filterMap (fun h => h.moving)).filter of).map homeExt ++
    (if tier = 1 then s.tiers.saveFrames.flatMap (fun e => e.2) else []) ++
    (if tier = 2 then s.tiers.images.flatMap (fun i => i.extents.map homeExt) else [])

/-- The first extent number from a on that is not in use. -/
def firstFree (used : List Nat) : Nat → Nat → Nat
  | 0, a => a
  | n + 1, a => if used.contains a then firstFree used n (a + 1) else a

/-- A free extent from lo up to hi: the first one at or after a start that the model leaves free, else the first from lo. -/
def freeExtent (used : List Nat) (lo hi start : Nat) : Nat :=
  let a := firstFree used used.length (lo + start % (hi - lo))
  if a < hi then a else firstFree used used.length lo

/-- Extents of a far port (R316). -/
def State.farExtents (s : State) (port : Nat) : Nat := mapGetD 0 port s.tiers.cxlExt

/-- CXL_STATE of a port (R302). -/
def State.cxl (s : State) (port : Nat) : Nat := mapGetD 0 port s.tiers.cxlState

/-- Free extents of a tier: frames 0 to 511 are never given to a tenant (R290). -/
def State.tierFree (s : State) (tier port : Nat) : Nat :=
  let cap := if tier = 1 then 196096 - s.dirFrames else if tier = 2 then 4194304 else s.farExtents port
  cap - (s.usedExts tier port).length

/-- Free extents of a flash stack. -/
def stackFree (used : List Nat) (k : Nat) : Nat := 1048576 - (used.filter (fun e => e / 1048576 == k)).length

/-- The flash stack with the most free extents, ties to the lower number (R301, R307). -/
def fullestStack (used : List Nat) : Nat :=
  [1, 2, 3].foldl (fun b k => if stackFree used b < stackFree used k then k else b) 0

/-- The extent an allocation of a tier takes next, if one is free. -/
def State.pickExtent (s : State) (tier port : Nat) : Option Nat :=
  if s.tierFree tier port = 0 then none
  else
    let used := s.usedExts tier port
    let start := Config.extentChoice s.free
    let k := fullestStack used
    if tier = 1 then some (freeExtent used 512 196608 start)
    else if tier = 2 then some (freeExtent used (1048576 * k) (1048576 * (k + 1)) start)
    else some (freeExtent used 0 (s.farExtents port) start)

/-! ### Homes -/

/-- The home with an address. -/
def State.homeAt (s : State) (a : Nat) : Option Home := s.tiers.homes.find? (fun h => h.addr == a)

/-- The homes in ascending address order, with one more. -/
def State.addHome (s : State) (h : Home) : State :=
  { s with tiers := { s.tiers with homes := insertBy (fun a b => decide (a.addr ≤ b.addr)) h s.tiers.homes } }

/-- One extent given to a tenant (R291, R307). -/
def State.allocOne (s : State) (tenant tier port cluster : Nat) (spread kv : Bool) : Option (Nat × State) :=
  (s.pickExtent tier port).map (fun e =>
    let a := homeAddr tier port e
    (a, (s.draws 1).addHome ⟨a, tenant, spread, cluster, none, 0, kv⟩))

/-- n extents given, with their addresses. -/
def State.allocMany (s : State) (tenant tier port cluster : Nat) (spread : Bool) : Nat → List Nat × State
  | 0 => ([], s)
  | n + 1 =>
    match s.allocOne tenant tier port cluster spread false with
    | none => ([], s)
    | some (a, t) =>
      let r := t.allocMany tenant tier port cluster spread n
      (a :: r.1, r.2)

/-- The homes changed one by one. -/
def State.mapHomes (s : State) (f : Home → Home) : State :=
  { s with tiers := { s.tiers with homes := s.tiers.homes.map f } }

/-- The frame lists of the KV users changed. -/
def State.mapFrames (s : State) (f : List Nat → List Nat) : State :=
  { s with tiers := { s.tiers with kv := s.tiers.kv.map (fun u => { u with frames := f u.frames }) } }

/-- A home taken off the list. -/
def State.dropHome (s : State) (a : Nat) : State :=
  { s with tiers := { s.tiers with homes := s.tiers.homes.filter (fun h => h.addr != a) } }

/-- A running command replaced by itself with other frames left. -/
def State.setRunning (s : State) (c : HomeCmd) : State :=
  { s with tiers := { s.tiers with running := s.tiers.running.map (fun (x : HomeCmd) =>
      if x.tenant == c.tenant && x.seqNo == c.seqNo then c else x) } }

/-- A user's KV without the frame at an address: what lay in it is gone, and its place in the user's list stays empty. -/
def KvUser.withoutFrame (u : KvUser) (a : Nat) : KvUser :=
  let gone := fun (b : KvSpan) => u.frames.getD b.frame 0 == a
  { u with frames := u.frames.map (fun x => if x = a then 0 else x), blocks := u.blocks.filter (fun b => !gone b),
           sums := u.sums.filter (fun b => !gone b) }

/-- An extent leaves its tenant and is zeroed (R309). -/
def State.freeHome (s : State) (a : Nat) : State :=
  let s := s.dropHome a
  ({ s with tiers := { s.tiers with kv := s.tiers.kv.map (fun (u : KvUser) => u.withoutFrame a) } }).zeroExtent a

/-! ### Command status (R311) -/

/-- The status of a tenant's command. -/
def State.setStatus (s : State) (tenant seq state cause done : Nat) : State :=
  { s with tiers := { s.tiers with
      status := mapSet (tenant * 16 + seq % 16) ⟨seq, state, cause, done⟩ s.tiers.status } }

/-- The status of a tenant's command changed, where its record has not passed to a later command. -/
def State.updStatus (s : State) (tenant seq : Nat) (f : HomeStatus → HomeStatus) : State :=
  match mapGet (tenant * 16 + seq % 16) s.tiers.status with
  | some x => if x.seqNo = seq then { s with tiers := { s.tiers with status := mapSet (tenant * 16 + seq % 16) (f x) s.tiers.status } }
              else s
  | none => s

/-! ### Moves (R308) -/

/-- The flash stacks and far ports a move between two addresses uses. -/
def moveUses (a : Nat) : List Nat :=
  if homeTier a = 2 then [homeExt a / 1048576] else if homeTier a = 3 then [8 + homePort a] else []

/-- Stacks and ports used by the running moves. -/
def State.usedByMoves (s : State) : List Nat :=
  s.tiers.homes.flatMap (fun h => match h.moving with
    | some d => moveUses h.addr ++ moveUses d
    | none => [])

/-- Moves that run. -/
def State.movesRunning (s : State) : Nat := (s.tiers.homes.filter (fun h => h.moving.isSome)).length

/-- What a move's start answers: it must wait, it failed with a cause, or it runs. -/
inductive MoveStart where
  | waits
  | fails (cause : Nat)
  | runs (s : State)
deriving Repr

/-- A move starts: at most 4 at a time, no two on one stack or port; the source becomes MOVING. One that waits for its turn does so
before it looks for an extent; one whose source an earlier command has freed fails with cause 1 (assumption 142). -/
def State.startMove (s : State) (seq src tier port : Nat) : MoveStart :=
  let busy := fun (a : Nat) => (moveUses a).any (fun x => s.usedByMoves.contains x)
  if (s.homeAt src).isNone then .fails 1
  else if 4 ≤ s.movesRunning ∨ busy src ∨ (tier = 3 ∧ busy (homeAddr 3 port 0)) then .waits
  else match s.pickExtent tier port with
    | none => .fails 16
    | some e =>
      let d := homeAddr tier port e
      if busy d then .waits
      else .runs ((s.draws 1).mapHomes (fun h => if h.addr == src then { h with moving := some d, moveSeq := seq } else h))

/-- The user of a PARK or UNPARK command. -/
def State.kvUser (s : State) (tenant tag lane : Nat) : Option KvUser :=
  s.tiers.kv.find? (fun u => u.tenant == tenant && u.tag == tag && u.lane == lane)

/-- A KV user changed or added. -/
def State.setKvUser (s : State) (u : KvUser) : State :=
  let rest := s.tiers.kv.filter (fun x => !(x.tenant == u.tenant && x.tag == u.tag && x.lane == u.lane))
  { s with tiers := { s.tiers with kv := rest ++ [u] } }

/-- The places of a user's frames in ascending frame order. -/
def KvUser.ascending (u : KvUser) : List Nat :=
  let held := (List.range u.frames.length).filter (fun i => u.frames.getD i 0 != 0)
  sortBy (fun i j => decide (u.frames.getD i 0 ≤ u.frames.getD j 0)) held

/-- The frames a PARK or UNPARK has to move (R314): all of them in ascending frame order, or those that are away, in the order in
which the PARK moved them. -/
def parkFrames (unpark : Bool) (u : KvUser) : List Nat :=
  let at' := fun (l : List Nat) => (l.map (fun i => u.frames.getD i 0)).filter (fun a => a != 0)
  if unpark then (at' u.order).filter (fun a => homeTier a != 1) else at' u.ascending

/-- A running command ends. -/
def State.endCommand (s : State) (c : HomeCmd) (state cause : Nat) : State :=
  let rest := s.tiers.running.filter (fun (x : HomeCmd) => !(x.tenant == c.tenant && x.seqNo == c.seqNo))
  let s := { s with tiers := { s.tiers with running := rest } }
  let s := if c.opc = 5 ∧ state = 2 then
      match s.kvUser c.tenant c.tag c.lane with
      | some u => s.setKvUser { u with parked := false }
      | none => s
    else s
  s.updStatus c.tenant c.seqNo (fun x => { x with state := state, cause := cause })

/-- Whether a move of a command is running. -/
def State.movingFor (s : State) (c : HomeCmd) : Bool :=
  s.tiers.homes.any (fun h => h.tenant == c.tenant && h.moveSeq == c.seqNo && h.moving.isSome)

/-- The next frames of a running PARK, UNPARK or MOVE start, in order, until one must wait; the command ends when none is
left and none runs. The answer says whether its frames have all started. -/
def State.pumpMoves (s : State) (c : HomeCmd) : Nat → Bool × State
  | 0 => (false, s)
  | n + 1 =>
    match c.left with
    | [] => if s.movingFor c then (true, s) else (true, s.endCommand c 2 0)
    | a :: rest =>
      match s.startMove c.seqNo a c.tier c.port with
      | .waits => (false, s)
      | .fails cause => (true, (s.count Reg.movesFailed 1).endCommand c 3 cause)
      | .runs t =>
        let c := { c with left := rest }
        (t.setRunning c).pumpMoves c n

/-- A command of the queue starts (R307): ALLOC and FREE end at once, the others begin their moves. -/
def State.startCommand (s : State) (c : HomeCmd) : Bool × State :=
  match c.opc with
  | 1 =>
    if c.count = 0 then (true, s.setStatus c.tenant c.seqNo 2 0 0)
    else if s.tierFree c.tier c.port < c.count then (true, s.setStatus c.tenant c.seqNo 3 16 0)
    else
      let r := s.allocMany c.tenant c.tier c.port c.cluster c.spread c.count
      let t := { r.2 with tiers := { r.2.tiers with result := mapSet c.tenant (sortBy (fun a b => decide (a ≤ b)) r.1) r.2.tiers.result } }
      (true, t.setStatus c.tenant c.seqNo 2 0 c.count)
  | 2 =>
    let held := match s.homeAt c.home with
      | some h => h.tenant == c.tenant
      | none => false
    if held then (true, (s.freeHome c.home).setStatus c.tenant c.seqNo 2 0 1) else (true, s.setStatus c.tenant c.seqNo 3 1 0)
  | 3 =>
    let c := { c with left := [c.home] }
    let t := { s with tiers := { s.tiers with running := s.tiers.running ++ [c] } }
    (t.setStatus c.tenant c.seqNo 1 0 0).pumpMoves c 2
  | o =>
    let fs := match s.kvUser c.tenant c.tag c.lane with
      | some u => parkFrames (o == 5) u
      | none => []
    let s := match s.kvUser c.tenant c.tag c.lane with
      | some u => if o = 4 then s.setKvUser { u with order := u.ascending } else s
      | none => s
    let c := { c with left := fs, spread := true }
    let t := { s with tiers := { s.tiers with running := s.tiers.running ++ [c] } }
    (t.setStatus c.tenant c.seqNo 1 0 0).pumpMoves c (fs.length + 1)

/-- The running commands go on, then queued commands of the running tenant start in order, until one must wait. -/
def State.pumpQueue (s : State) : Nat → State
  | 0 => s
  | n + 1 =>
    match s.tiers.running.find? (fun c => c.left != []) with
    | some c =>
      let r := s.pumpMoves c (c.left.length + 1)
      if r.1 then r.2.pumpQueue n else r.2
    | none =>
      match takeFirst (fun c : HomeCmd => c.tenant == s.tenantNow) s.tiers.cmds with
      | none => s
      | some (c, rest) =>
        let r := ({ s with tiers := { s.tiers with cmds := rest } }).startCommand c
        if r.1 then r.2.pumpQueue n else r.2

/-- The queue runs as far as it can. -/
def State.pumpHomes (s : State) : State := s.pumpQueue (s.tiers.cmds.length + s.tiers.running.length + 1)

/-- A home-change record joins HOME_LOG, which keeps the latest 256 (R308, R311). -/
def State.logMove (s : State) (src dst seq : Nat) : State :=
  let l := s.tiers.log ++ [[src, dst, seq, s.beatNow % 2 ^ 64]]
  { s with tiers := { s.tiers with log := l.drop (l.length - 256) } }

/-- The end of a move: the home switches and its source is freed, or it stays and the destination is freed (R308). -/
def State.finishMove (s : State) (h : Home) (d cause : Nat) : State :=
  let cmd := s.tiers.running.find? (fun c => c.tenant == h.tenant && c.seqNo == h.moveSeq)
  if cause = 0 then
    let spread := match cmd with
      | some c => c.spread
      | none => h.spread
    let cluster := match cmd with
      | some c => c.cluster
      | none => h.cluster
    let s := s.copyExtent h.addr d
    let s := (s.dropHome h.addr).mapFrames (fun l => l.map (fun a => if a == h.addr then d else a))
    let s := s.addHome { h with addr := d, moving := none, spread := spread, cluster := cluster }
    let s := ((s.zeroExtent h.addr).logMove h.addr d h.moveSeq).count Reg.movesDone 1
    let s := s.updStatus h.tenant h.moveSeq (fun x => { x with done := x.done + 1 })
    match cmd with
    | some c => if c.left = [] ∧ !s.movingFor c then s.endCommand c 2 0 else s
    | none => s
  else
    let s := s.mapHomes (fun x => if x.addr == h.addr then { x with moving := none } else x)
    let s := (s.zeroExtent d).count Reg.movesFailed 1
    match cmd with
    | some c => s.endCommand c 3 cause
    | none => s

/-- An extent that a read of the device found unreadable (R294, R299, R303): the line is poisoned and counted, the page is lost, or
the completion was poisoned. The line or page is one that the model leaves free (assumption 149). -/
def State.unreadable (s : State) (a : Nat) : State :=
  let known := s.homeBad a 0 extentBytes
  let n := Config.badPlace s.free
  let s := s.draws 1
  if homeTier a = 1 then
    if known then s
    else ({ s with tiers := { s.tiers with hbmBad := s.tiers.hbmBad ++ [homeBase a / 64 + n % 32768] } }).count Reg.hbmUe 1
  else if homeTier a = 2 then
    (if known then s
     else { s with tiers := { s.tiers with slowBad := s.tiers.slowBad ++ [homeBase a / 16384 + n % 128] } }).count Reg.flashUe 1
  else s.count Reg.cxlPoison 1

/-- Whether an extent's far port is DOWN or absent (R303). -/
def State.farGone (s : State) (a : Nat) : Bool := homeTier a == 3 && decide (s.cxl (homePort a) < 2)

/-- What a failed move leaves beside its status (R299, R303, R315): with cause 5 the source could not be read; with cause 7 on a
port that is up a request of it timed out. -/
def State.moveFailed (s : State) (src dst cause : Nat) : State :=
  if cause = 5 then s.unreadable src
  else if cause = 7 ∧ !s.farGone src ∧ !s.farGone dst ∧ (homeTier src = 3 ∨ homeTier dst = 3) then s.count Reg.cxlTimeouts 1
  else s

/-- MOVE_DONE (R308): the move of a home ends, with cause 0 or its cause. A source that cannot be read fails with cause
5, and a far port that is DOWN with cause 7 (R315). -/
def execMoveDone (home cause : Nat) (s : State) : Host.Outcome State Fault Refusal :=
  .next (match s.homeAt home with
    | none => s
    | some h =>
      match h.moving with
      | none => s
      | some d =>
        let c := if cause ≠ 0 then cause else if s.homeBad h.addr 0 extentBytes then 5
                 else if s.farGone h.addr || s.farGone d then 7 else 0
        ((s.moveFailed h.addr d c).finishMove h d c).pumpHomes)

/-! ### HOME_CMD (R307) -/

/-- The 32 B of a command. -/
def homeCmdBytes (op tier : Nat) (spread : Bool) (port cluster home count tag lane : Nat) : List Byte :=
  leBytes 32 (op % 16 + tier % 4 * 16 + (if spread then 64 else 0) + port % 2 * 128 + cluster % 16 * 256 +
    home % 2 ^ 32 * 2 ^ 32 + count % 2 ^ 32 * 2 ^ 64 + tag % 2 ^ 32 * 2 ^ 96 + lane % 256 * 2 ^ 128)

/-- Whether a valid RM_XLATE record names a frame whose page is not RECALLED (R307). -/
def State.namedByXlate (s : State) (a : Nat) : Bool :=
  homeTier a == 1 && s.xlate.any (fun r => r.ppn == homeExt a &&
    !(s.reg Reg.recallState == 2 && s.rmem.recallJpn == r.jpn) && !s.rmem.recalled.contains r.jpn)

/-- Whether a command of a list moves a home: a MOVE of it, or a PARK or UNPARK of the user whose frame it is (R307). -/
def State.queuedMove (s : State) (home : Nat) (c : HomeCmd) : Bool :=
  if c.opc = 3 then c.home == home
  else decide (4 ≤ c.opc) && (match s.kvUser c.tenant c.tag c.lane with
    | some u => (parkFrames (c.opc == 5) u).contains home
    | none => false)

/-- A write of a command by the running tenant or by the manager for it: refused at the first failing check of R307, else
queued. -/
def State.writeHomeCmd (s : State) (r : Role) (bs : List Byte) : Result :=
  let w := leNat bs
  let tenant := s.tenantNow
  let op := field w 0 4
  let tier := field w 4 2
  let home := field w 32 32
  let count := field w 64 32
  let tag := field w 96 32
  let lane := field w 128 8
  let h := s.homeAt home
  let acts := op == 2 || op == 3
  let mine := s.tiers.cmds.filter (fun c => c.tenant == tenant)
  let user := s.kvUser tenant tag lane
  let held := match h with
    | some x => x.tenant == tenant
    | none => false
  let moving := match h with
    | some x => x.moving.isSome
    | none => false
  let kvBusy := s.tiers.kv.any (fun u => u.frames.contains home && !u.parked)
  let parked := match user with
    | some u => u.parked
    | none => false
  let code := firstFail [
    (r == .mgr && s.slotNow == 0xFF, abortCode 7 0x80),
    (bs.length != 32 || op == 0 || decide (5 < op) || field w 12 20 != 0 || field w 136 120 != 0 || tier == 0 ||
      (op == 5 && tier != 1) || decide (4096 < count), abortCode 4 0),
    (acts && !held, abortCode 2 0),
    (decide (16 ≤ mine.length), abortCode 6 0x32),
    (acts && (moving || mine.any (s.queuedMove home) ||
      s.tiers.running.any (fun c => c.left.contains home)), abortCode 7 0x32),
    (acts && s.namedByXlate home, abortCode 7 0x33),
    (acts && kvBusy, abortCode 7 0x34),
    ((op == 4 && parked) || (op == 5 && !parked), abortCode 7 0x35)]
  if code ≠ 0 then (code, s)
  else
    let seq := (mapGetD 0 tenant s.tiers.cmdSeq + 1) % 65536
    let c : HomeCmd := ⟨seq, tenant, op, tier, w.testBit 6, field w 7 1, field w 8 4, home, count, tag, lane, []⟩
    let s := { s with tiers := { s.tiers with cmds := s.tiers.cmds ++ [c], cmdSeq := mapSet tenant seq s.tiers.cmdSeq } }
    let s := s.setStatus tenant seq 0 0 0
    let s := if op = 4 then s.setKvUser { (user.getD ⟨tag, lane, tenant, [], false, [], [], []⟩) with parked := true } else s
    (0, s.pumpHomes)

/-- The running commands of a tenant end ABANDONED at a swap's epoch tick, their homes where they were (R310). -/
def State.abandonHomes (s : State) (tenant : Nat) : State :=
  let s := (s.tiers.homes.filter (fun h => h.tenant == tenant && h.moving.isSome)).foldl (fun s h =>
    let s := s.mapHomes (fun x => if x.addr == h.addr then { x with moving := none } else x)
    match h.moving with
    | some d => s.zeroExtent d
    | none => s) s
  (s.tiers.running.filter (fun c => c.tenant == tenant)).foldl (fun s c => s.endCommand c 4 0) s

/-! ### KV frames (R312, R313) -/

/-- KV frames a tenant holds in the fast tier. -/
def State.kvFrames (s : State) (tenant : Nat) : Nat :=
  (s.tiers.homes.filter (fun h => h.kv && h.tenant == tenant && homeTier h.addr == 1)).length

/-- A KV or summary frame taken for a user, where KV_FRAME_LIMIT and the tier allow it. -/
def State.takeKvFrame (s : State) (u : KvUser) : Option State :=
  if s.reg Reg.kvFrameLimit ≤ s.kvFrames u.tenant then none
  else (s.allocOne u.tenant 1 0 0 true true).map (fun r => r.2.setKvUser { u with frames := u.frames ++ [r.1] })

/-- A user's request ends at its attention device (R313). -/
def State.endRequest (s : State) (t : TokenId) (cause : Nat) : State :=
  (s.leaveStage t).sendEnd t cause

/-- Whether an active layer slot of the device keeps KV (R65). -/
def State.keepsKv (s : State) : Bool :=
  (List.range 256).any (fun n => decide (0 < (s.layerSlot n).experts) && (s.layerSlot n).kvSel)

/-- A token reaches attention (R312, R313): a parked user's request ends; a user with no frame of its own takes one for
blocks and one for summaries, and a take that fails ends the request. -/
def State.reachAttention (s : State) (t : TokenId) : State :=
  let tenant := s.tenantNow
  let u := (s.kvUser tenant t.tag t.lane).getD ⟨t.tag, t.lane, tenant, [], false, [], [], []⟩
  if u.parked then s.endRequest t 3
  else if !s.keepsKv ∨ u.frames ≠ [] then s
  else match s.takeKvFrame u with
    | none => s.endRequest t 2
    | some s1 =>
      match s1.takeKvFrame ((s1.kvUser tenant t.tag t.lane).getD u) with
      | none => s1.endRequest t 2
      | some s2 => s2

/-! ### Sealed images (R301) -/

/-- A tenant's stored image. -/
def State.imageOf (s : State) (tenant id : Nat) : Option Image :=
  s.tiers.images.find? (fun i => i.tenant == tenant && i.id == id)

/-- The extents a body of n extents takes in turn from the four stacks, the one with the most free first; a full stack is
passed over (R301). -/
def State.imageExtents (s : State) : Nat → Nat → List Nat → List Nat
  | 0, _, got => got
  | n + 1, k, got =>
    let used := s.usedExts 2 0 ++ got
    let k := ([k, k + 1, k + 2, k + 3].find? (fun j => decide (0 < stackFree used (j % 4)))).getD k
    let e := freeExtent used (1048576 * (k % 4)) (1048576 * (k % 4 + 1)) (Config.extentChoice (s.free + got.length))
    s.imageExtents n (k + 1) (got ++ [e])

/-- A whole transfer to IMAGE_STORE (R301). -/
def State.writeImage (s : State) (r : Role) (bs : List Byte) : Result :=
  let tenant := s.tenantNow
  let body := bs.drop 64
  let id := natAt bs 4 2
  let need := (body.length + extentBytes - 1) / extentBytes
  let code := firstFail [
    (r == .mgr && s.slotNow == 0xFF, abortCode 7 0x80),
    (natAt bs 0 4 != 0x494D4731 || natAt bs 6 2 != 0 || natAt bs 12 4 != 0 || !allZero (bytesAt bs 48 16) ||
      natAt bs 8 4 != body.length || body.length == 0 || decide (bs.length < 64), abortCode 3 0),
    (bytesAt bs 16 32 != sha3 body, abortCode 8 0),
    ((s.imageOf tenant id).isSome, abortCode 7 0x52),
    (decide (s.tierFree 2 0 < need), abortCode 6 0x52)]
  if code ≠ 0 then (code, s)
  else
    let ext := s.imageExtents need (fullestStack (s.usedExts 2 0)) []
    let img : Image := ⟨tenant, id, bytesAt bs 16 32, body, ext.map (homeAddr 2 0)⟩
    let t := s.draws need
    let tiers := img.extents.foldl Tiers.writeExtent t.tiers
    (0, { t with tiers := { tiers with images := tiers.images ++ [img] } })

/-- An image leaves the slow tier, its extents zeroed (R301, R309). -/
def State.dropImage (s : State) (i : Image) : State :=
  let s := i.extents.foldl State.zeroExtent s
  { s with tiers := { s.tiers with images := s.tiers.images.filter (fun x => !(x.tenant == i.tenant && x.id == i.id)) } }

/-- A write of IMAGE_DELETE (R301). -/
def State.writeImageDelete (s : State) (r : Role) (id : Nat) : Result :=
  let tenant := s.tenantNow
  let loading := s.platforms.images.any (fun e => e.2.state == 1 && e.2.imageId == id)
  let code := firstFail [
    (r == .mgr && s.slotNow == 0xFF, abortCode 7 0x80),
    (loading, abortCode 7 0x51),
    ((s.imageOf tenant id).isNone, abortCode 1 0x50)]
  if code ≠ 0 then (code, s)
  else (0, match s.imageOf tenant id with
    | some i => s.dropImage i
    | none => s)

/-- The load state of a Platform slot (R119). -/
def State.imageSlot (s : State) (p : Nat) : ImageSlot := mapGetD ⟨0, 0, 0, 0⟩ p s.platforms.images

/-- The state with a slot's load state set. -/
def State.setImageSlot (s : State) (p : Nat) (i : ImageSlot) : State :=
  { s with platforms := { s.platforms with images := mapSet p i s.platforms.images } }

/-- A write of IMAGE_LOAD (R119). -/
def State.writeImageLoad (s : State) (p : Nat) : Result :=
  let rec' := platResOf (s.dom Reg.platformRes) p
  let code := firstFail [
    ((s.plat p).en || (s.imageSlot p).state == 1, abortCode 7 0x51),
    ((s.imageOf s.tenantNow rec'.imageId).isNone, abortCode 1 0x50)]
  if code ≠ 0 then (code, s)
  else (0, s.setImageSlot p ⟨1, rec'.imageId, rec'.cls, rec'.place⟩)

/-! ### Errors of a mover's requests (R257, R258) -/

/-- A failed request: counted, the slot's error counter raised, and logged; the log keeps the latest 16 (R258, R269). -/
def State.rmError (s : State) (core cause op rank jva : Nat) (errCtr : Option Nat) : State :=
  let s := s.count Reg.rmErrors 1
  let s := match errCtr with
    | some i => s.updCore core (fun k => k.incCtr i (s.syncBeat core))
    | none => s
  let l := s.rmem.faults ++ [[cause, op, core, rank, jva, s.beatNow % 2 ^ 32]]
  { s with rmem := { s.rmem with faults := l.drop (l.length - 16) } }

/-- The error counter the running slot of a core's mover names. -/
def State.mvErrCtr (s : State) (core : Nat) : Option Nat :=
  match (s.core core).mv.active with
  | some a => a.slot.errCtr
  | none => none

end Sys2Proof.Machine
end

