-- ==== Sys2Proof/Machine/Yard.lean ====
section
/-! DEFINITION. The Yard (R61 to R78) and dispatch (R85 to R95): the input queue of stage 1, scores, selection, gate weights, the
STRIPED request, KV blocks, the gate-table copy, and the credit check that sends Manifest and Consists. -/

namespace Sys2Proof.Machine

/-! ### Selection (R62) -/

/-- Whether a key ranks before or with another: descending score. -/
def keyGe (a b : Nat × FP32) : Bool := !fLt a.2 b.2

/-- The K highest of (index, key) candidates in rank order: non-finite keys never, equal keys the lower index first
(R62, R73). -/
def topK (k : Nat) (cands : List (Nat × FP32)) : List (Nat × FP32) :=
  (sortBy keyGe (sortBy (fun a b => decide (a.1 ≤ b.1)) (cands.filter (fun c => fIsFin c.2)))).take k

/-- How many keys are NaN or infinite (R73). -/
def badKeys (cands : List (Nat × FP32)) : Nat := (cands.filter (fun c => !fIsFin c.2)).length

/-- Selector cycles (R62, R76). -/
def selCycles (n : Nat) : Nat := (n + 63) / 64

/-- Scorer cycles (R76). -/
def scoreCycles (n w : Nat) : Nat := (n * w + 4095) / 4096

/-! ### Scoring (R61, R71, R74) -/

/-- A hidden element converted to FP8 E4M3: its exact value, none for NaN, and whether it was clamped to ±448 (R71). -/
def toE4m3In (x : BF16) : Option Dy × Bool :=
  if bIsNaN x then (none, false)
  else if bIsInf x then (eltVal .e4m3 (eltCode .e4m3 (bNeg x) (eltMaxMag .e4m3 (bNeg x))), true)
  else
    let r := e4m3OfDy (fVal (fOfB x))
    (eltVal .e4m3 r.1, r.2)

/-- The exact value of a finite BF16 element. -/
def bExact (x : BF16) : Option Dy := if bIsNaN x || bIsInf x then none else some (fVal (fOfB x))

/-- The bytes of element j of a stage-1 output: those of the last share that holds it. -/
def YardInput.elt (x : YardInput) (size j : Nat) : Option (List Byte) :=
  (x.parts.reverse.find? (fun p => decide (p.1 ≤ j) && decide ((j - p.1) * size + size ≤ p.2.length))).map
    (fun p => bytesAt p.2 ((j - p.1) * size) size)

/-- Whether every output of stage 1 has been written (R71). -/
def YardInput.whole (x : YardInput) (l : LayerSlot) : Bool :=
  (List.range l.width).all (fun j => (x.elt l.eltBytes j).isSome)

/-- The exact value of an element in IN_FMT. -/
def inFmtVal (l : LayerSlot) (bs : List Byte) : Option Dy :=
  if l.bf16 then bExact (BitVec.ofNat 16 (leNat bs)) else eltVal .e4m3 (leNat bs)

/-- The hidden vector of direct mode in IN_FMT (R71): exact values, and the elements clamped on conversion. -/
def directInput (l : LayerSlot) (hidden : List BF16) : List (Option Dy) × Nat :=
  if l.bf16 then (hidden.map bExact, 0)
  else
    let r := hidden.map toE4m3In
    (r.map (fun x => x.1), (r.filter (fun x => x.2)).length)

/-- A token's stage-1 output in the queue of a Yard. -/
def State.inputOf (s : State) (tok : TokenId) (lslot cluster : Nat) : Option YardInput :=
  s.yards.inputs.find? (fun x => x.tok == tok && x.lslot == lslot && x.cluster == cluster)

/-- A token's scorer input: exact element values, none for one that is not finite, and the elements clamped on conversion. In
factored mode it is the stage-1 output, once whole; in direct mode the hidden vector (R71). -/
def State.scorerInput (s : State) (l : LayerSlot) (tok : TokenId) (lslot cluster : Nat) (hidden : List BF16) :
    Option (List (Option Dy) × Nat) :=
  if l.direct then some (directInput l hidden)
  else match s.inputOf tok lslot cluster with
    | none => none
    | some x =>
      if x.whole l then some ((List.range l.width).map (fun j => (x.elt l.eltBytes j).bind (inFmtVal l)), 0) else none

/-- A share of a token's stage-1 output reaches the input queue of a cluster's Yard (R71). -/
def State.yardShare (s : State) (tok : TokenId) (lslot cluster beat first : Nat) (bs : List Byte) : State :=
  let old := (s.inputOf tok lslot cluster).getD ⟨tok, lslot, cluster, beat % 2 ^ 32, []⟩
  let rest := s.yards.inputs.filter (fun x => !(x.tok == tok && x.lslot == lslot && x.cluster == cluster))
  { s with yards := { s.yards with inputs := rest ++ [{ old with parts := old.parts ++ [(first, bs)] }] } }

/-- The exact value of element j of a table row at byte offset `off`, none where it is not finite. -/
def tableElt (l : LayerSlot) (b : Blob) (off j : Nat) : Option Dy :=
  if l.bf16 then
    let x : BF16 := BitVec.ofNat 16 (b.nat (off + 2 * j) 2)
    if bIsNaN x || bIsInf x then none else some (fVal (fOfB x))
  else eltVal .e4m3 (b.get (off + j)).toNat

/-- The dot product of two equal runs of exact values, none where an element is not finite. -/
def exactDot : List (Option Dy) → List (Option Dy) → Option Dy
  | some x :: xs, some y :: ys => (exactDot xs ys).map (dyAdd (dyMul x y))
  | [], _ => some dyZero
  | _, [] => some dyZero
  | _, _ => none

/-- The score of a row (R61): exact sums of 64 products, each rounded once to FP32, added in ascending order; a NaN
where an element is not finite. -/
def rowScore (l : LayerSlot) (b : Blob) (row : Nat) (x : List (Option Dy)) : FP32 :=
  let off := row * l.width * l.eltBytes
  let run := fun i : Nat =>
    exactDot ((List.range 64).map (fun j => tableElt l b off (64 * i + j))) ((x.drop (64 * i)).take 64)
  let parts := (List.range (l.width / 64)).map (fun i => match run i with
    | some d => fOfDy d
    | none => fNaN)
  parts.tail.foldl fAdd (parts.getD 0 0)

/-- A row's bias: an empty table stands for zeros (R84). -/
def biasOf (b : Blob) (row : Nat) : FP32 := BitVec.ofNat 32 (b.nat (4 * row) 4)

/-- Score and key of a row of one table in a Yard; a poisoned row scores NaN (R435). -/
def State.rowKey (s : State) (l : LayerSlot) (lslot cluster : Nat) (w bias : Nat) (row mark : Nat) (x : List (Option Dy)) :
    FP32 × FP32 :=
  let sc := if s.tiers.tableBad.contains (cluster, lslot, mark) then fNaN
            else rowScore l (s.dom (slotKey w lslot)) row x
  (sc, if l.biasEn then fAdd sc (biasOf (s.dom (slotKey bias lslot)) row) else sc)

/-- Scores and keys of a group's experts, in the Yard of a cluster (R72): expert, key, unbiased score. -/
def State.groupScores (s : State) (l : LayerSlot) (lslot cluster g : Nat) (x : List (Option Dy)) :
    List (Nat × FP32 × FP32) :=
  (List.range l.perGroup).map (fun i =>
    let e := g * l.perGroup + i
    let r := s.rowKey l lslot cluster Reg.gateExpertW Reg.gateExpertBias e (l.groupRows + e) x
    (e, r.2, r.1))

/-- The kept experts of a list of (expert, key, score), in rank order. -/
def keepExperts (k : Nat) (l : List (Nat × FP32 × FP32)) : List (Nat × FP32 × FP32) :=
  (topK k (l.map (fun e => (e.1, e.2.1)))).filterMap (fun c => l.find? (fun e => e.1 == c.1))

/-- The keys that are NaN or infinite among experts (R73). The rule speaks of the score: a finite score whose biased key is NaN or
infinite is excluded and counted by its key too (DESIGN CHOICE, assumption 123). -/
def badExperts (l : List (Nat × FP32 × FP32)) : Nat := (l.filter (fun e => !fIsFin e.2.1)).length

/-- Gate weights of the chosen unbiased scores, in choice order (R74). -/
def gateWeights (l : LayerSlot) (sc : List FP32) : List FP32 :=
  let w := if l.norm = 0 then
      let m := sc.tail.foldl fMax (sc.getD 0 0)
      sc.map (fun x => fExp (fSub x m))
    else sc.map fSigmoid
  let w := if l.norm ≤ 1 then
      let t := w.foldl fAdd 0
      w.map (fun x => fDiv x t)
    else w
  w.map (fun x => fMul x l.gateScale)

/-- What stage 2 leaves: the choices, the scores not finite that were counted, the scorer's cycles. -/
structure Stage2 where
  list   : List (Nat × FP32)
  nan    : Nat
  cycles : Nat
  short  : Bool
deriving DecidableEq, Repr, Inhabited

/-- The reply of an owning Yard, where it has come (R72). -/
def State.replyFor (s : State) (tok : TokenId) (home lslot g : Nat) : Option GroupReply :=
  s.yards.replies.find? (fun r => r.tok == tok && r.home == home && r.lslot == lslot && r.group == g)

/-- Expert selection and gate weights (R72, R74): the chosen experts with their weights, in choice order. -/
def State.stage2 (s : State) (tok : TokenId) (lslot home : Nat) (x : List (Option Dy)) : Stage2 :=
  let l := s.layerSlot lslot
  let gk := if 1 < l.groups then (List.range l.groups).map (fun g =>
      (g, (s.rowKey l lslot home Reg.gateGroupW Reg.gateGroupBias g g x).2)) else []
  let groups := if 1 < l.groups then sortBy (fun a b => decide (a ≤ b)) ((topK l.topGroups gk).map (fun g => g.1)) else [0]
  let each := groups.map (fun g =>
    match if l.striped then s.replyFor tok home lslot g else none with
    | some r => (r.experts, 0, 0)
    | none =>
      let c := s.groupScores l lslot (if l.striped then g % 16 else home) g x
      (if l.striped then keepExperts (min l.topK l.perGroup) c else c, badExperts c,
        if l.striped then scoreCycles l.perGroup l.width else 0))
  let sel := keepExperts l.topK (each.flatMap (fun e => e.1))
  let w := gateWeights l (sel.map (fun e => e.2.2))
  { list := (sel.map (fun e => e.1)).zip w,
    nan := badKeys gk + ((each.map (fun e => e.2.1)).foldl (· + ·) 0),
    cycles := (if 1 < l.groups then scoreCycles l.groups l.width else 0) +
      (if l.striped then (each.map (fun e => e.2.2)).foldl (· + ·) 0
       else scoreCycles (groups.length * l.perGroup) l.width),
    short := decide (sel.length < l.topK) }

/-! ### Dispatch (R90, R91) -/

/-- The key of a credit counter (R89). -/
def creditKey (lslot expert : Nat) : Nat := lslot * 16384 + expert

/-- The credit check of one choice (R91). -/
def State.creditCheck (s : State) (lslot : Nat) (i e : Nat) (w : FP32) : ChoiceEntry × State :=
  let m := mapRecOf (s.dom (slotKey Reg.expertMap lslot)) e
  let c := mapGetD 0 (creditKey lslot e) s.platforms.credits
  if m.unavail then (⟨i, m.pslot, e, w, true, true⟩, s)
  else if c = 0 then (⟨i, m.pslot, e, w, true, false⟩, s)
  else (⟨i, m.pslot, e, w, false, false⟩,
    ({ s with platforms := { s.platforms with credits := mapSet (creditKey lslot e) (c - 1) s.platforms.credits } }).count64
      Reg.creditsSpent 1)

/-- The checks of a token's whole list, in choice order. -/
def State.creditChecks (s : State) (lslot : Nat) : Nat → List (Nat × FP32) → List ChoiceEntry × State
  | _, [] => ([], s)
  | i, (e, w) :: rest =>
    let r := s.creditCheck lslot i e w
    let t := r.2.creditChecks lslot (i + 1) rest
    (r.1 :: t.1, t.2)

/-- RENORM (R91): the accepted weights scaled so that they carry the weight of the whole list. -/
def renormEntries (es : List ChoiceEntry) : List ChoiceEntry :=
  let a := (es.map (fun e => e.gate)).foldl fAdd 0
  let b := ((es.filter (fun e => !e.dropped)).map (fun e => e.gate)).foldl fAdd 0
  let f := fDiv a b
  es.map (fun e => if e.dropped then e else { e with gate := fMul e.gate f })

/-- The destinations of accepted entries, each once, in order of the lowest choice they hold. -/
def State.destRanks (s : State) (lslot : Nat) (es : List ChoiceEntry) : List Nat :=
  (es.map (fun e => (mapRecOf (s.dom (slotKey Reg.expertMap lslot)) e.expert).rank)).foldl
    (fun l r => if l.contains r then l else l ++ [r]) []

/-- DISPATCH (R91): credits, flags, the Manifest in the beat-return class and the Consists in the beat-dispatch class. -/
def State.dispatch (s : State) (tok : TokenId) (beat lslot cluster nextRank nextCluster : Nat) (flags : BitVec 16)
    (hidden residual : List BF16) (list : List (Nat × FP32)) : State :=
  let s := s.count64 Reg.choicesEmitted list.length
  let r := s.creditChecks lslot 0 list
  let s := r.2
  let acc := r.1.filter (fun e => !e.dropped)
  let renorm := s.reg Reg.renorm == 1 && decide (0 < acc.length) && decide (acc.length < list.length)
  let es := if renorm then renormEntries r.1 else r.1
  let acc := es.filter (fun e => !e.dropped)
  let flags := (flags &&& ~~~flEntry) ||| (if acc.length < list.length then flDropped else 0) |||
    (if renorm then flRenormed else 0)
  let me := s.myRank
  let mh := { headerFor tok 3 lslot beat me nextRank flags with homeCluster := nextCluster }
  let s := s.sendRank nextRank nextCluster cluster 0 1 (.beat ⟨mh, es, residual, [], 0, 0⟩)
  let ch := fun r => { headerFor tok 1 lslot beat me r 0 with nextRank := nextRank }
  (s.destRanks lslot acc).foldl (fun s r =>
    let mine := acc.filter (fun e => (mapRecOf (s.dom (slotKey Reg.expertMap lslot)) e.expert).rank == r)
    s.sendRank r 0 cluster 0 0 (.beat ⟨ch r, mine, hidden, [], 0, 0⟩)) s

/-- A token's combined residual. -/
def State.residualOf (s : State) (tok : TokenId) : Option Residual := s.combine.residuals.find? (fun r => r.tok == tok)

/-- Cycles added to the Yard's busy total of the beat (R84). -/
def State.yardBusy (s : State) (n : Nat) : State := { s with beat := { s.beat with busyYard := s.beat.busyYard + n } }

/-- What a scored token leaves in the counters of R84. -/
def State.countStage2 (s : State) (clamped : Nat) (d : Stage2) : State :=
  let s := ((s.count Reg.stage1Clamp clamped).count Reg.nanScores d.nan).count Reg.scoredTokens 1
  (if d.short then s.count Reg.shortLists 1 else s).yardBusy d.cycles

/-- STAGE2_RESULT (R63, R68, R70 to R75, R90, R91, R107): stage 2 of a token whose combined residual the device holds runs in the
Yard of its home cluster, on the tables it began with, and the list goes to dispatch. -/
def execStage2Result (tok : TokenId) (lslot nextRank nextCluster : Nat) (hidden residual : List BF16) (s : State) :
    Host.Outcome State Fault Refusal :=
  .next (match s.residualOf tok with
    | none => s
    | some r =>
      let v := s.stageView tok
      let l := v.layerSlot lslot
      if s.stale tok.tag tok.gen then s.leaveStage tok
      else if l.experts = 0 then
        ((s.leaveStage tok).count Reg.inactiveSlot 1).dispatch tok r.beat lslot r.cluster nextRank nextCluster r.flags hidden
          residual []
      else match v.scorerInput l tok lslot r.cluster hidden with
        | none => s
        | some x =>
          let d := v.stage2 tok lslot r.cluster x.1
          ((s.leaveStage tok).countStage2 x.2 d).dispatch tok r.beat lslot r.cluster nextRank nextCluster r.flags hidden
            residual d.list)

/-- STRIPED_GROUP_REQUEST (R72): the home Yard's vector goes to the Yard of cluster g mod 16, which scores the group's experts and
returns its best. -/
def execStripedGroupRequest (lslot group : Nat) (tok : TokenId) (hidden : List BF16) (s : State) :
    Host.Outcome State Fault Refusal :=
  let v := s.stageView tok
  let l := v.layerSlot lslot
  .next (match s.residualOf tok with
    | none => s
    | some q =>
      if l.experts = 0 ∨ !l.striped ∨ l.groups ≤ group ∨ s.stale tok.tag tok.gen ∨
          (s.replyFor tok q.cluster lslot group).isSome then s
      else match v.scorerInput l tok lslot q.cluster hidden with
        | none => s
        | some x =>
          let c := v.groupScores l lslot (group % 16) group x.1
          let r : GroupReply := ⟨tok, q.cluster, lslot, group, q.beat, keepExperts (min l.topK l.perGroup) c⟩
          (({ s with yards := { s.yards with replies := s.yards.replies ++ [r] } }).count Reg.nanScores (badExperts c)).yardBusy
            (scoreCycles l.perGroup l.width))

/-- The tokens whose stage 2 has begun (R68): whose groups have been asked for, and those of a past beat but the ones whose stage-1
output has come only in part. A token of which no share has come is taken to run in direct mode (DESIGN CHOICE, assumption 125). -/
def State.begunTokens (s : State) : List TokenId :=
  let parts := (s.yards.inputs.filter (fun x => !x.whole (s.layerSlot x.lslot))).map (fun x => x.tok)
  (s.yards.replies.map (fun r => r.tok) ++
    (s.combine.residuals.map (fun r => r.tok)).filter (fun t => !parts.contains t)).eraseDups

/-- Stage-2 work that the ending beat leaves in the Yards, and stage-1 outputs that are not whole (R46, R77): unit 4 with cause 1
where lists of other Yards are still to come, else 0; unit 3. -/
def State.yardItems (s : State) : List Unfinished :=
  (s.yards.inputs.filter (fun x => s.age x.beat == 0)).map (fun x =>
    let l := s.layerSlot x.lslot
    let n := (s.yards.replies.filter (fun r => r.tok == x.tok)).length
    if !x.whole l then ⟨3, 0, some (x.tok.tag, x.tok.lane)⟩
    else ⟨4, if l.striped && decide (n < l.topGroups) then 1 else 0, some (x.tok.tag, x.tok.lane)⟩) ++
  (s.yards.replies.filter (fun r => s.age r.beat == 0 && (s.inputOf r.tok r.lslot r.home).isNone)).map (fun r =>
    let n := (s.yards.replies.filter (fun q => q.tok == r.tok)).length
    ⟨4, if n < (s.layerSlot r.lslot).topGroups then 1 else 0, some (r.tok.tag, r.tok.lane)⟩)

/-- Whether the work of a beat lies in beat b or before it. -/
def State.upTo (s : State) (b x : Nat) : Bool := decide (s.age b ≤ s.age x) && decide (s.age x < 2 ^ 31)

/-- Whether a Yard still works on a selection of beat b or before it. -/
def State.scores (s : State) (b : Nat) : Bool :=
  s.yards.inputs.any (fun x => s.upTo b x.beat) || s.yards.replies.any (fun r => s.upTo b r.beat)

/-- The selections of beat b and before it are abandoned (R47): their tokens' stage is over. -/
def State.dropScoring (s : State) (b : Nat) : State :=
  let ts := (s.yards.inputs.filter (fun x => s.upTo b x.beat)).map (fun x => x.tok) ++
    (s.yards.replies.filter (fun r => s.upTo b r.beat)).map (fun r => r.tok)
  ts.foldl State.leaveStage s

/-! ### KV blocks (R78) -/

/-- The kept blocks of N candidates, in ascending order: the current one, the leading ones, and the best of the others. Where the
forced blocks alone are more than KV_TOPK, all of them are kept, as steps 1 and 2 of R78 state without a bound (DESIGN CHOICE,
assumption 124). -/
def kvKept (l : LayerSlot) (current : Nat) (scores : List FP32) : List Nat :=
  let n := scores.length
  if n ≤ l.kvTopk then List.range n
  else
    let forced := (List.range n).filter (fun b => b == current || decide (b < l.kvForce))
    let others := ((List.range n).zip scores).filter (fun c => !forced.contains c.1)
    let won := (topK (l.kvTopk - forced.length) others).map (fun c => c.1)
    (List.range n).filter (fun b => forced.contains b || won.contains b)

/-- A user's KV blocks of a layer slot, in ascending order (R128). -/
def KvUser.blocksOf (u : KvUser) (lslot : Nat) : List KvSpan := u.blocks.filter (fun b => b.lslot == lslot)

/-- Where a span of n bytes goes in a user's frames: after the last of the spans, where its frame has the room (R312). -/
def spanPlace (n first : Nat) (spans : List KvSpan) (size : KvSpan → Nat) : Option (Nat × Nat) :=
  match spans.getLast? with
  | none => if n ≤ extentBytes then some (first, 0) else none
  | some b => if b.off + size b + n ≤ extentBytes then some (b.frame, b.off + size b) else none

/-- The start of a frame that a user takes (R312). -/
def State.freshFrame (s : State) (u : KvUser) : Option (Nat × Nat × KvUser × State) :=
  (s.takeKvFrame u).map (fun t => (u.frames.length, 0, (t.kvUser u.tenant u.tag u.lane).getD u, t))

/-- A place for a new block or summary of n bytes: in the user's current frame, or at the start of a frame it takes (R312). -/
def State.kvPlace (s : State) (u : KvUser) (at' : Option (Nat × Nat)) : Option (Nat × Nat × KvUser × State) :=
  match at' with
  | some p => if homeTier (u.frames.getD p.1 0) = 1 then some (p.1, p.2, u, s) else s.freshFrame u
  | none => s.freshFrame u

/-- The block that takes a user's new KV entry of n bytes (R129): its last block of the slot, or a new page where that is full. -/
def State.kvBlockFor (s : State) (u : KvUser) (lslot n : Nat) : Option (KvSpan × KvUser × State) :=
  let size := s.reg Reg.kvBlockBytes
  let mine := u.blocksOf lslot
  match mine.getLast? with
  | some b => if b.used + n ≤ size then some (b, u, s)
              else (s.kvPlace u (spanPlace size 0 u.blocks (fun _ => size))).map (fun r => (⟨lslot, b.block + 1, r.1, r.2.1, 0⟩, r.2.2))
  | none => (s.kvPlace u (spanPlace size 0 u.blocks (fun _ => size))).map (fun r => (⟨lslot, 0, r.1, r.2.1, 0⟩, r.2.2))

/-- The place of a block's summary of n bytes (R128, R312): the one it has, or a new one in the user's summary frame. -/
def State.kvSumFor (s : State) (u : KvUser) (b : KvSpan) (n : Nat) : Option (KvSpan × KvUser × State) :=
  match u.sums.find? (fun x => x.lslot == b.lslot && x.block == b.block) with
  | some x => some ({ x with used := n }, u, s)
  | none => (s.kvPlace u (spanPlace n 1 u.sums (fun x => x.used))).map (fun r => (⟨b.lslot, b.block, r.1, r.2.1, n⟩, r.2.2))

/-- The spans with one changed or added at the end. -/
def setSpan (l : List KvSpan) (x : KvSpan) : List KvSpan :=
  if l.any (fun y => y.lslot == x.lslot && y.block == x.block) then
    l.map (fun y => if y.lslot == x.lslot && y.block == x.block then x else y)
  else l ++ [x]

/-- The address of a span's frame. -/
def KvUser.frameAt (u : KvUser) (b : KvSpan) : Nat := u.frames.getD b.frame 0

/-- A token's new KV entry is written into its block and the block's summary brought up to date; none where a page cannot be
taken (R129, R312). -/
def State.storeKv (s : State) (u : KvUser) (lslot : Nat) (entry summary : List Byte) : Option State :=
  let entry := entry.take (s.reg Reg.kvBlockBytes)
  match s.kvBlockFor u lslot entry.length with
  | none => none
  | some (b, u, s) =>
    match s.kvSumFor u b summary.length with
    | none => none
    | some (x, u, s) =>
      let s := (s.homeWrite (u.frameAt b) (b.off + b.used) entry).homeWrite (u.frameAt x) x.off summary
      some (s.setKvUser { u with blocks := setSpan u.blocks { b with used := b.used + entry.length },
                                 sums := setSpan u.sums x })

/-- Whether a summary of a user's blocks of a layer slot is uncorrectable (R313, R315). -/
def State.sumsBad (s : State) (u : KvUser) (lslot : Nat) : Bool :=
  u.sums.any (fun x => x.lslot == lslot && s.homeBad (u.frameAt x) x.off x.used)

/-- The selection itself (R73, R78, R132): the kept count goes to the core's event counter, the kept blocks to the attention that
reads them, and scores that are not finite are counted. -/
def State.selectKv (s : State) (core ctr lslot : Nat) (tok : TokenId) (scores : List FP32) : State :=
  let kept := kvKept (s.layerSlot lslot) (scores.length - 1) scores
  let b := s.syncBeat core
  let s := s.updCore core (fun k => k.setCtr ctr b kept.length)
  let rest := s.yards.kept.filter (fun k => !(k.1 == tok && k.2.1 == lslot))
  let s := { s with yards := { s.yards with kept := rest ++ [(tok, lslot, kept)] },
                    platforms := { s.platforms with kvBytes := s.platforms.kvBytes + kept.length * s.reg Reg.kvBlockBytes } }
  (s.count Reg.nanScores (badKeys ((List.range scores.length).zip scores))).count Reg.kvSelections 1

/-- KV_BLOCK_SELECTION (R78, R128, R129, R312, R313): attention of a token whose home cluster is the core's has written its new KV
entry and computed one score for each of its blocks, the last of which holds the current position. -/
def execKvBlockSelection (core ctr lslot : Nat) (tok : TokenId) (entry summary : List Byte) (scores : List FP32) (s : State) :
    Host.Outcome State Fault Refusal :=
  let l := s.layerSlot lslot
  .next (match s.residualOf tok, s.kvUser s.tenantNow tok.tag tok.lane with
    | some r, some u =>
      if l.experts = 0 ∨ !l.kvSel ∨ !s.coreOn core ∨ core / 8 ≠ r.cluster then s
      else if s.sumsBad u lslot then s.endRequest tok 1
      else match s.storeKv u lslot entry summary with
        | none => s.endRequest tok 2
        | some t =>
          let n := ((t.kvUser s.tenantNow tok.tag tok.lane).map (fun u => (u.blocksOf lslot).length)).getD 0
          if scores.length = n ∧ n ≠ 0 then t.selectKv core ctr lslot tok scores else s
    | _, _ => s)

/-- Whether a token still reads the former live half (R68). -/
def State.readsFormer (s : State) : Bool := s.prior.any (fun p => !p.toks.isEmpty)

/-- GATE_COPY_DONE (R68): the background copy ends; it has not begun while a token reads the half it writes. -/
def execGateCopyDone (s : State) : Host.Outcome State Fault Refusal :=
  .next (if s.yards.copying ∧ !s.readsFormer then
    ({ s with yards := { s.yards with copying := false } }).setReg Reg.gateCopyBusy 0 else s)

end Sys2Proof.Machine
end

