-- ==== Sys2Proof/Machine/Exit.lean ====
section
/-! DEFINITION. The exit stage (R17, R79 to R83, R96): its start, vocabulary requests and candidate sets, the merge of the shares,
and the draw of the sampled token. -/

namespace Sys2Proof.Machine

/-! ### Candidates (R79) -/

/-- Candidates kept per share and per merge: 1 at SAMPLE_TEMP 0. -/
def State.sampleK (s : State) : Nat :=
  if fIsZero (BitVec.ofNat 32 (s.reg Reg.sampleTemp)) then 1 else s.reg Reg.sampleTopk

/-- Share logits divided by SAMPLE_TEMP, each with its token ID. -/
def State.scaledLogits (s : State) (logits : List FP32) : List (Nat × FP32) :=
  let temp : FP32 := BitVec.ofNat 32 (s.reg Reg.sampleTemp)
  let l := (logits.take (s.reg Reg.vocabLen)).map (fun x => if fIsZero temp then x else fDiv x temp)
  (List.range l.length).map (fun i => (s.reg Reg.vocabBase + i, l.getD i 0))

/-- The exit token of a token and beat (R80). -/
def State.exitToken (s : State) (t : TokenId) (beat : Nat) : Option ExitToken :=
  s.exits.find? (fun x => x.tok == t && x.beat == beat)

/-- The exit token changed or added. -/
def State.setExit (s : State) (x : ExitToken) : State :=
  { s with exits := s.exits.filter (fun y => !(y.tok == x.tok && y.beat == x.beat)) ++ [x] }

/-- A vocabulary request of a token in its exit stage (R96): the final-normed vector, and this device to answer to. -/
def State.vocabRequest (s : State) (r : Residual) (share : Nat) : BeatPacket :=
  let h := { headerFor r.tok 5 0 r.beat s.myRank share 0 with nextRank := s.myRank }
  ⟨h, [], (List.range r.vec.length).map (Config.finalNorm r.vec), [], 0, 0⟩

/-- A combined token whose exit stage runs here (R17, R79, R96): it is held for the merge, and a request leaves for every device
that holds a vocabulary share. -/
def State.startExit (s : State) (r : Residual) (shares : List Nat) : State :=
  let s := (s.leaveStage r.tok).setExit ⟨r.tok, r.cluster, r.flags, r.beat % 2 ^ 32, [], false⟩
  shares.foldl (fun s k => s.sendRank k 0 r.cluster 0 0 (.beat (s.vocabRequest r k))) s

/-- VOCABULARY_REQUEST_ARRIVAL (R79, R96): the share's candidates leave for the exit device, under the sampling values its stage
began with (R83); a device with no share sends the request to the Siding. -/
def execVocabularyRequestArrival (p : BeatPacket) (logits : List FP32) (exitCluster : Nat) (s : State) :
    Host.Outcome State Fault Refusal :=
  .next (
    if p.hdr.kind ≠ 5 then s
    else
      let s := (s.takeLanding (.beat p)).decideChains p
      if s.landingFailed 16 p then s.clearFailed p
      else if s.stale p.hdr.batchTag p.hdr.gen then s.siding p
      else
        let v := s.asOf p.hdr.beat
        if v.reg Reg.vocabLen = 0 then s.siding p
        else
          let c := v.scaledLogits logits
          let set := topK v.sampleK c
          let s := (s.freeChains p).count Reg.nanScores (badKeys c)
          let h : BeatHdr := { p.hdr with kind := 6, flags := BitVec.ofNat 16 set.length, srcRank := s.myRank,
                                          dstRank := p.hdr.nextRank, nextRank := 0, homeCluster := exitCluster }
          s.sendRank p.hdr.nextRank exitCluster (p.hdr.lane % 16) 0 1 (.beat ⟨h, [], [], set, 0, 0⟩))

/-- CANDIDATE_SET_ARRIVAL (R80): held for the merge; a stale set, one that comes after the merge and one for no token in its exit
stage here go to the Siding. -/
def execCandidateSetArrival (p : BeatPacket) (s : State) : Host.Outcome State Fault Refusal :=
  .next (
    if p.hdr.kind ≠ 6 then s
    else
      let s := (s.takeLanding (.beat p)).decideChains p
      if s.landingFailed (p.hdr.homeCluster % 16) p then s.clearFailed p
      else match s.exitToken (idOf p.hdr) p.hdr.beat with
        | none => s.siding p
        | some x =>
          if s.stale p.hdr.batchTag p.hdr.gen ∨ x.merged ∨ s.age p.hdr.beat ≠ 0 ∨ x.sets.any (fun e => e.1 == p.hdr.srcRank)
          then s.siding p
          else s.setExit { x with sets := x.sets ++ [(p.hdr.srcRank, p.cands)] })

/-! ### Sampling (R81, R82) -/

/-- One round of R82 on 64-bit words. -/
def drawRound (x r : Nat) : Nat :=
  let m := 2 ^ 64
  let x := (x + r * 0x8F1BBCDC4A7C15E5) % m
  let x := (x ^^^ (x / 2 ^ 31)) * 0xD6E8FEB86659FD93 % m
  let x := (x ^^^ (x / 2 ^ 29)) * 0xA0F36B8C5E2D4B17 % m
  x ^^^ (x / 2 ^ 32)

/-- The 24-bit draw of R82. -/
def drawBits (seed tag index : Nat) : Nat :=
  [1, 2, 3, 4].foldl drawRound ((seed % 2 ^ 64) ^^^ ((tag * 2 ^ 32) % 2 ^ 64 ||| index % 2 ^ 32)) / 2 ^ 40

/-- draw(seed, tag, index), exact in FP32. -/
def draw (seed tag index : Nat) : FP32 := fRound false (drawBits seed tag index) 1 (-24)

/-- Running FP32 sums of weights, from 0. -/
def runSums (w : List FP32) : List FP32 := ((w.foldl (fun (a : FP32 × List FP32) x => (fAdd a.1 x, fAdd a.1 x :: a.2)) (0, [])).2).reverse

/-- sample(c, n) of R81 over a list of at least one candidate, in rank order. -/
def sampleOf (temp topp : FP32) (c : List (Nat × FP32)) (u : FP32) : Nat :=
  let first := c.getD 0 (0, 0)
  if fIsZero temp ∨ c.length = 1 then first.1
  else
    let w := c.map (fun x => fExp (fSub x.2 first.2))
    let cum := runSums w
    let cut := fMul topp (cum.getLast?.getD 0)
    let keep := match (List.range c.length).find? (fun i => !fLt (cum.getD i 0) cut) with
      | some i => i + 1
      | none => c.length
    let target := fMul u (cum.getD (keep - 1) 0)
    match (List.range keep).find? (fun i => fLt target (cum.getD i 0)) with
    | some i => (c.getD i first).1
    | none => (c.getD (keep - 1) first).1

/-- The index argument of R82. -/
def drawIndex (t : TokenId) : Nat := t.position % 2 ^ 24 * 256 + t.lane % 256

/-- The sampled-token packet of R96. -/
def sampledPacket (t : TokenId) (beat src cluster token : Nat) (flags : BitVec 16) : BeatPacket :=
  { hdr := { kind := 7, lslot := 0, flags := 0, srcRank := src, dstRank := t.entryRank, batchTag := t.tag, lane := t.lane,
             position := t.position, gen := t.gen, entryRank := t.entryRank, beat := beat, nextRank := 0,
             homeCluster := cluster },
    entries := [], vec := [], cands := [], token := token, tokFlags := BitVec.ofNat 8 flags.toNat }

/-- The merge of an exit token's sets and the draw (R80, R81): merged, counted, its sets' cells released, and the sampled
token sent, or none where the merged list is empty. -/
def State.mergeExit (s : State) (x : ExitToken) (partialSet : Bool) (entryCluster : Nat) : State :=
  let all := x.sets.flatMap (fun e => e.2)
  let v := s.asOf x.beat
  let c := topK v.sampleK all
  let held := s.pools.chains.filter (fun k => k.pkt.hdr.kind == 6 && idOf k.pkt.hdr == x.tok && k.pkt.hdr.beat == x.beat)
  let s := held.foldl State.freeChain s
  let flags := (x.flags ||| (if partialSet then flPartial else 0)) &&& ~~~flEntry
  let s := (s.setExit { x with merged := true, flags := flags }).count Reg.vocabMerges 1
  if c = [] then s.count Reg.vocabEmpty 1
  else
    let t := sampleOf (BitVec.ofNat 32 (v.reg Reg.sampleTemp)) (BitVec.ofNat 32 (v.reg Reg.sampleTopp)) c
      (draw (v.reg Reg.sampleSeed) x.tok.tag (drawIndex x.tok))
    s.sendRank x.tok.entryRank entryCluster x.cluster 0 1
      (.beat (sampledPacket x.tok x.beat s.myRank entryCluster t flags))

/-- VOCAB_MERGE (R80): the merge of a token of the running beat whose shares have all arrived. -/
def execVocabMerge (tag lane entryCluster : Nat) (s : State) : Host.Outcome State Fault Refusal :=
  .next (match s.exits.find? (fun x => x.tok.tag == tag && x.tok.lane == lane && !x.merged && s.age x.beat == 0 &&
      decide ((s.asOf x.beat).reg Reg.vocabShares ≤ x.sets.length)) with
    | none => s
    | some x => if s.stale x.tok.tag x.tok.gen then s else s.mergeExit x false entryCluster)

/-- SAMPLE_END_EXPIRY (R80): every token of the running beat with a share still missing merges without it; unit 11
overruns with cause 7. -/
def execSampleEndExpiry (entryCluster : Nat) (s : State) : Host.Outcome State Fault Refusal :=
  let due := s.exits.filter (fun x => !x.merged && s.age x.beat == 0 && decide (x.sets.length < (s.asOf x.beat).reg Reg.vocabShares) &&
    !s.stale x.tok.tag x.tok.gen)
  .next (due.foldl (fun s x => ((s.count Reg.vocabPartial 1).overrun 11 7).mergeExit x true entryCluster) s)

end Sys2Proof.Machine
end

