-- ==== Sys2Proof/Machine/Fabric.lean ====
section
/-! DEFINITION. The Laruo fabric (R212 to R246, R264, R265, R441, R472): flits and link retry, port states, routing, the
queues of the ports, multicasts, combining in the Junction, drains and the delivery of packets. -/

namespace Sys2Proof.Machine

/-! ### Ports -/

/-- A port's Junction state. -/
def State.port (s : State) (x : Nat) : Port := mapGetD Port.empty x s.fabric.ports

/-- The state with a port's Junction state set. -/
def State.setPort (s : State) (x : Nat) (p : Port) : State :=
  { s with fabric := { s.fabric with ports := mapSet x p s.fabric.ports } }

/-- A port's live ROLE: its level (R230, R247). -/
def State.portRole (s : State) (x : Nat) : Nat := field (s.reg (Reg.portCfg x)) 1 3

/-- Whether a port exists and carries traffic: UP or REMAPPING (R221). -/
def State.portLive (s : State) (x : Nat) : Bool :=
  decide (x < 60) && (s.reg (Reg.portState x) == 2 || s.reg (Reg.portState x) == 3)

/-- Whether a hop of a level is legal for a routing header (R230). -/
def hopLegal (h : RouteHdr) (level : Nat) : Bool :=
  if h.down then decide (level < h.lastLevel) else level != h.lastLevel

/-- A routing header after a hop (R228, R230). -/
def hopRoute (h : RouteHdr) (level : Nat) : RouteHdr :=
  { h with down := h.down || decide (level < h.lastLevel), lastLevel := level }

/-- The VC a packet takes on a hop of a level (R229). -/
def hopVc (h : RouteHdr) (level : Nat) : Nat := 2 * h.cls + (if (hopRoute h level).down then 1 else 0)

/-! ### Drains (R241) -/

/-- Whether a drain holds packets of a job and class off a port. -/
def State.drained (s : State) (job cls x : Nat) : Bool :=
  s.reg Reg.drainState != 0 &&
    (if s.fabric.drainOwn then job == s.reg Reg.jobId && decide (cls < 5)
     else (s.reg Reg.drainJob == 0 || s.reg Reg.drainJob == job) && (s.reg Reg.drainClasses).testBit cls &&
       (s.reg Reg.drainPorts).testBit x)

/-- Whether a packet belongs to the traffic a drain empties from a port. -/
def State.drains (s : State) (x : Nat) (p : Packet) : Bool := s.drained p.route.job p.route.cls x

/-! ### Routing (R232) -/

/-- keep(p, c) of R232. -/
def State.keepPorts (s : State) (h : RouteHdr) (c : List Nat) : List Nat :=
  let above := c.filter (fun x => decide (h.lastLevel < s.portRole x))
  if !h.down && above != [] then above
  else
    let top := (c.map s.portRole).foldl max 0
    c.filter (fun x => s.portRole x == top)

/-- The ports of a mask that are UP and over which the hop is legal; `off` are the ports a drain takes away. -/
def State.maskPorts (s : State) (h : RouteHdr) (mask : Nat) (off : Nat → Bool) : List Nat :=
  s.keepPorts h ((maskMembers 60 mask).filter (fun x =>
    s.reg (Reg.portState x) == 2 && hopLegal h (s.portRole x) && !off x))

/-- The candidates for a device and whether they are ALT ports. -/
def State.candidates (s : State) (h : RouteHdr) (dev : Nat) (off : Nat → Bool) : List Nat × Bool :=
  let w := (s.dom Reg.routeTable).nat (16 * dev) 16
  let c := s.maskPorts h (field w 0 60) off
  if c != [] then (c, false) else (s.maskPorts h (field w 64 60) off, true)

/-- The first packet queued for a VC of a port. -/
def State.headOf (s : State) (x vc : Nat) : Option (Nat × Packet) :=
  (s.port x).queue.find? (fun e => hopVc e.2.route (s.portRole x) == vc)

/-- The flits of a queued packet that have left: only the first one of its VC has begun. -/
def State.leftOf (s : State) (x : Nat) (e : Nat × Packet) : Nat :=
  let vc := hopVc e.2.route (s.portRole x)
  if s.headOf x vc == some e then mapGetD 0 vc (s.port x).started else 0

/-- Flits queued at a port in the VC a packet would take. -/
def State.queued (s : State) (h : RouteHdr) (x : Nat) : Nat :=
  let vc := hopVc h (s.portRole x)
  (((s.port x).queue.filter (fun e => hopVc e.2.route (s.portRole x) == vc)).map (fun e => packetFlits e.2)).foldl (· + ·) 0 -
    mapGetD 0 vc (s.port x).started

/-- The candidate with the fewest flits queued for the packet's VC, ties to the lower number. -/
def State.leastQueued (s : State) (h : RouteHdr) : List Nat → Option Nat
  | [] => none
  | x :: xs => some (xs.foldl (fun b y => if s.queued h y < s.queued h b then y else b) x)

/-- What routing to a device answers: delivery here, a port (and whether it is an ALT port), a hold by a drain, or no
candidate. -/
inductive RouteTo where
  | here
  | port (x : Nat) (alt : Bool)
  | hold
  | nowhere
deriving DecidableEq, Repr

/-- route(p) for one device (R232, R241). -/
def State.routeTo (s : State) (h : RouteHdr) (dev : Nat) : RouteTo :=
  if dev = s.here then .here
  else
    let c := s.candidates h dev (s.drained h.job h.cls)
    match s.leastQueued h c.1 with
    | some x => .port x c.2
    | none => if (s.candidates h dev (fun _ => false)).1 = [] then .nowhere else .hold

/-! ### Combining (R264, R265) -/

/-- Whether the live RM_COMBINE lets a request's kind combine. -/
def State.combinable (s : State) (p : RmPacket) : Bool :=
  let m := s.reg Reg.rmCombine
  (p.opc == 1 && !p.cache && m.testBit 0) || (p.opc == 3 && decide (p.dtype ≤ 2) && m.testBit 1) ||
    (p.opc == 3 && decide (3 ≤ p.dtype) && m.testBit 2)

/-- Bytes of an element of a DTYPE: INT32, INT64, FP32, BF16. -/
def dtypeBytes (d : Nat) : Nat := if d = 2 then 8 else if d = 4 then 2 else 4

/-- The values of a byte string by elements of n bytes. -/
def eltsOf (n : Nat) (bs : List Byte) : List Nat := (List.range (bs.length / n)).map (fun i => natAt bs (n * i) n)

/-- One sum of the memory-side adder (R251): integers wrap, floating point rounds once in the element's own format. -/
def addElt (d a b : Nat) : Nat :=
  if d = 1 then (a + b) % 2 ^ 32
  else if d = 2 then (a + b) % 2 ^ 64
  else if d = 3 then (fAdd (BitVec.ofNat 32 a) (BitVec.ofNat 32 b)).toNat
  else (bOfF (fAdd (fOfB (BitVec.ofNat 16 a)) (fOfB (BitVec.ofNat 16 b)))).toNat

/-- A line with operands added element by element. -/
def addLine (d : Nat) (old new : List Byte) : List Byte :=
  let n := dtypeBytes d
  (List.zipWith (addElt d) (eltsOf n old) (eltsOf n new)).flatMap (leBytes n)

/-- The operand of a combined ADD (R265): integers exactly; floating point summed in FP32 in order of arrival, then
rounded once to DTYPE. -/
def combinedOperand (reqs : List RmPacket) : List Byte :=
  let d := (reqs.getD 0 default).dtype
  if d ≤ 3 then (reqs.drop 1).foldl (fun a r => addLine d a r.data) (reqs.getD 0 default).data
  else
    let vals := reqs.map (fun r => (eltsOf 2 r.data).map (fun x => fOfB (BitVec.ofNat 16 x)))
    let sums := (vals.drop 1).foldl (fun a v => List.zipWith fAdd a v) (vals.getD 0 [])
    b16Bytes (sums.map bOfF)

/-- The combine record a queued request was formed by here, if it is one. -/
def State.recordOf (s : State) (p : RmPacket) : Option CombineRec :=
  if p.combined && p.srcRank == s.myRank then s.fabric.combines.find? (fun c => c.num == p.tag) else none

/-- Whether a queued packet, of which no flit has left, and a request combine at a port (R264). -/
def State.combinesWith (s : State) (x : Nat) (p : Packet) (r : RmPacket) (e : Nat × Packet) : Bool :=
  match e.2.body with
  | .rm q =>
    s.leftOf x e == 0 && s.combinable r && r.dstRank == q.dstRank && r.jva == q.jva && r.opc == q.opc && r.len == q.len &&
      r.dtype == q.dtype && r.cache == q.cache && p.route.job == e.2.route.job &&
      hopVc p.route (s.portRole x) == hopVc e.2.route (s.portRole x) && decide (s.time.hallTime ≤ e.1 + 50)
  | _ => false

/-- A queued packet replaced by the request its combine record forms: the earliest routing header with this device as SRC,
SRC_RANK this device, TAG the record's number and COMBINED set. -/
def State.formCombined (s : State) (x : Nat) (e : Nat × Packet) (c : CombineRec) : State :=
  let first := c.reqs.getD 0 default
  let r : RmPacket := { first with srcRank := s.myRank, tag := c.num, combined := true,
                                   data := if first.opc = 3 then combinedOperand c.reqs else first.data }
  let p : Packet := { e.2 with route := { e.2.route with src := physAddr s.here 0 1 }, body := .rm r }
  let q := (s.port x).queue.map (fun y => if y == e then (e.1, p) else y)
  let s := s.setPort x { s.port x with queue := q }
  { s with fabric := { s.fabric with combines := s.fabric.combines.filter (fun y => y.num != c.num) ++ [c] } }

/-- The requests that a queued packet stands for here. -/
def State.mergedIn (s : State) (e : Nat × Packet) : Nat :=
  match e.2.body with
  | .rm q => match s.recordOf q with
    | some c => c.reqs.length
    | none => 1
  | _ => 0

/-- A request that combines with a queued one does so, at most 16 in a record and 256 records in use (R264, R265); none where
it does not. A queued one whose record is full is passed over. -/
def State.tryCombine (s : State) (x : Nat) (p : Packet) : Option State :=
  match p.body with
  | .rm r =>
    if p.route.job = 0 ∨ p.route.job ≠ s.reg Reg.jobId then none
    else match (s.port x).queue.find? (fun e => s.combinesWith x p r e && decide (s.mergedIn e < 16)) with
      | none => none
      | some e =>
        match e.2.body with
        | .rm q =>
          match s.recordOf q with
          | some c => some ((s.formCombined x e { c with reqs := c.reqs ++ [r] }).count Reg.rmCombined 1)
          | none =>
            match (List.range 256).find? (fun n => s.fabric.combines.all (fun c => c.num != n)) with
            | some n => some ((s.formCombined x e ⟨n, [q, r], x, s.time.hallTime⟩).count Reg.rmCombined 1)
            | none => none
        | _ => none
  | _ => none

/-- Whether a request finds a partner and no record is free (R265). -/
def State.combineFull (s : State) (x : Nat) (p : Packet) : Bool :=
  match p.body with
  | .rm r => p.route.job == s.reg Reg.jobId && p.route.job != 0 && decide (256 ≤ s.fabric.combines.length) &&
      (s.port x).queue.any (fun e => s.combinesWith x p r e && decide (s.mergedIn e < 16))
  | _ => false

/-! ### Queues, delivery and discard -/

/-- A packet joins a port's queue, combined with a queued request where it can be. -/
def State.enqueue (s : State) (x : Nat) (p : Packet) : State :=
  match s.tryCombine x p with
  | some t => t
  | none =>
    let s := if s.combineFull x p then s.count Reg.rmCombineFull 1 else s
    s.setPort x { s.port x with queue := (s.port x).queue ++ [(s.time.hallTime, p)] }

/-- A discarded packet is counted and its source notified (R234): cause 1 no candidate, 2 port failed, 3 drain timeout. -/
def State.discardPacket (s : State) (p : Packet) (cause : Nat) : State :=
  (s.count Reg.undeliverable 1).inject
    ⟨{ s.routeHdr (physDev p.route.src) (physCluster p.route.src) 0 3 5 with job := 0 }, 0, [], .mgmt (.undeliverable cause (copyOf p))⟩

/-- Whether a queued copy and a packet are the same packet, whatever hops or members of a multicast it has left. -/
def samePacket (a b : Packet) : Bool := a.route.src == b.route.src && a.route.dst == b.route.dst && a.body == b.body

/-- A queued packet leaves a port's queue before its last flit has: where some have left, the packet is truncated, and a last flit
with TRUNC set follows (R474). -/
def State.unqueue (s : State) (x : Nat) (e : Nat × Packet) : State :=
  let level := s.portRole x
  let vc := hopVc e.2.route level
  let p := s.port x
  if s.leftOf x e = 0 then s.setPort x { p with queue := p.queue.erase e }
  else s.setPort x { p with queue := p.queue.erase e, started := mapDel vc p.started,
                            cuts := p.cuts ++ [(vc, { e.2 with route := hopRoute e.2.route level })] }

/-- The queued packets of a port that a test names leave its queue. -/
def State.unqueueAll (s : State) (named : Packet → Bool) (x : Nat) : State :=
  ((s.port x).queue.filter (fun e => named e.2)).foldl (fun s e => s.unqueue x e) s

/-- Packets that a test names leave the Junction: those still to be injected, delivered or held, and those queued at a port. -/
def State.dropPackets (s : State) (named : Packet → Bool) : State :=
  let j := s.fabric
  let s := { s with fabric := { j with inject := j.inject.filter (fun p => !named p), landing := j.landing.filter (fun p => !named p),
                                       held := j.held.filter (fun p => !named p) } }
  (List.range 60).foldl (fun s x => s.unqueueAll named x) s

/-- Whether DOMAIN_TABLE of a manager lists a device. -/
def State.inDomain (s : State) (dev : Nat) : Bool := s.manager.domain.any (fun d => d.loc == dev)

/-- Whether the device is a manager or standby manager (R352). -/
def State.manages (s : State) : Bool := s.manager.roleLive == 2 || s.manager.roleLive == 3

/-- Whether a packet whose DST device is this one is delivered (R246). -/
def State.delivers (s : State) (p : Packet) : Bool :=
  let job := p.route.job
  let src := physDev p.route.src
  if job ≠ 0 then job == s.reg Reg.jobId
  else
    (s.reg Reg.mgrState == 1 && src == s.reg Reg.managerLoc) || (p.route.cls == 5 && s.manages && s.inDomain src) ||
      (p.route.cls == 5 && (match p.body with
        | .mgmt (.hello _ _ _ _) => true
        | .mgmt (.admitted _ _) => true
        | .mgmt (.adopt _ _) => true
        | .mgmt (.exchange _ _ _ _) => true
        | .mgmt (.exchangeAnswer _ _ _ _ _ _ _) => true
        | .mgmt (.undeliverable _ copy) => physDev (RouteHdr.ofBytes copy).src == s.here
        | _ => false))

/-- A manager answers a time exchange of its domain with its own time and error bound (R29); no other device does. -/
def State.answerTime (s : State) (domain sender sentAt corr : Nat) : State :=
  if s.manager.roleLive = 2 ∧ domain ≠ 0 ∧ domain = s.reg Reg.domainId then
    s.sendMgmt sender (.exchangeAnswer domain sentAt corr s.time.hallTime s.time.hallTime s.boundNow 0)
  else s

/-- A packet for this device goes to the network-on-chip, or is discarded as foreign (R246). The management unit answers a time
exchange as it comes. -/
def State.deliverPacket (s : State) (p : Packet) : State :=
  if s.delivers p then
    match p.body with
    | .mgmt (.exchange domain sender sentAt corr) => s.answerTime domain sender sentAt corr
    | _ => { s with fabric := { s.fabric with landing := s.fabric.landing ++ [p] } }
  else s.count Reg.foreignDiscard 1

/-- Transit flits, counted in units of 1,024 (R246). -/
def State.transitFlits (s : State) (n : Nat) : State :=
  let t := s.fabric.transit + n
  ({ s with fabric := { s.fabric with transit := t % 1024 } }).count Reg.transitFlits (t / 1024)

/-- A packet held by a drain waits: an injected one at its source, one in transit in its input VC (R241). -/
def State.holdPacket (s : State) (transit : Bool) (p : Packet) : State :=
  if transit then { s with fabric := { s.fabric with held := s.fabric.held ++ [p] } } else s.inject p

/-- A unicast packet routed (R232). -/
def State.routeUnicast (s : State) (transit : Bool) (p : Packet) : State :=
  match s.routeTo p.route (physDev p.route.dst) with
  | .here => s.deliverPacket p
  | .port x alt =>
    (if alt then s.count Reg.altUsed 1 else s).enqueue x p
  | .hold => s.holdPacket transit p
  | .nowhere => s.discardPacket p 1

/-- The members of a multicast copy: bit of the mask and device address (R237). -/
def mcMembers (p : Packet) : List (Nat × Nat) := (maskMembers 64 p.mask).zip p.members

/-- A copy of a multicast that carries some of its members. -/
def mcCopy (p : Packet) (ms : List (Nat × Nat)) : Packet :=
  { p with mask := (ms.map (fun m => 2 ^ m.1)).foldl (· + ·) 0, members := ms.map (fun m => m.2) }

/-- A multicast routed (R238): its members grouped by output port, one copy on each. -/
def State.routeMulticast (s : State) (transit : Bool) (p : Packet) : State :=
  let dests := (mcMembers p).map (fun m => (m, s.routeTo p.route m.2))
  let own := dests.filter (fun t => t.2 == .here)
  let s := if own = [] then s else s.deliverPacket (mcCopy p (own.map (fun t => t.1)))
  let s := (List.range 60).foldl (fun s x =>
    let mine := dests.filter (fun t => t.2 == .port x false || t.2 == .port x true)
    if mine = [] then s
    else
      let alts := (mine.filter (fun t => t.2 == .port x true)).length
      let c := mcCopy p (mine.map (fun t => t.1))
      (s.count Reg.altUsed alts).enqueue x c) s
  let waits := dests.filter (fun t => t.2 == .hold)
  let s := if waits = [] then s else s.holdPacket transit (mcCopy p (waits.map (fun t => t.1)))
  (dests.filter (fun t => t.2 == .nowhere)).foldl (fun s t => s.discardPacket (mcCopy p [t.1]) 1) s

/-- A packet routed, unicast or multicast. -/
def State.routePacket (s : State) (transit : Bool) (p : Packet) : State :=
  if p.route.mc then s.routeMulticast transit p else s.routeUnicast transit p

/-- A packet taken off the injection list, where it stands there. -/
def State.takeInjected (s : State) (p : Packet) : State :=
  match takeFirst (fun x : Packet => x == p) s.fabric.inject with
  | some (_, rest) => { s with fabric := { s.fabric with inject := rest } }
  | none => s

/-- The class that a packet's body travels in (R96, R227, R253, R280, R472). -/
def bodyClass : Body → Nat
  | .beat p => if p.hdr.kind = 1 ∨ p.hdr.kind = 5 then 0 else 1
  | .rm p => if p.opc ≤ 3 then 2 else 3
  | .coll _ => 4
  | .mgmt _ => 5

/-- A packet as the source Junction sends it (R228): SRC, JOB and CLASS are the Junction's own, whatever the sender says. -/
def State.asSource (s : State) (p : Packet) : Packet :=
  if s.fabric.inject.contains p then p
  else { p with route := { p.route with
    src := physAddr s.here (physCluster p.route.src) p.route.src, cls := bodyClass p.body, down := false, lastLevel := 0,
    job := if p.route.job = 0 ∧ bodyClass p.body = 5 then 0 else s.reg Reg.jobId } }

/-- The flits that the Junction's buffers hold (R11). -/
def State.bufferFlits (s : State) : Nat :=
  (s.fabric.ports.map (fun (e : Nat × Port) => ((e.2.queue.map (fun q => packetFlits q.2)).foldl (· + ·) 0) + e.2.retryBuf.length)).foldl
    (· + ·) 0

/-- Whether 24 MiB of buffers have room for a packet (R11). -/
def State.hasRoom (s : State) (p : Packet) : Bool := decide (s.bufferFlits + packetFlits p ≤ 98304)

/-- Whether a packet goes to another device, as a whole or in part. -/
def State.passesOn (s : State) (p : Packet) : Bool :=
  if p.route.mc then p.members.any (fun d => d != s.here) else physDev p.route.dst != s.here

/-! ### Buffer slots of arriving packets (R219, R441) -/

/-- The flits of a routed packet that have left every output it was sent to; n, all that have arrived, where none holds it. -/
def State.flitsOut (s : State) (p : Packet) (n : Nat) : Nat :=
  let held := if s.fabric.held.any (samePacket p) then [0] else []
  let outs := s.fabric.ports.flatMap (fun (e : Nat × Port) =>
    (e.2.queue.filter (fun q => samePacket p q.2)).map (fun q => s.leftOf e.1 q))
  (held ++ outs).foldl min n

/-- An arriving packet with the buffer slots of its flits that have gone on freed, and how many that are. -/
def State.freedBy (s : State) (a : Arriving) : Arriving × Nat :=
  match a.pkt with
  | none => (a, 0)
  | some p => let n := s.flitsOut p a.flits; ({ a with freed := max a.freed n }, n - a.freed)

/-- The buffer slots of a port's arriving packets that are free are returned with its next control flit; a packet that has gone on
whole is forgotten. -/
def State.freeSlots (s : State) (x : Nat) : State :=
  let p := s.port x
  let as := p.rx.map s.freedBy
  let totals := (p.rx.zip as).foldl (fun m y => if y.2.2 = 0 then m else mapSet y.1.vc ((mapGetD 0 y.1.vc m + y.2.2) % 65536) m) p.freed
  let rx := (as.map (fun y => y.1)).filter (fun a => !(a.whole && a.freed == a.flits && a.pkt.isSome))
  if p.rx = [] then s
  else s.setPort x { p with rx := rx, freed := totals, creditDue := p.creditDue || totals != p.freed }

/-- Buffer slots are freed at every port. -/
def State.freeAllSlots (s : State) : State := (List.range 60).foldl State.freeSlots s

/-- Whether flits that arrived on a port can be a packet's: all of it, or its first ones. -/
def arrivedAs (p : Packet) (a : Arriving) : Bool :=
  a.pkt.isNone && (if a.whole then a.bytes == p.bytes else a.bytes.isPrefixOf p.bytes)

/-- The arriving flits of a packet are known to be its. -/
def Port.knows (x : Port) (p : Packet) : Port :=
  match takeFirst (arrivedAs p) x.rx with
  | some (a, _) => { x with rx := x.rx.map (fun y => if y == a then { a with pkt := some p } else y) }
  | none => x

/-- A packet that arrives on a port is routed; it counts as transit where it goes on (R246). -/
def State.routeArrival (s : State) (x : Nat) (p : Packet) : State :=
  let s := s.setPort x ((s.port x).knows p)
  ((if s.passesOn p then s.transitFlits (packetFlits p) else s).routePacket true p).freeAllSlots

/-- PACKET_ROUTE (R11, R228, R232, R234, R238, R246, R264): a packet's first flit arrives on a port, or is injected while the
buffers have room, and the Junction chooses its output or delivers it. A packet whose flits FLIT_RECEIVE has not shown is taken
from the command (DESIGN CHOICE, assumption 137). -/
def execPacketRoute (inPort : Option Nat) (p : Packet) (s : State) : Host.Outcome State Fault Refusal :=
  .next (match inPort with
    | none =>
      let q := s.asSource p
      if s.hasRoom q then (s.takeInjected p).routePacket false q else s
    | some x => if s.portLive x ∨ (s.port x).rx.any (arrivedAs p) then s.routeArrival x p else s)

/-! ### Multicasts (R237 to R240) -/

/-- A multicast of a body to the members a mask selects in a list of ranks. A rank with no record is refused at the source
(R226). -/
def State.multicast (s : State) (cls group func mask cluster : Nat) (ranks : List Nat) (b : Body) : State :=
  let eff := mask % 2 ^ ranks.length
  let s := if mask ≠ eff then s.count Reg.mcastBadMask 1 else s
  if eff = 0 then s.count Reg.mcastZero 1
  else
    let ms := (maskMembers 64 eff).map (fun i => (i, s.rankDev (ranks.getD i 0)))
    let ok := ms.filterMap (fun m => m.2.map (fun d => (m.1, d)))
    let s := s.count Reg.badRank (ms.length - ok.length)
    if ok = [] then s
    else
      let h : RouteHdr := { dst := group % 4096 + func * 65536, src := physAddr s.here cluster func, job := s.reg Reg.jobId,
                            cls := cls, mc := true, down := false, lastLevel := 0 }
      (s.inject (mcCopy ⟨h, 0, [], b⟩ ok)).count Reg.mcastSent 1

/-- The member ranks of a multicast group's live record (R237). -/
def State.mcastRanks (s : State) (g : Nat) : List Nat :=
  let b := s.dom (slotKey Reg.mcastGroup g)
  (List.range (min 64 (b.nat 0 2))).map (fun i => b.nat (8 + 2 * i) 2)

/-- MULTICAST_INJECT (R237, R239). -/
def execMulticastInject (cls group mask srcCluster : Nat) (body : Body) (s : State) : Host.Outcome State Fault Refusal :=
  .next (
    if cls ≠ 4 ∧ cls ≠ 5 then s.count Reg.mcastRefused 1
    else s.multicast cls group (if cls = 5 then 3 else 2) mask srcCluster (s.mcastRanks group) body)

/-- A job broadcast on the management class (R240): one multicast for each run of 64 ranks, every valid rank selected. -/
def State.broadcast (s : State) (m : MgmtMsg) : State :=
  let n := s.reg Reg.rankCount
  (List.range ((n + 63) / 64)).foldl (fun s j =>
    let ranks := (List.range 64).map (fun i => 64 * j + i)
    let mask := (ranks.map (fun r => if (s.rankDev r).isSome then 2 ^ (r % 64) else 0)).foldl (· + ·) 0
    s.multicast 5 0 3 mask 0 ranks (.mgmt m)) s

/-! ### Failed ports (R220, R234) -/

/-- The packets that have flits in a retry buffer, each once. -/
def retryPackets (l : List SentFlit) : List Packet := (l.map (fun f => f.pkt)).foldl (fun a p => if a.contains p then a else a ++ [p]) []

/-- A packet is truncated in the Junction that forwards it (R474): on every output where some of its flits have left, a last flit
with TRUNC set follows; where none has, it never leaves. -/
def State.truncateOnward (s : State) (p : Packet) : State :=
  let s := { s with fabric := { s.fabric with held := s.fabric.held.filter (fun q => !samePacket p q) } }
  (List.range 60).foldl (fun s x => s.unqueueAll (samePacket p) x) s

/-- The packets that were arriving on a port which carries nothing any more are truncated (R474). -/
def State.cutArrivals (s : State) (x : Nat) : State :=
  let gone := (s.port x).rx.filter (fun a => !a.whole)
  let s := s.setPort x { s.port x with rx := (s.port x).rx.filter (fun a => a.whole) }
  (gone.filterMap (fun a => a.pkt)).foldl State.truncateOnward s

/-- A port carries no packet any more (R220, R234, R361): the packets with flits in its retry buffer or of which some flits have
left are discarded, the others are routed again, and what was arriving is truncated. -/
def State.closePort (s : State) (x : Nat) : State :=
  let p := s.port x
  let begun := (p.queue.filter (fun e => s.leftOf x e != 0)).map (fun e => e.2)
  let lost := begun ++ (retryPackets p.retryBuf).filter (fun q => !begun.any (samePacket q))
  let again := p.queue.filter (fun e => s.leftOf x e == 0)
  let s := s.setPort x { p with retryBuf := [], queue := [], started := [], cuts := [], remapLane := none, retries := [],
                                retryDue := false, creditDue := false }
  let s := (lost.foldl (fun s q => s.discardPacket q 2) s).cutArrivals x
  again.foldl (fun s e => s.routePacket (physDev e.2.route.src != s.here) e.2) s

/-- A port becomes FAILED (R220, R361) and the failure is reported. -/
def State.failPort (s : State) (x : Nat) : State :=
  let peer := field (s.reg (Reg.peer x)) 0 14
  let s := (s.setReg (Reg.portState x) 4).count (Reg.portFails x) 1
  let s := s.setPort x { s.port x with resetEn := false }
  (s.closePort x).report 1 peer x

/-- PORT_FAIL (R220): lock lost on two lanes at once, or any other condition of R220 on a live port. -/
def execPortFail (port : Nat) (s : State) : Host.Outcome State Fault Refusal :=
  .next (if s.portLive port then s.failPort port else s)

/-- PORT_SILENCE_TIMEOUT (R220): 2 µs without a valid flit. -/
def execPortSilenceTimeout (port : Nat) (s : State) : Host.Outcome State Fault Refusal :=
  .next (if s.portLive port then s.failPort port else s)

/-- LANE_FAULT (R214, R215, R220): the spare lane takes over, or the port fails where the spare is used or another remap
runs. -/
def execLaneFault (port lane : Nat) (s : State) : Host.Outcome State Fault Refusal :=
  .next (
    if !s.portLive port ∨ !(s.reg (Reg.laneState port)).testBit lane ∨ 9 ≤ lane then s
    else if (s.reg (Reg.laneState port)).testBit 15 ∨ s.reg (Reg.portState port) = 3 then s.failPort port
    else (s.setReg (Reg.portState port) 3).setPort port { s.port port with remapLane := some lane })

/-- What a port acknowledges: the last flit received in order, once there is one (R217). -/
def Port.ackNo (p : Port) : Nat := (p.rxNext + 65535) % 65536

/-- Flits of the retry buffer leave again (R214, R218). -/
def State.resend (s : State) (x : Nat) (fs : List SentFlit) : State :=
  let p := s.port x
  let line := match fs.getLast? with
    | some f => f.bytes p.ackNo p.rxSeen
    | none => p.line
  (s.setPort x { p with line := line, ctlGap := min 127 (p.ctlGap + fs.length) }).count64 (Reg.txFlits x) fs.length

/-- LANE_REMAP_DONE (R214, R361): the spare lane 8 stands in for the faulty one; both ends report. -/
def execLaneRemapDone (port : Nat) (s : State) : Host.Outcome State Fault Refusal :=
  .next (match (s.port port).remapLane with
    | none => s
    | some lane =>
      if s.reg (Reg.portState port) ≠ 3 then s
      else
        let use := setBitAt (setBitAt (field (s.reg (Reg.laneState port)) 0 9) lane false) 8 true
        let s := s.setReg (Reg.laneState port) (use + lane % 16 * 512 + 32768)
        let s := (s.setReg (Reg.portState port) 2).setPort port { s.port port with remapLane := none }
        let s := s.resend port (s.port port).retryBuf
        (s.count (Reg.laneRemaps port) 1).report 2 port lane)

/-- PORT_TRAINING_DONE (R221, R441): a training port reaches UP with its peer's identity, or DOWN. -/
def execPortTrainingDone (port : Nat) (up : Bool) (peer peerPort : Nat) (s : State) : Host.Outcome State Fault Refusal :=
  .next (
    if s.reg (Reg.portState port) ≠ 1 ∨ 60 ≤ port then s
    else if !up then s.setReg (Reg.portState port) 0
    else
      let s := (s.setReg (Reg.portState port) 2).setReg (Reg.peer port) (peer % 16384 + peerPort % 64 * 65536 + 2 ^ 31)
      s.setPort port { Port.empty with ownFlits := (s.port port).ownFlits, waitFlits := (s.port port).waitFlits,
                                       ownBeat := (s.port port).ownBeat, waitBeat := (s.port port).waitBeat })

/-- PORT_PEER_PRESENT (R221): an enabled port that was DOWN for want of a peer starts to train. -/
def execPortPeerPresent (port : Nat) (s : State) : Host.Outcome State Fault Refusal :=
  .next (if port < 60 ∧ s.reg (Reg.portState port) = 0 ∧ (s.reg (Reg.portCfg port)).testBit 0 ∧ 7 ≤ s.reg Reg.bootStage ∧ s.reg Reg.bootStage ≤ 9
    then s.setReg (Reg.portState port) 1 else s)

/-! ### Flits and link retry (R217, R218, R441) -/

/-- Whether sequence number n lies at or before a, in the half of the circle that ends at a. -/
def seqCovered (n a : Nat) : Bool := decide ((a + 65536 - n) % 65536 < 32768)

/-- An ACK takes the flits it covers from the retry buffer (R218). -/
def Port.acked (p : Port) (a : Nat) : Port :=
  { p with retryBuf := p.retryBuf.filter (fun f => !seqCovered f.seqNo a), retries := p.retries.filter (fun e => !seqCovered e.1 a) }

/-- A retry request served (R218, R220): the flits from the named SEQ on are sent again; RETRY_LIMIT consecutive retries
of one flit fail the port. -/
def State.serveRetry (s : State) (x seqNo : Nat) : State :=
  let p := s.port x
  let n := mapGetD 0 seqNo p.retries + 1
  let s := s.count (Reg.retries x) 1
  if field (s.reg (Reg.portCfg x)) 8 5 ≤ n then s.failPort x
  else (s.setPort x { p with retries := [(seqNo, n)] }).resend x (p.retryBuf.filter (fun f => seqCovered seqNo f.seqNo))

/-- RETRY_REQUEST (R218). -/
def execRetryRequest (port seqNo : Nat) (s : State) : Host.Outcome State Fault Refusal :=
  .next (if s.portLive port then s.serveRetry port (seqNo % 65536) else s)

/-- The credit totals of a control flit: a running total of freed slots for each VC, modulo 65,536 (R441, assumption 30). -/
def creditTotals (f : List Byte) : List (Nat × Nat) :=
  (List.range 12).map (fun v => (v, Config.creditTotal f v % 65536))

/-- A flit that is not the expected one is discarded with those after it, and a retry request is to leave (R218). -/
def Port.refuseFlit (p : Port) : Port := { p with rxRetry := true, retryDue := p.retryDue || !p.rxRetry }

/-- An accepted data flit joins the packet that arrives on its VC; one with SOP begins a packet (R217). -/
def Port.joinFlit (p : Port) (h : FlitHdr) (payload : List Byte) : Port :=
  let mine := fun a : Arriving => a.vc == h.vc && !a.whole
  if h.sop then { p with rx := p.rx.filter (fun a => !mine a) ++ [⟨h.vc, payload, 1, h.eop, none, 0⟩] }
  else { p with rx := p.rx.map (fun a => if mine a then { a with bytes := a.bytes ++ payload, flits := a.flits + 1, whole := h.eop } else a) }

/-- Buffer slots of a VC are free: the next control flit says so. -/
def Port.free (p : Port) (vc n : Nat) : Port :=
  if n = 0 then p else { p with freed := mapSet vc ((mapGetD 0 vc p.freed + n) % 65536) p.freed, creditDue := true }

/-- A data flit accepted (R217, R474): it joins its packet, or ends it truncated. -/
def State.acceptFlit (s : State) (x : Nat) (h : FlitHdr) (payload : List Byte) : State :=
  let p := s.port x
  let mine := fun a : Arriving => a.vc == h.vc && !a.whole
  let p := { p with rxNext := (p.rxNext + 1) % 65536, rxRetry := false, rxSeen := true }
  let s := s.count64 (Reg.rxFlits x) 1
  if h.eop ∧ h.trunc then
    let gone := p.rx.filter mine
    let n := 1 + (gone.map (fun a => a.flits - a.freed)).foldl (· + ·) 0
    let s := s.setPort x ({ p with rx := p.rx.filter (fun a => !mine a) }.free h.vc n)
    (gone.filterMap (fun a => a.pkt)).foldl State.truncateOnward s
  else if !h.sop ∧ !p.rx.any mine then s.setPort x (p.free h.vc 1)
  else (s.setPort x (p.joinFlit h payload)).freeSlots x

/-- FLIT_RECEIVE (R217, R218, R247, R441): a flit is accepted, or discarded with a retry request when its CRC fails or its SEQ is
not the expected one. `fixed` and `lost` are the symbols that FEC corrected in it and the codewords it could not. -/
def execFlitReceive (port : Nat) (flit : List Byte) (fixed lost : Nat) (s : State) : Host.Outcome State Fault Refusal :=
  .next (
    if !s.portLive port then s
    else
      let s := (s.count64 (Reg.fecCorrected port) fixed).count (Reg.fecUncorr port) lost
      if !flitOk flit then (s.count (Reg.crcFails port) 1).setPort port (s.port port).refuseFlit
      else
        let h := flitHdr flit
        let isData := h.type == 1
        let p := s.port port
        if 4 ≤ h.type ∨ (isData ∧ 12 ≤ h.vc) ∨ (p.rxRetry ∧ !(isData && h.seqNo == p.rxNext)) then s
        else
          let p := if h.ackV then p.acked h.ack else p
          if isData then
            (if h.seqNo = p.rxNext then (s.setPort port p).acceptFlit port h (flitPayload flit)
             else s.setPort port p.refuseFlit)
          else if h.type = 2 then s.setPort port { p with creditsIn := creditTotals flit }
          else if h.type = 3 then (s.setPort port p).serveRetry port h.seqNo
          else s.setPort port p)

/-! ### Sending: one flit of a port leaves (R217, R218, R219, R229, R343) -/

/-- The order in which a port grants the classes (R229): 5 within its cap, 1, 0, then round robin among 4, 3 and 2. -/
def Port.grantOrder (p : Port) : List Nat :=
  let bulk := if p.lastBulk = 4 then [3, 2, 4] else if p.lastBulk = 3 then [2, 4, 3] else [4, 3, 2]
  if 15 ≤ p.mgmtGap then [5, 1, 0] ++ bulk else [1, 0] ++ bulk ++ [5]

/-- Whether a port holds a credit for a flit of a VC (R219, assumption 140). -/
def Port.hasCredit (p : Port) (x vc : Nat) : Bool :=
  decide ((mapGetD 0 vc p.sentVc + 65536 - mapGetD 0 vc p.creditsIn) % 65536 < Config.allotment x vc)

/-- Whether flit i of a packet has reached the Junction: those of a packet that still arrives come one by one. -/
def State.flitHere (s : State) (p : Packet) (i : Nat) : Bool :=
  s.fabric.ports.all (fun (e : Nat × Port) => e.2.rx.all (fun a =>
    match a.pkt with
    | some q => a.whole || !samePacket q p || decide (i < a.flits)
    | none => true))

/-- Whether the next flit of a queued packet may leave: it is the first of its VC, its flit is here, and the VC has a credit. A VC
without one holds up only itself. -/
def State.mayLeave (s : State) (x : Nat) (e : Nat × Packet) : Bool :=
  let vc := hopVc e.2.route (s.portRole x)
  let p := s.port x
  s.headOf x vc == some e && p.hasCredit x vc && s.flitHere e.2 (s.leftOf x e) && !p.cuts.any (fun c => c.1 == vc)

/-- The queued packet of which a port sends the next flit: the oldest that may leave, of the first class in order. -/
def State.nextPacket (s : State) (x : Nat) : Option (Nat × Packet) :=
  let p := s.port x
  p.grantOrder.findSome? (fun c => p.queue.find? (fun e => e.2.route.cls == c && s.mayLeave x e))

/-- A data flit leaves: it stays in the retry buffer until it is acknowledged. -/
def State.putFlit (s : State) (x : Nat) (f : SentFlit) : State :=
  let p := s.port x
  (s.setPort x { p with txNext := (p.txNext + 1) % 65536, retryBuf := p.retryBuf ++ [f], line := f.bytes p.ackNo p.rxSeen,
                        sentVc := mapSet f.vc ((mapGetD 0 f.vc p.sentVc + 1) % 65536) p.sentVc, ctlGap := min 127 (p.ctlGap + 1),
                        mgmtGap := if f.pkt.route.cls = 5 then 0 else p.mgmtGap + 1,
                        lastBulk := if 2 ≤ f.pkt.route.cls ∧ f.pkt.route.cls ≤ 4 then f.pkt.route.cls else p.lastBulk }).count64
    (Reg.txFlits x) 1

/-- The flits of the running tenant's job, and the flit times in which the job waits behind another's, are counted (R343). -/
def State.countOwn (s : State) (x : Nat) (e : Packet) : State :=
  let p := s.port x
  let job := s.reg Reg.jobId
  let run := job != 0 && s.slotNow != 0xFF
  let own := run && e.route.job == job
  let waits := fun lim : Nat => (List.range lim).any (fun v =>
    match s.headOf x v with
    | some y => y.2.route.job == job && p.hasCredit x v
    | none => false)
  let beat := decide (e.route.cls ≤ 1)
  let behind := run && e.route.job != job
  s.setPort x { p with ownFlits := p.ownFlits + (own.toNat), waitFlits := p.waitFlits + (behind && waits 12).toNat,
                       ownBeat := p.ownBeat + (own && beat).toNat, waitBeat := p.waitBeat + (behind && waits 4).toNat }

/-- A time exchange as it leaves a Junction, which adds its own residence time to the correction field (R29). -/
def stampExchange (p : Packet) (ns : Nat) : Packet :=
  match p.body with
  | .mgmt (.exchange d sender sentAt corr) => { p with body := .mgmt (.exchange d sender sentAt (corr + ns)) }
  | .mgmt (.exchangeAnswer d a ac h t b corr) => { p with body := .mgmt (.exchangeAnswer d a ac h t b (corr + ns)) }
  | _ => p

/-- The next flit of a queued packet leaves. -/
def State.sendData (s : State) (x : Nat) (e : Nat × Packet) : State :=
  let level := s.portRole x
  let vc := hopVc e.2.route level
  let n := s.leftOf x e
  let sent := stampExchange { e.2 with route := hopRoute e.2.route level } (s.time.hallTime - e.1)
  let s := (s.countOwn x e.2).putFlit x ⟨(s.port x).txNext, sent, n, vc, false⟩
  let p := s.port x
  (if packetFlits e.2 ≤ n + 1 then s.setPort x { p with queue := p.queue.erase e, started := mapDel vc p.started }
   else s.setPort x { p with started := mapSet vc (n + 1) p.started }).freeAllSlots

/-- A flit without a packet leaves: idle, control or retry request (R217). -/
def Port.bareFlit (p : Port) (type seqNo : Nat) (payload : List Byte) : Port :=
  { p with line := flitOf ⟨seqNo, type, 0, false, false, 0, p.ackNo, p.rxSeen, false⟩ payload }

/-- A control flit leaves with the credit totals of every VC (R217, R441). -/
def Port.sendControl (p : Port) : Port :=
  let totals := (List.range 12).map (fun v => mapGetD 0 v p.freed)
  { p.bareFlit 2 0 ((List.range 244).map (Config.creditByte totals)) with creditDue := false, ctlGap := 0 }

/-- One flit time of a port that carries traffic: a retry request, a control flit where one is due and 127 flits have left since
the last (R213), the end of a truncated packet, the next data flit, or an idle flit. -/
def State.sendOne (s : State) (x : Nat) : State :=
  if s.reg (Reg.portState x) ≠ 2 then s
  else
    let p := s.port x
    if p.retryDue then s.setPort x { p.bareFlit 3 p.rxNext [] with retryDue := false, ctlGap := min 127 (p.ctlGap + 1) }
    else if p.creditDue ∧ 127 ≤ p.ctlGap then s.setPort x p.sendControl
    else match takeFirst (fun c => p.hasCredit x c.1) p.cuts with
      | some (c, rest) => (s.setPort x { p with cuts := rest }).putFlit x ⟨p.txNext, c.2, packetFlits c.2, c.1, true⟩
      | none => match s.nextPacket x with
        | some e => s.sendData x e
        | none => s.setPort x { p.bareFlit 0 0 [] with ctlGap := min 127 (p.ctlGap + 1) }

/-- n flit times of a port. -/
def sendSome (x : Nat) : Nat → State → State
  | 0, s => s
  | n + 1, s => sendSome x n (s.sendOne x)

/-- Flit times after which a port has nothing left but idle flits. -/
def Port.due (p : Port) : Nat :=
  (p.queue.map (fun e => packetFlits e.2)).foldl (· + ·) 0 + p.cuts.length + p.retryDue.toNat + 129

/-- A port's flits of n flit times; the idle ones at their end leave at once. -/
def State.sendSpan (s : State) (n x : Nat) : State :=
  if s.reg (Reg.portState x) ≠ 2 then s
  else
    let p := s.port x
    if p.queue = [] ∧ p.cuts = [] ∧ !p.retryDue ∧ !p.creditDue then
      (if n = 0 then s else s.setPort x { p.bareFlit 0 0 [] with ctlGap := min 127 (p.ctlGap + n) })
    else sendSome x (min n p.due) s

/-- Flit times that have passed at a hall time: one flit takes 1.2096 ns (R213). -/
def flitTimes (t : Nat) : Nat := t * 10000 / 12096

/-- Hall time moves on to t, if it lies ahead; meanwhile every port sends, a flit each 1.2096 ns (R213, assumption 1). -/
def State.advanceTo (s : State) (t : Nat) : State :=
  let t' := max t s.time.hallTime
  let n := flitTimes t' - flitTimes s.time.hallTime
  let s := (List.range 60).foldl (fun s x => s.sendSpan n x) s
  { s with time := { s.time with hallTime := t' } }

/-! ### Drains (R241, R242, R441) -/

/-- A write of DRAIN_CMD (R241). -/
def State.writeDrainCmd (s : State) (v : Nat) : Result :=
  if v = 1 then
    if s.reg Reg.drainState ≠ 0 then (abortCode 7 0x20, s)
    else (0, { s.setReg Reg.drainState 1 with fabric := { s.fabric with drainAt := s.time.hallTime, drainOwn := false } })
  else if v = 2 then
    let held := s.fabric.held
    let s := { s.setReg Reg.drainState 0 with fabric := { s.fabric with held := [], drainOwn := false } }
    (0, held.foldl (fun s p => s.routePacket true p) s)
  else (abortCode 4 0, s)

/-- Whether a drain has emptied its ports: no flit of it queued or unacknowledged (R241). -/
def State.drainEmpty (s : State) : Bool :=
  (List.range 60).all (fun x =>
    (s.port x).queue.all (fun e => !s.drains x e.2) && (s.port x).retryBuf.all (fun f => !s.drains x f.pkt))

/-- The credit audit of a drained port (R441): a VC of the drained classes whose receiver has not freed every flit sent is
restored to its allotment and logged. -/
def State.auditPort (s : State) (x : Nat) : State :=
  (List.range 12).foldl (fun s v =>
    let p := s.port x
    let sent := mapGetD 0 v p.sentVc
    if s.drained (if s.fabric.drainOwn then s.reg Reg.jobId else s.reg Reg.drainJob) (v / 2) x ∧ mapGetD 0 v p.creditsIn ≠ sent then
      (s.setPort x { p with creditsIn := mapSet v sent p.creditsIn }).report 5 x v
    else s) s

/-- The end of a teardown (R359 step 3): the job objects are cleared and the device is IDLE. -/
def State.finishTeardown (s : State) : State :=
  let s := ((s.setReg Reg.jobId 0).setReg Reg.rankCount 0).setDom Reg.rankTable Blob.empty
  let s := { s.setReg Reg.partState 0 with manager := { s.manager with teardownT := none } }
  (s.writeDrainCmd 2).2

/-- DRAIN_DONE (R241, R359, R441): the drain reports DRAINED and audits its ports. -/
def execDrainDone (s : State) : Host.Outcome State Fault Refusal :=
  .next (
    if s.reg Reg.drainState ≠ 1 ∨ !s.drainEmpty then s
    else
      let s := (List.range 60).foldl State.auditPort (s.setReg Reg.drainState 2)
      if s.fabric.drainOwn then s.finishTeardown else s)

/-- The packets of a drain that are queued at a port or have flits unacknowledged there, each once. -/
def State.drainRest (s : State) (x : Nat) : List Packet :=
  let p := s.port x
  let queue := (p.queue.filter (fun e => s.drains x e.2)).map (fun e => e.2)
  queue ++ ((retryPackets p.retryBuf).filter (s.drains x)).filter (fun q => !queue.any (samePacket q))

/-- The remaining flits of a drain leave a port. -/
def State.drainPort (s : State) (x : Nat) : State :=
  let s := s.unqueueAll (s.drains x) x
  s.setPort x { s.port x with retryBuf := (s.port x).retryBuf.filter (fun f => !s.drains x f.pkt) }

/-- DRAIN_TIMEOUT (R242): DRAIN_TIMEOUT after its start a drain that is not empty becomes TIMED_OUT, and what remains of it is
discarded. -/
def execDrainTimeout (s : State) : Host.Outcome State Fault Refusal :=
  .next (
    if s.reg Reg.drainState ≠ 1 then s
    else
      let s := s.advanceTo (s.fabric.drainAt + s.reg Reg.drainTimeout)
      if s.drainEmpty then s
      else
        let gone := (List.range 60).flatMap s.drainRest
        let t := ((List.range 60).foldl State.drainPort s).setReg Reg.drainState 3
        (gone.foldl (fun t p => t.discardPacket p 3) t).count Reg.drainTimeouts 1)

/-- COMBINE_RECORD_TIMEOUT (R265): a record whose response has not come back within RM_TIMEOUT of its forming is freed. -/
def execCombineRecordTimeout (record : Nat) (s : State) : Host.Outcome State Fault Refusal :=
  .next (match s.fabric.combines.find? (fun c => c.num == record) with
    | none => s
    | some c =>
      let s := s.advanceTo (c.at' + s.reg Reg.rmTimeout)
      { s with fabric := { s.fabric with combines := s.fabric.combines.filter (fun c => c.num != record) } })

/-! ### Packets of a beat at their sender (R47, R49) -/

/-- Whether a packet is a beat-class packet of this device in a class. -/
def State.ownBeatPacket (s : State) (cls : Nat) (p : Packet) : Bool :=
  match p.body with
  | .beat _ => p.route.cls == cls && physDev p.route.src == s.here
  | _ => false

/-- Beats since a beat-class packet's stage ran; 0 for any other packet. -/
def State.bodyAge (s : State) (p : Packet) : Nat :=
  match p.body with
  | .beat q => s.age q.hdr.beat
  | _ => 0

/-- Whether a packet is one of this device's in a beat class, of beat b or before. -/
def State.ownUpTo (s : State) (cls b : Nat) (p : Packet) : Bool :=
  s.ownBeatPacket cls p && decide (s.age b ≤ s.bodyAge p) && decide (s.bodyAge p < 2 ^ 31)

/-- The packets queued at a port. -/
def Port.packets (p : Port) : List Packet := p.queue.map (fun e => e.2)

/-- Whether the Junction still holds such a packet. -/
def State.holdsOwn (s : State) (cls b : Nat) : Bool :=
  (s.fabric.inject ++ s.fabric.landing ++ s.fabric.held ++ s.fabric.ports.flatMap (fun (e : Nat × Port) => e.2.packets)).any
    (s.ownUpTo cls b)

/-- The Junction abandons such packets (R47). -/
def State.dropOwnPackets (s : State) (cls b : Nat) : State := s.dropPackets (s.ownUpTo cls b)

end Sys2Proof.Machine
end

