-- ==== Sys2Proof/Machine/Platform.lean ====
section
/-! DEFINITION. Platforms: intake of Consists (R97 to R100), the dynamic segment and its seal (R120 to R122), the
active-neuron predictor and its audit (R123 to R126), and the answers (R101). -/

namespace Sys2Proof.Machine

/-! ### Queues of accepted choices -/

/-- A Platform's queue. -/
def State.queueOf (s : State) (p : Nat) : List QueuedChoice := mapGetD [] p s.platforms.queues

/-- The state with a Platform's queue set. -/
def State.setQueueOf (s : State) (p : Nat) (q : List QueuedChoice) : State :=
  { s with platforms := { s.platforms with queues := mapSet p q s.platforms.queues } }

/-- Whether a queued choice lies in a packet's Consist. -/
def inConsist (p : BeatPacket) (q : QueuedChoice) : Bool :=
  q.tok == idOf p.hdr && q.srcRank == p.hdr.srcRank && q.lslot == p.hdr.lslot && q.beat == p.hdr.beat &&
    p.entries.any (fun x => x.choice == q.entry.choice)

/-- Whether a queued choice still holds a Consist's chain in a cluster (R97). -/
def State.holdsChain (s : State) (k : Nat) (p : BeatPacket) : Bool :=
  s.platforms.queues.any (fun e => s.platCluster e.1 == some k && e.2.any (fun q => !q.released && inConsist p q))

/-- The chain of a Consist in a cluster is released where no queued choice holds it any more (R24, R97, R101). -/
def State.releaseConsist (s : State) (k : Nat) (p : BeatPacket) : State :=
  if s.holdsChain k p then s
  else (s.pools.chains.filter (fun c => c.cluster == k && c.pkt == p)).foldl State.freeChain s

/-! ### Intake -/

/-- The counters that the runtime writes for an accepted choice as its words join the segment (R193, R208): each takes a value
that the manual does not give. -/
def State.choiceCounters (s : State) (q : QueuedChoice) : State :=
  let core := (s.plat q.entry.pslot).core
  let ws := (((s.templates core).find? (fun t => t.pslot == q.entry.pslot)).map (fun t => t.writes)).getD []
  ws.foldl (fun s i => (s.updCore core (fun k => k.setCtr i s.beatNow (Config.runtimeCount s.free i))).draws 1) s

/-- A choice accepted: credits and capacity fall, the choice joins its Platform's queue (R98). -/
def State.acceptChoice (s : State) (p : BeatPacket) (e : ChoiceEntry) (bad : Bool) : State :=
  let rk := e.pslot * 65536 + p.hdr.srcRank
  let pred := (platResOf (s.dom Reg.platformRes) e.pslot).pred
  let q : QueuedChoice := ⟨idOf p.hdr, e, p.hdr.lslot, p.hdr.srcRank, p.hdr.nextRank, p.hdr.beat, pred, none, false, false,
    bad, p.vec⟩
  let pf := s.platforms
  let s := { s with platforms := { pf with
    recvLeft := mapSet rk (mapGetD 0 rk pf.recvLeft - 1) pf.recvLeft,
    capLeft := mapSet e.pslot (mapGetD 0 e.pslot pf.capLeft - 1) pf.capLeft,
    queues := mapSet e.pslot (s.queueOf e.pslot ++ [q]) pf.queues } }
  let s := if pred then s else s.choiceCounters q
  (s.count64 Reg.choicesReceived 1).count64 Reg.choicesAccepted 1

/-- One choice decided (R98, R99). -/
def State.decideChoice (s : State) (p : BeatPacket) (chain : Nat) (bad : Bool) (e : ChoiceEntry) : State :=
  let c := s.intakeCause p chain e
  if c = 0 then s.acceptChoice p e bad else s.refuse p e c

/-- The choices of a Consist in choice order. -/
def inChoiceOrder (es : List ChoiceEntry) : List ChoiceEntry := sortBy (fun a b => decide (a.choice ≤ b.choice)) es

/-- The choices whose Platform slot is not enabled (R97). -/
def State.homeless (s : State) (p : BeatPacket) : List ChoiceEntry :=
  inChoiceOrder (p.entries.filter (fun e => (s.platCluster e.pslot).isNone))

/-- A Consist complete in cluster k, with its chain there: stale packets to the Siding, otherwise each choice for the
cluster decided in order; a chain no choice holds is released. -/
def State.consistLands (s : State) (k : Nat) (p : BeatPacket) : State :=
  let mine := inChoiceOrder (p.entries.filter (fun e => s.platCluster e.pslot == some k))
  let bad := s.pools.chains.any (fun c => c.cluster == k && c.pkt == p && c.bad)
  (mine.foldl (fun s e => s.decideChoice p 0 bad e) s).releaseConsist k p

/-- The chain of a packet in one cluster goes to the Siding; the packet is counted once, in its first cluster. -/
def State.sidingIn (s : State) (k : Nat) (first : Bool) (p : BeatPacket) : State :=
  let cs := s.pools.chains.filter (fun c => c.cluster == k && c.pkt == p)
  let n := (cs.map (fun c => c.cells.length)).foldl (· + ·) 0
  (cs.foldl State.freeChain s).sidingCount (if first then 1 else 0) n

/-- CONSIST_HEADER_ARRIVAL (R97): each receiving cluster's allocator is asked for the whole chain. -/
def execConsistHeaderArrival (p : BeatPacket) (s : State) : Host.Outcome State Fault Refusal :=
  .next (if p.hdr.kind = 1 then s.requestChains p else s)

/-- CONSIST_ARRIVAL (R98, R99) in one cluster. Choices for slots that are not enabled are decided with the first
receiving cluster, or with any cluster where there is none. -/
def execConsistArrival (cluster : Nat) (p : BeatPacket) (s : State) : Host.Outcome State Fault Refusal :=
  .next (
    if p.hdr.kind ≠ 1 then s
    else
      let rs := s.receivers p
      let first := rs == [] || rs.head? == some cluster
      let stale := s.stale p.hdr.batchTag p.hdr.gen
      let s := if first then s.takeLanding (.beat p) else s
      let s0 := s
      -- the clusters' chains are decided, where they were not before
      let s := if rs.contains cluster then
          (let s := s.requestChains p
           serveUntil p ((s.pool cluster).waiting.length) cluster s)
        else s
      let s := if !rs.contains cluster then
          (if rs == [] && stale then s.sidingCount 1 0 else s)
        else if s.landingFailed cluster p then
          { s with pools := { s.pools with failed := s.pools.failed.filter (fun f => !(f.1 == cluster && f.2.1 == p)) } }
        else if stale then s.sidingIn cluster first p
        else s.consistLands cluster p
      if first && !stale then (s0.homeless p).foldl (fun s e => s.decideChoice p 0 false e) s else s)

/-! ### The dynamic segment (R120, R122, R202) -/

/-- Platform slots enabled on a core, ascending. -/
def State.slotsOn (s : State) (core : Nat) : List Nat :=
  (List.range 256).filter (fun p => (s.plat p).en && (s.plat p).core == core)

/-- The granules a choice runs (R122, R124): those it keeps, or all of its template's where no predictor serves it. -/
def QueuedChoice.granules (q : QueuedChoice) (t : Config.Template) : List Nat :=
  if q.pred then q.kept.getD [] else List.range t.granules.length

/-- The choices of a Platform that run in a beat, in queue order: predicted, where a predictor serves them, and with at least one
granule. -/
def State.runChoices (s : State) (p beat : Nat) : List QueuedChoice :=
  (s.queueOf p).filter (fun q => q.beat == beat % 2 ^ 32 && (!q.pred || (q.kept.getD []) != []))

/-- The words of one Platform in a segment (R122): for CLASS 1 the fetches of the union of the granules, then granule by granule
the words of each choice that keeps it, in queue order, then what follows a choice's last granule. -/
def platformWords (t : Config.Template) (hbm : Bool) (qs : List QueuedChoice) : List TWord :=
  let union := (List.range t.granules.length).filter (fun g => qs.any (fun q => (q.granules t).contains g))
  (if hbm then union.flatMap (fun g => t.fetch.getD g []) else []) ++
    union.flatMap (fun g => (qs.filter (fun q => (q.granules t).contains g)).flatMap (fun _ => t.granules.getD g [])) ++
    qs.flatMap (fun _ => t.close)

/-- The words of a core's segment for a beat: Platforms in ascending slot number, choices in queue order, with the words their
templates give (R122, R208). -/
def State.segmentWords (s : State) (core beat : Nat) : List TWord :=
  let v := s.asOf beat
  let ts := v.templates core
  (v.slotsOn core).flatMap (fun p => match ts.find? (fun t => t.pslot == p) with
    | some t => platformWords t ((platResOf (v.dom Reg.platformRes) p).cls == 1) (s.runChoices p beat)
    | none => [])

/-- The rows that the predictor skipped for a choice, ascending (R126). -/
def State.skippedRows (s : State) (p : Nat) (q : QueuedChoice) : List AuditRow :=
  let cfg := predRecOf ((s.asOf q.beat).dom Reg.predCfg) q.lslot
  match q.kept with
  | none => []
  | some ks => ((List.range cfg.granules).filter (fun g => !ks.contains g)).flatMap (fun g =>
      (List.range 32).map (fun i => ⟨p, q.lslot, 32 * g + i, q.vec⟩))

/-- One skipped row joins the core's running count; every 64th is due for an audit (R126). -/
def Core.skipRow (k : Core) (r : AuditRow) : Core :=
  { k with skippedRows := k.skippedRows + 1, audits := if (k.skippedRows + 1) % 64 = 0 then k.audits ++ [r] else k.audits }

/-- The skipped rows of a core's choices of a beat are counted in the order of R122 (R126). -/
def State.countSkipped (s : State) (core beat : Nat) : State :=
  let rows := ((s.asOf beat).slotsOn core).flatMap (fun p =>
    ((s.queueOf p).filter (fun q => q.beat == beat % 2 ^ 32 && q.pred)).flatMap (s.skippedRows p))
  s.updCore core (fun k => rows.foldl Core.skipRow k)

/-- A core's segment sealed for a beat: SEALED, the rows its predictors skipped counted, the seal line raised with N = 1, counted,
and the wait noted (R120, R126, R132, R198, R202). -/
def State.sealSegment (s : State) (core beat : Nat) : State :=
  let ws := s.segmentWords core beat
  let s := s.countSkipped core beat
  let s := s.updCore core (fun k => k.setSeg beat ⟨2, ws⟩)
  let s := s.arrive (lineKey core (.cluster (248 + core % 8)) beat) 1
  let s := s.count Reg.segmentsSealed 1
  s.setReg Reg.sealWaitNs (s.time.hallTime - (s.tickTime beat + s.reg Reg.intakeClose))

/-- Whether a core's live MODE is RUN and the core is enabled. -/
def State.runs (s : State) (core : Nat) : Bool := s.coreOn core && s.reg (Reg.mode core) == 1

/-- The beat whose segment a seal concerns: that of an invocation that still waits for an older beat's seal, else the
running beat. -/
def State.sealBeat (s : State) (core : Nat) : Nat :=
  let k := s.core core
  if k.seq.running ∧ k.seq.beat < s.beatNow ∧ (k.seg k.seq.beat).state = 1 then k.seq.beat else s.beatNow

/-- Whether every prediction of the choices that a core accepted in a beat is complete (R120). -/
def State.predicted (s : State) (core beat : Nat) : Bool :=
  ((s.asOf beat).slotsOn core).all (fun p =>
    (s.queueOf p).all (fun q => q.beat != beat % 2 ^ 32 || !q.pred || q.kept.isSome))

/-- SEGMENT_SEAL (R120): at the later of INTAKE_CLOSE and the core's last prediction. -/
def execSegmentSeal (core : Nat) (s : State) : Host.Outcome State Fault Refusal :=
  let b := s.sealBeat core
  .next (
    if s.runs core ∧ ((s.core core).seg b).state = 1 ∧ (s.beat.intakeClosed ∨ b < s.beatNow) ∧ s.predicted core b
    then s.sealSegment core b else s)

/-- The choices a Platform has accepted in the running beat: its CAPACITY less what is left of it (R89, R98). -/
def State.arrivals (s : State) (p : Nat) : Nat := (s.plat p).capacity - mapGetD 0 p s.platforms.capLeft

/-- One Platform at INTAKE_CLOSE: its arrival count goes to its event counter; a Platform with none is skipped (R100, R121). R100
speaks of the choices in its queue: one that an empty prediction has already answered is counted with them, as an arrival (DESIGN
CHOICE, assumption 126). -/
def State.closeSlot (s : State) (p : Nat) : State :=
  let core := (s.plat p).core
  let n := s.arrivals p
  let s := match ((s.templates core).find? (fun t => t.pslot == p)).bind (fun t => t.counter) with
    | some i => s.updCore core (fun k => k.setCtr i s.beatNow n)
    | none => s
  if n = 0 then s.count Reg.platformsSkipped 1 else s

/-- INTAKE_CLOSE (R44, R100, R120): Platforms stop accepting and write their counts; a RUN core with no accepted choice
seals an empty segment. -/
def execIntakeClose (s : State) : Host.Outcome State Fault Refusal :=
  .next (
    if s.noBeat ∨ s.beat.intakeClosed then s
    else
      let s := { s with beat := { s.beat with intakeClosed := true } }
      let s := ((List.range 256).filter (fun p => (s.plat p).en)).foldl State.closeSlot s
      let empty := (List.range 128).filter (fun c => s.runs c && ((s.core c).seg s.beatNow).state == 1 &&
        (s.slotsOn c).all (fun p => s.arrivals p == 0))
      empty.foldl (fun s c => s.sealSegment c s.beatNow) s)

/-! ### Answers (R94, R101) -/

/-- An answer leaves for the choice's NEXT_RANK; bit 20 carries the overrun of its core, which a choice of a past beat shows (R48,
R94). -/
def State.sendAnswer (s : State) (q : QueuedChoice) (overrun : Bool) (vec : List BF16) : State :=
  let h := { headerFor q.tok 2 q.lslot q.beat s.myRank q.nextRank
               (returnFlags q.entry.choice (if overrun || s.age q.beat != 0 then 1 else 0)) with beat := q.beat }
  s.sendRank q.nextRank 0 ((s.plat q.entry.pslot).core / 8) 0 1 (.beat ⟨h, [], vec, [], 0, 0⟩)

/-- One choice of a Platform's queue changed. -/
def State.updChoice (s : State) (p : Nat) (q r : QueuedChoice) : State :=
  s.setQueueOf p ((s.queueOf p).map (fun x => if x == q then r else x))

/-- A choice holds its Consist's chain no more: the chain goes with the last choice that holds it (R24, R97, R101). -/
def State.releaseChoice (s : State) (p : Nat) (q : QueuedChoice) : State :=
  let k := (s.plat p).core / 8
  let s := s.updChoice p q { q with released := true }
  let held := (s.pools.chains.filter (fun c => c.cluster == k && c.pkt.hdr.kind == 1 && inConsist c.pkt q)).map (fun c => c.pkt)
  held.foldl (fun s x => s.releaseConsist k x) s

/-- A choice is served: its answer has left, or will not be sent; it stays listed for its segment until it is old. -/
def State.dropChoice (s : State) (p : Nat) (q : QueuedChoice) : State :=
  (s.updChoice p q { q with answered := true }).releaseChoice p { q with answered := true }

/-- The queued choice of a token at a Platform that has not been served. -/
def State.findChoice (s : State) (p : Nat) (tok : TokenId) (choice : Nat) : Option QueuedChoice :=
  (s.queueOf p).find? (fun q => q.tok == tok && q.entry.choice == choice && !q.answered)

/-- EXPERT_ANSWER_SEND (R94, R101, R125): the expert's output, which the core has left in its scratchpad, is sent as the choice's one
answer; a choice whose chain is poisoned sends none (R436). -/
def execExpertAnswerSend (pslot : Nat) (tok : TokenId) (choice : Nat) (overrun : Bool) (src : Nat) (s : State) :
    Host.Outcome State Fault Refusal :=
  .next (match s.findChoice pslot tok choice with
    | none => s
    | some q =>
      let vec := (s.core (s.plat pslot).core).spB16 src (s.reg Reg.hiddenWidth)
      if q.spoiled then s.dropChoice pslot q else (s.sendAnswer q overrun vec).dropChoice pslot q)

/-- The hidden vector of a choice in its Consist's chain, as long as the choice holds the chain (R24, R97); `last` marks the
expert's last read, which releases it. A poisoned chain reads as NaN (R436). -/
def State.readChoice (s : State) (pslot : Nat) (tok : TokenId) (choice : Nat) (last : Bool) : Option (List BF16 × State) :=
  match s.findChoice pslot tok choice with
  | none => none
  | some q =>
    if q.released then none
    else some (if q.spoiled then q.vec.map (fun _ => 0x7FC0) else q.vec, if last then s.releaseChoice pslot q else s)

/-! ### The predictor (R123 to R126) -/

/-- The exact value of an INT8 operand of the predictor, an MXINT8 element at scale 2^0 (R144). -/
def predInt8 (b : Byte) : Dy := ⟨signedOf 8 b.toNat, -6⟩

/-- The exact sum of products of INT8 weights and exact values, times a factor, rounded once to FP32 at read-out (R124, R144,
R152). -/
def predDot (subnorm : Nat) (ws : List Byte) (xs : List Dy) (factor : FP32) : FP32 :=
  let v := dySum (List.zipWith (fun w x => dyMul (predInt8 w) x) ws xs)
  (rMul ⟨0, decide (v.m < 0), v.m.natAbs, v.e⟩ factor).toF32 subnorm

/-- The INT8 vector of stage A (R124): the hidden vector quantised to MXINT8 with the learned scales of the expert's image. -/
def predQuantise (scales : List Nat) (vec : List BF16) : List Byte :=
  (quantVector .mxint8 scales (vec.map (fun x => rOfF (fOfB x)))).1

/-- The 64 values u of stage A (R124): exact INT8 sums, scaled by the column. -/
def predStageA (subnorm : Nat) (shared : Blob) (hw : Nat) (xq : List Byte) : List FP32 :=
  (List.range 64).map (fun c =>
    predDot subnorm ((List.range hw).map (fun r => shared.get (r * 64 + c))) (xq.map predInt8)
      (BitVec.ofNat 32 (shared.nat (64 * hw + 4 * c) 4)))

/-- The row values p of stage B (R124). -/
def predStageB (subnorm : Nat) (u : List FP32) (rows : List (List Byte)) (scales : List FP32) : List FP32 :=
  List.zipWith (fun row sc => if u.all fIsFin then predDot subnorm row (u.map fVal) sc else fNaN) rows scales

/-- The kept granules of a token (R124), in ascending order. -/
def predKeep (cfg : PredRec) (p : List FP32) : List Nat :=
  let gs := (List.range cfg.granules).map (fun g =>
    let rows := (p.drop (32 * g)).take 32
    (g, rows.tail.foldl fMax (rows.getD 0 fNaN)))
  let act := gs.filter (fun g => fLt cfg.thresh g.2)
  let ranked := sortBy keyGe act
  sortBy (fun a b => decide (a ≤ b)) ((ranked.take cfg.maxGran).map (fun g => g.1))

/-- The sealed image's body that a Platform slot runs (R119, R123). -/
def State.imageBody (s : State) (p : Nat) : List Byte :=
  ((s.imageOf s.tenantNow (mapGetD ⟨0, 0, 0, 0⟩ p s.platforms.images).imageId).map (fun i => i.body)).getD []

/-- The granules that the predictor keeps for a choice (R124), under the settings that its beat began with (R127). -/
def State.predictChoice (s : State) (p : Nat) (q : QueuedChoice) : List Nat :=
  let v := s.asOf q.beat
  let image := Config.imagePredictor (s.imageBody p)
  let sub := s.reg Reg.readoutSubnorm
  let xq := predQuantise image.xscales q.vec
  let u := predStageA sub (v.dom (slotKey Reg.predShared q.lslot)) (v.reg Reg.hiddenWidth) xq
  predKeep (predRecOf (v.dom Reg.predCfg) q.lslot) (predStageB sub u image.rows image.rowScale)

/-- PREDICTION_COMPLETE (R120, R124): the kept granules of a choice, from its vector in the Consist and the predictor weights of the
expert's image. An empty set is answered with +0 at once; otherwise the choice's words join the segment. -/
def execPredictionComplete (pslot : Nat) (tok : TokenId) (choice : Nat) (s : State) : Host.Outcome State Fault Refusal :=
  .next (match s.findChoice pslot tok choice with
    | none => s
    | some q =>
      if !q.pred ∨ q.kept.isSome then s
      else
        let keep := s.predictChoice pslot q
        let done := { q with kept := some keep }
        let s := (s.updChoice pslot q done).count Reg.predTokens 1
        if keep = [] then
          let s := s.count Reg.predEmpty 1
          let s := if q.spoiled then s else s.sendAnswer done false (List.replicate (s.reg Reg.hiddenWidth) 0)
          s.dropChoice pslot done
        else
          let s := if ((s.core (s.plat pslot).core).seg s.beatNow).state = 1 ∨ s.age q.beat ≠ 0 then s.choiceCounters done
                   else s.count Reg.segRefused 1
          s)

/-- One audit of a core in the maintenance slot (R126): the activated value of its oldest sampled row against AUDIT_EPS. -/
def State.auditRow (s : State) (core : Nat) : State :=
  match (s.core core).audits with
  | [] => s
  | r :: rest =>
    let s := (s.updCore core (fun k => { k with audits := rest })).count Reg.audited 1
    let value := Config.rowActivation (s.imageBody r.pslot) r.row r.vec
    if fLt (predRecOf (s.dom Reg.predCfg) r.lslot).eps (fCode false (fMag value)) then
      let s := s.count Reg.auditMisses 1
      { s with platforms := { s.platforms with auditMisses := s.platforms.auditMisses + 1 } }
    else s

/-- The audit window that has ended is judged (R126): more misses than AUDIT_LIMIT raise the sticky alarm. -/
def State.closeAudit (s : State) : State :=
  match s.platforms.auditEnded with
  | none => s
  | some n =>
    let t : State := { s with platforms := { s.platforms with auditEnded := none } }
    if t.reg Reg.auditLimit < n then (t.setReg Reg.auditAlarm 1).count Reg.auditAlarms 1 else t

/-- AUDIT_WINDOW_CLOSE (R126): the window of 1,024 beats that ended at the tick is judged. -/
def execAuditWindowClose (s : State) : Host.Outcome State Fault Refusal := .next s.closeAudit

/-- One slot judged at the close of a clipping window. -/
def State.judgeClip (s : State) (e : Nat × ClipCount) : State :=
  let share := if e.2.quantised = 0 then 0 else e.2.clipped * 65536 / e.2.quantised
  let s := s.setDom Reg.clipShare ((s.dom Reg.clipShare).setNat (4 * e.1) 4 share)
  if (s.dom Reg.clipThresh).nat (4 * e.1) 4 < share then
    let f := s.dom Reg.clipFlags
    let bits := setBitAt (f.nat (e.1 / 8) 1) (e.1 % 8) true
    (s.setDom Reg.clipFlags (f.setNat (e.1 / 8) 1 bits)).count Reg.clipEvents 1
  else s

/-- The clipping window that has ended is judged, every slot of it (R167). -/
def State.closeClip (s : State) : State :=
  match s.clip.ended with
  | none => s
  | some m =>
    let all := (List.range 256).map (fun i => (i, mapGetD ⟨0, 0⟩ i m))
    let t := all.foldl State.judgeClip s
    { t with clip := { t.clip with ended := none } }

/-- One more beat of the audit and clipping windows, once for each beat; a window that is complete leaves the open one (R126,
R167). What an earlier window left is judged first. A beat is one that ran: no beat counts while PART_STATE is IDLE or
CONFIGURED, although ticks fall (DESIGN CHOICE, assumption 121). -/
def State.windowBeats (s : State) : State :=
  if s.beat.counted then s
  else
    let s := s.closeAudit.closeClip
    let p := s.platforms
    let a := p.auditBeats + 1
    let p := if 1024 ≤ a then { p with auditBeats := 0, auditMisses := 0, auditEnded := some p.auditMisses }
             else { p with auditBeats := a }
    let c := s.clip
    let b := c.beats + 1
    let c := if s.reg Reg.clipWindow ≤ b then ⟨[], 0, some c.counts⟩ else { c with beats := b }
    { s with platforms := p, clip := c, beat := { s.beat with counted := true } }

/-- The windows of the beat that ends at a tick are counted, and those it ends are judged, before a commit of that tick changes
what they ran under (R45, R168). -/
def State.judgeBefore (s : State) : State :=
  (if s.time.ticked ∧ !s.noBeat then s.windowBeats else s).closeAudit.closeClip

end Sys2Proof.Machine
end

