-- ==== Sys2Proof/Machine/Remote.lean ====
section
/-! DEFINITION. Remote memory (R250 to R268): the mover's requests, the home's checks, coherence and recall, and the
responses; far-tier requests (R303); mover transfers and cluster-cache atomics (R13, R289, R296, R298, R306). -/

namespace Sys2Proof.Machine

/-! ### The mover's requests at their core (R251, R252, R258) -/

/-- One issue cycle of a core's mover. -/
def State.mvBusy (s : State) (n : Nat) : State := { s with beat := { s.beat with busyMv := s.beat.busyMv + n } }

/-- KiB of a counter whose bytes below a KiB are kept: the KiB to add and the bytes that remain. -/
def kibOf (remain n : Nat) : Nat × Nat := ((remain + n) / 1024, (remain + n) % 1024)

/-- Bytes read as requester. -/
def State.readBytes (s : State) (n : Nat) : State :=
  let k := kibOf s.rmem.readRem n
  ({ s with rmem := { s.rmem with readRem := k.2 } }).count64 Reg.rmReadKib k.1

/-- Bytes written and added as requester. -/
def State.writeBytes (s : State) (n : Nat) : State :=
  let k := kibOf s.rmem.writeRem n
  ({ s with rmem := { s.rmem with writeRem := k.2 } }).count64 Reg.rmWriteKib k.1

/-- The pieces of [jva, jva + len) at 4,096 B boundaries: offset and length (R251). -/
def rmPieces (jva : Nat) : Nat → Nat → Nat → List (Nat × Nat)
  | 0, _, _ => []
  | n + 1, off, len =>
    if len = 0 then []
    else
      let k := min len (4096 - (jva + off) % 4096)
      (off, k) :: rmPieces jva n (off + k) (len - k)

/-- The addresses of the lines of a range. -/
def lineAddrs (jva len : Nat) : List Nat := (linesOf jva len).map (fun l => 64 * l)

/-- Copies of lines of a rank dropped. -/
def State.dropCopies (s : State) (rank jva len : Nat) : State :=
  { s with rmem := { s.rmem with copies := s.rmem.copies.filter (fun c => !(c.rank == rank && (lineAddrs jva len).contains c.jva)) } }

/-- The requester's own tracked copies of lines dropped, as a WRITE or ADD to them issues (R261); untracked ones stay (R263). -/
def State.dropTracked (s : State) (rank jva len : Nat) : State :=
  let copies := s.rmem.copies.filter (fun c => !(c.tracked && c.rank == rank && (lineAddrs jva len).contains c.jva))
  { s with rmem := { s.rmem with copies := copies } }

/-- The copy of a line that the device holds (R260, R263). -/
def State.copyOfLine (s : State) (rank a : Nat) : Option LineCopy := s.rmem.copies.find? (fun c => c.rank == rank && c.jva == a)

/-- Whether a request is a READ whose lines copies may serve: CACHE is set, and it covers whole lines. -/
def RmReq.mayHit (r : RmReq) : Bool := r.cache && r.opc == 1 && r.jva % 64 == 0 && r.len % 64 == 0

/-- The lines of a request that no copy serves, in ascending order. -/
def State.missing (s : State) (r : RmReq) : List Nat :=
  (lineAddrs r.jva r.len).filter (fun a => !(r.mayHit && (s.copyOfLine r.rank a).isSome))

/-- The runs of consecutive lines in an ascending list: first line address and bytes. -/
def runsOf (ls : List Nat) : List (Nat × Nat) :=
  ls.foldr (fun a rs => match rs with
    | (b, n) :: rest => if a + 64 = b then (a, n + 64) :: rest else (a, 64) :: rs
    | [] => [(a, 64)]) []

/-- The part of a request that covers a run of its lines. -/
def RmReq.part (r : RmReq) (run : Nat × Nat) : RmReq := { r with jva := run.1, len := run.2, dst := r.dst + (run.1 - r.jva) }

/-- Lines of a READ that copies on the device hold, written to the scratchpad (R260, R263). -/
def State.hitCopies (s : State) (core : Nat) (r : RmReq) : State :=
  if !r.mayHit then s
  else (lineAddrs r.jva r.len).foldl (fun t a => match s.copyOfLine r.rank a with
    | some c => t.updCore core (fun k => k.spWrite (r.dst + (a - r.jva)) c.data)
    | none => t) s

/-- Whether a request counts against the 64 of its core (R252): far-tier requests, own writes at the home and collectives do not. -/
def RmReq.remote (r : RmReq) : Bool := r.far.isNone && !r.mine

/-- A tag of a core's requests: the core and its running number (R253). -/
def rmTag (core n : Nat) : Nat := core % 128 * 512 + n % 512

/-- The core of a tag. -/
def tagCore (t : Nat) : Nat := t / 512

/-- The next number of a core's requests that no outstanding one carries. -/
def Core.freeTag (k : Core) (core : Nat) : Nat :=
  ((List.range 512).find? (fun i => !k.rmOut.any (fun r => r.tag == rmTag core (k.rmNextTag + i)))).getD 0 + k.rmNextTag

/-- A request becomes outstanding at its core: it takes a free tag. -/
def State.outstanding (s : State) (core : Nat) (r : RmReq) : RmReq × State :=
  let k := s.core core
  let n := k.freeTag core
  let r := { r with tag := rmTag core n, issued := s.time.hallTime }
  (r, s.setCore core { k with rmOut := k.rmOut ++ [r], rmNextTag := (n + 1) % 512 })

/-- The fault-log address of a far-tier request: its home address as a 2 MiB page number, and the offset. -/
def farJva (addr off : Nat) : Nat := addr * extentBytes + off

/-- A request leaves the core (R252 to R254, R260): what copies on the device hold of a READ they serve; the rest goes to the home,
its runs of lines one by one, or ends at the source where the rank is bad. -/
def State.issueRm (s : State) (core : Nat) (r : RmReq) : State :=
  let runs := if r.mayHit then runsOf (s.missing r) else [(r.jva, r.len)]
  let s := s.hitCopies core r
  match runs with
  | [] => s.settleRepeat core r.rep
  | run :: rest =>
    let s := s.updCore core (fun k => { k with rmWait := rest.map r.part ++ k.rmWait })
    let r := r.part run
    match s.rankDev r.rank with
    | none => ((s.count Reg.badRank 1).rmError core 9 r.opc r.rank r.jva r.errCtr).settleRepeat core r.rep
    | some _ =>
      let data := if r.opc = 1 then [] else (s.core core).spRead r.dst r.len
      let q := (if r.opc = 1 then s else s.dropTracked r.rank r.jva r.len).outstanding core r
      let p : RmPacket := { opc := r.opc, dtype := r.dtype, cache := r.cache, combined := false, cause := 0,
                            srcRank := s.myRank, dstRank := r.rank, tag := q.1.tag, len := (r.len + 63) / 64 - 1,
                            jva := r.jva, version := 1, rsvd := 0, data := data }
      (q.2.sendRank r.rank 0 (core / 8) 1 2 (.rm p)).count64 Reg.rmRequests 1

/-- Waiting requests of a core issue while fewer than 64 are outstanding (R252); none does for an outgoing tenant (R268). -/
def State.pumpRm (s : State) (core : Nat) : Nat → State
  | 0 => s
  | n + 1 =>
    let k := s.core core
    match k.rmWait with
    | [] => s
    | r :: rest =>
      if 64 ≤ (k.rmOut.filter RmReq.remote).length ∨ s.leaving then s
      else ((s.setCore core { k with rmWait := rest }).issueRm core r).pumpRm core n

/-- Everything that waits issues as far as it can: at most one request for each of its lines. -/
def State.pumpRmAll (s : State) (core : Nat) : State :=
  s.pumpRm core ((((s.core core).rmWait.map (fun r => r.len / 64 + 1)).foldl (· + ·) 0))

/-- One repeat of a mover slot that names a rank: its requests join the core's, split at 4,096 B boundaries (R251). A
request of an outgoing tenant is not issued from its swap's epoch tick on (R268). The repeat completes when the last of its
requests has ended (R258). -/
def State.rmSlot (s : State) (core opc dtype rank jva len sp : Nat) (cache : Bool) : State :=
  if !s.coreOn core ∨ s.leaving then s
  else
    let err := s.mvErrCtr core
    let q := s.beginRepeat core
    let rs := (rmPieces jva (len / 64 + 2) 0 len).map (fun p =>
      ({ tag := 0, opc := opc, dtype := dtype, rank := rank, jva := jva + p.1, len := p.2, dst := sp + p.1, cache := cache,
         dropped := false, errCtr := err, far := none, place := none, data := [], mine := false, rep := q.1, issued := 0 } : RmReq))
    let s := q.2.updCore core (fun k => { k with rmWait := k.rmWait ++ rs })
    let s := (s.pumpRmAll core).mvBusy 1
    if rs = [] then s.settleRepeat core q.1 else s

/-- A request of a core ends (R252, R258): it is taken off, waiting ones issue, its repeat may be complete, and the invocation may
end. -/
def State.endRm (s : State) (core : Nat) (r : RmReq) : State :=
  let s := s.updCore core (fun k => { k with rmOut := k.rmOut.filter (fun x => x.tag != r.tag) })
  ((s.pumpRmAll core).settleRepeat core r.rep).checkEnd core

/-- The outstanding request of a tag. -/
def State.rmReqOf (s : State) (core tag : Nat) : Option RmReq := (s.core core).rmOut.find? (fun r => r.tag == tag)

/-- A request fails with a cause (R258). -/
def State.failRm (s : State) (core : Nat) (r : RmReq) (cause : Nat) : State :=
  (s.rmError core cause r.opc r.rank r.jva r.errCtr).endRm core r

/-- A collective that a mover slot started ends with a cause, as R258 states for a request (R277); what its record names is
a free value. -/
def State.failSlotColl (s : State) (core : Nat) (r : RmReq) (cause : Nat) : State :=
  let f := s.fresh
  let x := Config.collFault f.1
  f.2.failRm core { r with opc := x.1 % 16, rank := x.2.1 % 65536, jva := x.2.2 % 2 ^ 64 } cause

/-- MV_REMOTE_READ (R250 to R252). -/
def execMvRemoteRead (core rank jva len : Nat) (dst : Addr) (cache : Bool) (s : State) : Host.Outcome State Fault Refusal :=
  .next (s.rmSlot core 1 0 rank jva len ((s.core core).addr .mv dst) cache)

/-- MV_REMOTE_WRITE (R250 to R252, R261). -/
def execMvRemoteWrite (core rank jva len : Nat) (src : Addr) (s : State) : Host.Outcome State Fault Refusal :=
  .next (s.rmSlot core 2 0 rank jva len ((s.core core).addr .mv src) false)

/-- The DTYPE of an ADD (R253). -/
def addTypeCode : AddType → Nat
  | .int32 => 1
  | .int64 => 2
  | .fp32 => 3
  | .bf16 => 4

/-- MV_REMOTE_ADD (R250 to R252): one 64 B line. -/
def execMvRemoteAdd (core rank jva : Nat) (dtype : AddType) (src : Addr) (s : State) : Host.Outcome State Fault Refusal :=
  .next (s.rmSlot core 3 (addTypeCode dtype) rank jva 64 ((s.core core).addr .mv src) false)

/-- MV_INVALIDATE (R259, R263): the device's copies of a range are dropped. -/
def execMvInvalidate (core rank jva len : Nat) (s : State) : Host.Outcome State Fault Refusal :=
  .next (if !s.coreOn core then s
    else
      let q := s.beginRepeat core
      ((q.2.dropCopies rank jva len).mvBusy 1).settleRepeat core q.1)

/-! ### The home's checks (R254) -/

/-- The live record of a job page. -/
def State.xlateOf (s : State) (jpn : Nat) : Option XlateRec := s.xlate.find? (fun r => r.jpn == jpn)

/-- Whether a page is the one whose recall RECALL_STATE tells of (R256). -/
def State.recalling (s : State) (jpn : Nat) : Bool := s.reg Reg.recallState != 0 && s.rmem.recallJpn == jpn

/-- Whether a page is under recall: from the write until the commit that applies its change (R256). -/
def State.recalled (s : State) (jpn : Nat) : Bool := s.recalling jpn || s.rmem.recalled.contains jpn

/-- Whether a request's fields are those of its kind (R253, R254). A VERSION other than 1 is taken as an invalid field (DESIGN
CHOICE, assumption 138). -/
def rmFormOk (p : RmPacket) : Bool :=
  p.rsvd == 0 && p.version == 1 && p.cause == 0 && decide (p.len < 64) && (match p.opc with
    | 1 => p.dtype == 0 && p.data.isEmpty
    | 2 => p.dtype == 0 && p.data.length == 64 * (p.len + 1)
    | 3 => decide (1 ≤ p.dtype) && decide (p.dtype ≤ 4) && p.len == 0 && p.data.length == 64
    | _ => false)

/-- The fast-tier byte address of a job virtual address in a record's page. -/
def XlateRec.addr (r : XlateRec) (jva : Nat) : Nat := r.ppn * extentBytes + jva % extentBytes

/-- Bytes a request covers at the home. -/
def rmBytes (p : RmPacket) : Nat := 64 * (p.len + 1)

/-- The NAK cause of a request that arrives, 0 where it is taken in (R254). -/
def State.rmCause (s : State) (p : RmPacket) : Nat :=
  match s.xlateOf (field p.jva 21 27) with
  | none => if !rmFormOk p then 4 else if 2 ^ 48 ≤ p.jva ∨ p.jva % 64 ≠ 0 ∨ 4096 < p.jva % 4096 + rmBytes p then 3 else 1
  | some r =>
    firstFail [(!rmFormOk p, 4), (decide (2 ^ 48 ≤ p.jva) || p.jva % 64 != 0 || decide (4096 < p.jva % 4096 + rmBytes p), 3),
      (s.recalled r.jpn, 6), ((p.opc == 1 && !r.rd) || (p.opc == 2 && !r.wr) || (p.opc == 3 && !r.ad), 2)]

/-- A response of the home (R253): its kind, with the request's tag and COMBINED echoed. -/
def State.respond (s : State) (q : RmPacket) (opc cause : Nat) (data : List Byte) : State :=
  let p : RmPacket := { opc := opc, dtype := 0, cache := q.cache, combined := q.combined, cause := cause, srcRank := s.myRank,
                        dstRank := q.srcRank, tag := q.tag, len := q.len, jva := q.jva, version := 1, rsvd := 0, data := data }
  s.sendRank q.srcRank 0 0 1 3 (.rm p)

/-! ### Coherence at the home (R259 to R261) -/

/-- The quad position of a rank's device where it lies in this device's quad (R260). -/
def State.quadPos (s : State) (rank : Nat) : Option Nat :=
  match s.rankDev rank with
  | some d => if d / 4 = s.here / 4 then some (d % 4) else none
  | none => none

/-- The rank of a quad position. -/
def State.rankAt (s : State) (pos : Nat) : Option Nat :=
  (List.range (s.reg Reg.rankCount)).find? (fun n => s.rankDev n == some (s.here / 4 * 4 + pos))

/-- The sharers of a line, as quad positions. -/
def State.sharersOf (s : State) (line : Nat) : List Nat := maskMembers 4 (mapGetD 0 line s.rmem.directory)

/-- The physical lines of a request at the home. -/
def State.physLines (s : State) (p : RmPacket) : List Nat :=
  match s.xlateOf (field p.jva 21 27) with
  | some r => linesOf (r.addr p.jva) (if p.opc = 1 then rmBytes p else max 1 p.data.length)
  | none => []

/-- The directory entries of lines emptied. -/
def State.clearDir (s : State) (lines : List Nat) : State :=
  { s with rmem := { s.rmem with directory := lines.foldl (fun d l => mapDel l d) s.rmem.directory } }

/-- A line of a rank is invalidated on this device (R261, R262): every copy goes, and a READ in flight keeps none. -/
def State.invalidateHere (s : State) (rank jva : Nat) : State :=
  let s := s.dropCopies rank jva 64
  let mark := fun (r : RmReq) =>
    if r.opc == 1 && r.rank == rank && (lineAddrs r.jva r.len).contains (jva / 64 * 64) then { r with dropped := true } else r
  { s with cores := s.cores.map (fun (e : Nat × Core) => (e.1, { e.2 with rmOut := e.2.rmOut.map mark })) }

/-- An INVALIDATE to a sharer of a line at a job virtual address (R261). A position that holds no rank has no copy. -/
def State.invalidateAt (s : State) (pos jva : Nat) : Bool × State :=
  if pos = s.here % 4 then (false, s.invalidateHere s.myRank jva)
  else match s.rankAt pos with
    | none => (false, s)
    | some r =>
      let p : RmPacket := { opc := 7, dtype := 0, cache := false, combined := false, cause := 0, srcRank := s.myRank,
                            dstRank := r, tag := 0, len := 0, jva := jva, version := 1, rsvd := 0, data := [] }
      (true, (s.sendRank r 0 0 1 3 (.rm p)).count Reg.rmInvalidations 1)

/-- The invalidations of a WRITE or ADD (R261): to every sharer of its lines but the requester, which dropped its copy at issue; a
combined request's SRC_RANK has dropped none. Answers who must still answer. -/
def State.askSharers (s : State) (p : RmPacket) : List Nat × State :=
  let base := p.jva / 64 * 64
  let ls := s.physLines p
  (List.range ls.length).foldl (fun (a : List Nat × State) i =>
    let l := ls.getD i 0
    let me := if p.combined then none else s.quadPos p.srcRank
    ((s.sharersOf l).filter (fun x => some x != me || p.srcRank == s.myRank)).foldl (fun (a : List Nat × State) x =>
      let r := a.2.invalidateAt x (base + 64 * i)
      (if r.1 then a.1 ++ [4 * l + x] else a.1, r.2)) a) ([], s)

/-- The memory-side adder applied to a range of the fast tier (R251, R296). -/
def State.hbmAdd (s : State) (d a : Nat) (bs : List Byte) : State :=
  s.hbmWrite a (addLine d (memRead s.tiers.hbm a bs.length) bs)

/-- A READ of a page under recall that was in service before it (R256): the copy it leaves is invalidated too. -/
def State.recallCopy (s : State) (p : RmPacket) (pos : Nat) : State :=
  let ls := s.physLines p
  if s.reg Reg.recallState ≠ 1 ∨ s.rmem.recallJpn ≠ field p.jva 21 27 then s
  else (List.range ls.length).foldl (fun s i =>
    let q := s.invalidateAt pos (p.jva / 64 * 64 + 64 * i)
    if q.1 then { q.2 with rmem := { q.2.rmem with recallInv := q.2.rmem.recallInv ++ [(ls.getD i 0, pos)] } } else q.2) s

/-- A request of the home's own mover ends, with a cause where it failed. -/
def State.endMine (s : State) (core tag cause : Nat) : State :=
  match s.rmReqOf core tag with
  | some q => if cause = 0 then s.endRm core q else (s.rmError core cause q.opc q.rank q.jva q.errCtr).endRm core q
  | none => s

/-- A request applied or read at the home and answered (R251, R254, R259, R260): a READ or ADD that meets an uncorrectable line ends
with cause 5. -/
def State.serveRm (s : State) (h : HeldWrite) : State :=
  let p := h.req
  match s.xlateOf (field p.jva 21 27) with
  | none => s
  | some r =>
    let a := r.addr p.jva
    let n := if p.opc = 1 then rmBytes p else p.data.length
    if p.opc ≠ 2 ∧ (linesOf a n).any (fun l => s.tiers.hbmBad.contains l) then
      (match h.mine with
       | some (core, tag) => s.endMine core tag 5
       | none => (s.count Reg.rmNakSent 1).respond p 6 5 [])
    else
      let s := if p.opc = 2 then (s.hbmWrite a p.data).clearDir (s.physLines p)
               else if p.opc = 3 then (s.hbmAdd p.dtype a p.data).clearDir (s.physLines p) else s
      match h.mine with
      | some (core, tag) => s.endMine core tag 0
      | none =>
        let s := s.count64 Reg.rmServed 1
        if p.opc ≠ 1 then s.respond p 5 0 []
        else
          let data := memRead s.tiers.hbm a (rmBytes p)
          match if p.cache && r.coh then s.quadPos p.srcRank else none with
          | none => s.respond p 4 0 data
          | some x =>
            let dir := (linesOf a (rmBytes p)).foldl (fun d l => mapSet l (setBitAt (mapGetD 0 l d) x true) d) s.rmem.directory
            (({ s with rmem := { s.rmem with directory := dir } }).respond p 4 0 data).recallCopy p x

/-- The home's queue: a request goes on when no earlier one holds a line of its own; a WRITE or ADD first has every
sharer's acknowledgement. -/
def State.pumpHome (s : State) : State :=
  let r := s.rmem.held.foldl (fun (a : List HeldWrite × State) h =>
    let ls := a.2.physLines h.req
    if a.1.any (fun e => (a.2.physLines e.req).any (fun l => ls.contains l)) then (a.1 ++ [h], a.2)
    else
      let x := if h.asked ∨ h.req.opc = 1 then (h.sharers, a.2) else a.2.askSharers h.req
      if x.1 = [] then (a.1, x.2.serveRm h) else (a.1 ++ [{ h with asked := true, sharers := x.1 }], x.2)) ([], s)
  { r.2 with rmem := { r.2.rmem with held := r.1 } }

/-- A request joins the home's queue. -/
def State.joinHome (s : State) (h : HeldWrite) : State :=
  ({ s with rmem := { s.rmem with held := s.rmem.held ++ [h] } }).pumpHome

/-- A request that R246 delivered, at its home: NAKed, or queued and served in order of arrival on its lines. -/
def State.homeRequest (s : State) (p : RmPacket) : State :=
  let s := s.takeLanding (.rm p)
  let c := s.rmCause p
  if c ≠ 0 then (s.count Reg.rmNakSent 1).respond p 6 c []
  else s.joinHome ⟨p, false, [], none⟩

/-- RM_READ (R254, R260): a request with another OP is what its OP says. -/
def execRmRead (p : RmPacket) (s : State) : Host.Outcome State Fault Refusal := .next (s.homeRequest p)

/-- RM_WRITE (R254, R261). -/
def execRmWrite (p : RmPacket) (s : State) : Host.Outcome State Fault Refusal := .next (s.homeRequest p)

/-- RM_ADD (R251, R254, R261). -/
def execRmAdd (p : RmPacket) (s : State) : Host.Outcome State Fault Refusal := .next (s.homeRequest p)

/-! ### Responses (R258, R260, R262, R265) -/

/-- A response to a combined request: one copy to each merged requester, with its own tag; the record is freed (R265). -/
def State.copyOut (s : State) (p : RmPacket) : State :=
  match s.fabric.combines.find? (fun c => c.num == p.tag) with
  | none => s.count Reg.rmLateResp 1
  | some c =>
    let s := { s with fabric := { s.fabric with combines := s.fabric.combines.filter (fun x => x.num != c.num) } }
    c.reqs.foldl (fun s q => s.sendRank q.srcRank 0 0 1 3
      (.rm { p with srcRank := p.srcRank, dstRank := q.srcRank, tag := q.tag, combined := q.combined })) s

/-- A response at its requester: copied out where it is combined, late where its request has ended, else handed to `f`. -/
def State.response (s : State) (p : RmPacket) (ok : RmReq → Bool) (f : State → Nat → RmReq → State) : State :=
  let s := s.takeLanding (.rm p)
  if p.combined then s.copyOut p
  else
    let core := tagCore p.tag
    match s.rmReqOf core p.tag with
    | some r => if ok r && r.far.isNone then f s core r else s.count Reg.rmLateResp 1
    | none => s.count Reg.rmLateResp 1

/-- Whether the home of a page tracks the copies this device takes of it (R260, R263): only in the quad, where the page is COH. -/
def State.tracksHere (s : State) (rank jva : Nat) : Bool :=
  if (s.quadPos rank).isNone then false
  else if rank = s.myRank then s.xlate.any (fun r => r.coh && r.jpn == field jva 21 27)
  else Config.peerTracks s.free rank (field jva 21 27)

/-- The lines that a READ with CACHE has brought stay as copies (R260, R263), unless an INVALIDATE met the READ (R262); a line of
which there is a copy keeps it. Which other copies the cache evicts for them is free. -/
def State.keepLines (s : State) (core : Nat) (r : RmReq) (data : List Byte) : State :=
  if !r.cache ∨ r.dropped then s
  else
    let new := (lineAddrs r.jva r.len).filter (fun a => (s.copyOfLine r.rank a).isNone)
    let copies := new.map (fun a =>
      (⟨r.rank, a, s.tracksHere r.rank a, core / 8, bytesAt data (a - r.jva / 64 * 64) 64⟩ : LineCopy))
    let kept := s.rmem.copies.filter (fun c => Config.keepsCopy s.free c.rank c.jva)
    ({ s with rmem := { s.rmem with copies := kept ++ copies } } : State).draws 1

/-- READ_DATA (R253, R260, R262, R263): the data reaches the scratchpad, and its lines may stay as copies. -/
def execReadData (p : RmPacket) (s : State) : Host.Outcome State Fault Refusal :=
  .next (s.response p (fun r => r.opc == 1) (fun s core r =>
    let s := s.updCore core (fun k => k.spWrite r.dst (p.data.take r.len))
    ((s.keepLines core r p.data).readBytes r.len).endRm core r))

/-- ACK (R258, R259): a WRITE or ADD is complete. -/
def execAck (p : RmPacket) (s : State) : Host.Outcome State Fault Refusal :=
  .next (s.response p (fun r => r.opc != 1) (fun s core r => (s.writeBytes r.len).endRm core r))

/-- NAK (R257, R258): the request ends with the cause. -/
def execNak (p : RmPacket) (s : State) : Host.Outcome State Fault Refusal :=
  .next (s.response p (fun _ => true) (fun s core r => s.failRm core r p.cause))

/-- INVALIDATE (R261, R262): every copy of the line on the device is dropped, a READ in flight keeps no copy, and INV_ACK
answers. -/
def execInvalidate (p : RmPacket) (s : State) : Host.Outcome State Fault Refusal :=
  let s := (s.takeLanding (.rm p)).invalidateHere p.srcRank p.jva
  let a : RmPacket := { p with opc := 8, srcRank := s.myRank, dstRank := p.srcRank, data := [], len := 0 }
  .next (s.sendRank p.srcRank 0 0 1 3 (.rm a))

/-- INV_ACK (R256, R261): the sharer's bit goes; a held request or a recall that waited for it goes on. -/
def execInvAck (p : RmPacket) (s : State) : Host.Outcome State Fault Refusal :=
  let s := s.takeLanding (.rm p)
  .next (match s.xlateOf (field p.jva 21 27), s.quadPos p.srcRank with
    | some r, some x =>
      let l := r.addr p.jva / 64
      let held := s.rmem.held.map (fun (h : HeldWrite) => { h with sharers := h.sharers.erase (4 * l + x) })
      ({ s with rmem := { s.rmem with
          directory := (let m := setBitAt (mapGetD 0 l s.rmem.directory) x false
                        if m = 0 then mapDel l s.rmem.directory else mapSet l m s.rmem.directory),
          held := held, recallInv := s.rmem.recallInv.erase (l, x) } }).pumpHome
    | _, _ => s)

/-- RM_TIMEOUT (R257, R258): no response within RM_TIMEOUT of the request's issue; hall time moves on to that moment. -/
def execRmTimeout (core tag : Nat) (s : State) : Host.Outcome State Fault Refusal :=
  .next (match s.rmReqOf core tag with
    | some r => if r.remote then (s.advanceTo (r.issued + s.reg Reg.rmTimeout)).failRm core r 7 else s
    | none => s)

/-! ### Recall (R256) -/

/-- A write of RM_RECALL: the page is recalled, and every quad copy of its lines is invalidated. A page whose recall is DONE stays
recalled until its change is committed. -/
def State.writeRecall (s : State) (jpn : Nat) : Result :=
  if 2 ^ 27 ≤ jpn then (abortCode 4 0, s)
  else if s.reg Reg.recallState = 1 then (abortCode 7 0x31, s)
  else
    let before := if s.reg Reg.recallState = 2 then s.rmem.recalled.filter (fun j => j != s.rmem.recallJpn) ++ [s.rmem.recallJpn]
                  else s.rmem.recalled
    let before := before.filter (fun j => j != jpn)
    let s := { s.setReg Reg.recallState 1 with rmem := { s.rmem with recallJpn := jpn, recallInv := [], recalled := before } }
    match s.xlateOf jpn with
    | none => (0, s)
    | some r =>
      let first := r.ppn * 32768
      let ls := s.rmem.directory.filter (fun e => decide (first ≤ e.1) && decide (e.1 < first + 32768))
      let a := ls.foldl (fun (a : List (Nat × Nat) × State) e =>
        (maskMembers 4 e.2).foldl (fun (a : List (Nat × Nat) × State) x =>
          let q := a.2.invalidateAt x (jpn * extentBytes + (e.1 - first) * 64)
          (if q.1 then a.1 ++ [(e.1, x)] else a.1, q.2)) a) ([], s)
      let t := a.2.clearDir ((ls.map (fun e => e.1)).filter (fun l => !a.1.any (fun y => y.1 == l)))
      (0, { t with rmem := { t.rmem with recallInv := a.1 } })

/-- RECALL_DONE (R256): no request is in service on the page and every copy has been invalidated. -/
def execRecallDone (s : State) : Host.Outcome State Fault Refusal :=
  let busy := s.rmem.held.any (fun h => field h.req.jva 21 27 == s.rmem.recallJpn)
  .next (if s.reg Reg.recallState = 1 ∧ s.rmem.recallInv = [] ∧ !busy then s.setReg Reg.recallState 2 else s)

/-! ### Mover transfers on the device (R13, R296, R298, R303, R306) -/

/-- The cause by which a transfer's access to a home fails, 0 where it does not; `op` 1 read, 2 write, 3 ADD. -/
def State.homeCause (s : State) (a off n op : Nat) : Nat :=
  match s.homeAt a with
  | none => 1
  | some h =>
    firstFail [(h.tenant != s.tenantNow || s.slotNow == 0xFF || decide (extentBytes < off + n), 1),
      (op == 3 && homeTier a == 3, 4), (op != 1 && homeTier a == 2, 2), (op == 3 && homeTier a == 2, 4),
      (op != 1 && h.moving.isSome, 6), (homeTier a == 3 && decide (s.cxl (homePort a) < 2), 7),
      (op != 2 && s.homeBad a off n, 5)]

/-- A token's block of a layer slot, and its user (R128). -/
def State.kvSpan (s : State) (t : TokenId) (lslot block : Nat) : Option (KvSpan × KvUser) :=
  match s.kvUser s.tenantNow t.tag t.lane with
  | none => none
  | some u => ((u.blocksOf lslot).find? (fun b => b.block == block)).map (fun b => (b, u))

/-- Where byte i of a cluster's slice of a block lies in its frame (R128, R291): lines of 64 B go round the 16 clusters. -/
def sliceByte (b : KvSpan) (cluster i : Nat) : Nat := b.off + (i / 64 * 16 + cluster % 16) * 64 + i % 64

/-- Whether a line of a slice is uncorrectable (R313, R315). -/
def State.sliceBad (s : State) (b : KvSpan) (u : KvUser) (cluster off n : Nat) : Bool :=
  (List.range ((n + off % 64 + 63) / 64)).any (fun j => s.homeBad (u.frameAt b) (sliceByte b cluster ((off / 64 + j) * 64)) 1)

/-- The bytes of a transfer's source and the offsets of its poisoned ones. -/
def State.mvRead (s : State) (core : Nat) (p : MvPlace) (n : Nat) : List Byte × List Nat :=
  let k := s.core core
  match p with
  | .scratch a =>
    let a := k.addr .mv a
    (k.spRead a n, (List.range n).filter (fun i => k.scratchBad.contains ((a + i) / 8)))
  | .shared o => (memRead (s.sharedMem (core / 8)) o n,
      (List.range n).filter (fun i => s.tiers.sharedBad.contains (core / 8, (o + i) / 8)))
  | .home a o => (s.homeRead a o n, [])
  | .cell p t c o _ => (match s.readChoice p t c false with
    | some r => (bytesAt (b16Bytes r.1) o n, [])
    | none => ([], []))
  | .kv t l b o => (match s.kvSpan t l b with
    | some (x, u) => ((List.range n).map (fun i => (s.homeRead (u.frameAt x) (sliceByte x (core / 8) (o + i)) 1).getD 0 0), [])
    | none => ([], []))

/-- The poison of a transfer copied to its destination words or lines (R435). -/
def State.mvPoison (s : State) (core : Nat) (p : MvPlace) (bad : List Nat) : State :=
  if bad = [] then s
  else match p with
    | .scratch a =>
      s.updCore core (fun k =>
        let b := k.addr .mv a
        { k with scratchBad := bad.foldl (fun l i => if l.contains ((b + i) / 8) then l else l ++ [(b + i) / 8]) k.scratchBad })
    | .shared o =>
      let w := bad.foldl (fun l i => if l.contains (core / 8, (o + i) / 8) then l else l ++ [(core / 8, (o + i) / 8)]) s.tiers.sharedBad
      { s with tiers := { s.tiers with sharedBad := w } }
    | .home a o =>
      if homeTier a ≠ 1 then s
      else
        let w := bad.foldl (fun l i =>
          let x := (homeBase a + o + i) / 64
          if l.contains x then l else l ++ [x]) s.tiers.hbmBad
        { s with tiers := { s.tiers with hbmBad := w } }
    | _ => s

/-- Whether an own write must first invalidate quad copies: a tracked line of a COH page (R261). -/
def State.tracked (s : State) (a n : Nat) : Option XlateRec :=
  if (linesOf a n).any (fun l => (s.sharersOf l) != []) then s.xlate.find? (fun r => r.coh && r.ppn == a / extentBytes) else none

/-- An own write or ADD to the fast tier: at once, or behind the invalidations of its lines, with the mover waiting for it
(R259, R261). -/
def State.ownWrite (s : State) (core opc dtype a : Nat) (rep : Option Nat) (bs : List Byte) : State :=
  match s.tracked a bs.length with
  | none => if opc = 3 then s.hbmAdd dtype a bs else s.hbmWrite a bs
  | some r =>
    let jva := r.jpn * extentBytes + a % extentBytes
    let q := s.outstanding core { tag := 0, opc := opc, dtype := dtype, rank := s.myRank, jva := jva, len := bs.length, dst := 0,
                                  cache := false, dropped := false, errCtr := s.mvErrCtr core, far := none, place := none,
                                  data := [], mine := true, rep := rep, issued := 0 }
    let p : RmPacket := { opc := opc, dtype := dtype, cache := false, combined := false, cause := 0, srcRank := s.myRank,
                          dstRank := s.myRank, tag := q.1.tag, len := 0, jva := jva, version := 1, rsvd := 0, data := bs }
    q.2.joinHome ⟨p, false, [], some (core, q.1.tag)⟩

/-- A far-tier request joins the core's outstanding ones until its completion, with the bytes a read reads (R303). -/
def State.farRequest (s : State) (core opc dtype a off n : Nat) (place : Option MvPlace) (rep : Option Nat) : State :=
  (s.outstanding core { tag := 0, opc := opc, dtype := dtype, rank := s.myRank, jva := farJva a off, len := n, dst := 0,
                        cache := false, dropped := false, errCtr := s.mvErrCtr core, far := some (homePort a), place := place,
                        data := if opc = 1 then s.homeRead a off n else [], mine := false, rep := rep, issued := 0 }).2

/-- Flash reads counted by block: one for each page of an extent that a range touches (R297, R299). -/
def State.countReads (s : State) (a off n : Nat) : State :=
  let pages := if n = 0 then [] else (List.range ((off + n - 1) / 16384 - off / 16384 + 1)).map (off / 16384 + ·)
  let read := fun m (p : Nat) => let b := pageBlock (homeExt a) p; mapSet b (mapGetD 0 b m + 1) m
  { s with tiers := { s.tiers with reads := pages.foldl read s.tiers.reads } }

/-- The bytes of a transfer written at its destination, or added there (DTYPE not 0). -/
def State.mvWrite (s : State) (core dtype : Nat) (p : MvPlace) (rep : Option Nat) (bs : List Byte) : State :=
  match p with
  | .scratch a => s.updCore core (fun k => k.spWrite (k.addr .mv a) bs)
  | .shared o => s.sharedWrite (core / 8) o bs
  | .home a o =>
    if homeTier a = 1 then
      s.ownWrite core (if dtype = 0 then 2 else 3) dtype (homeBase a + o) rep bs
    else (s.homeWrite a o bs).farRequest core 2 0 a o bs.length none rep
  | _ => s

/-- A place with its scratchpad offset fixed, as the repeat that names it has it and as a request in flight keeps it. -/
def State.fixPlace (s : State) (core : Nat) : MvPlace → MvPlace
  | .scratch a => .scratch (.lit ((s.core core).addr .mv a))
  | p => p

/-- The transfer itself: a far read waits for its completion, any other moves its bytes now, poison included; the expert's last
read of a cell chain releases it (R24). -/
def State.mvMove (s : State) (core dtype : Nat) (src dst : MvPlace) (n : Nat) (rep : Option Nat) : State :=
  match src with
  | .home a o =>
    if homeTier a = 3 then s.farRequest core 1 dtype a o n (some (s.fixPlace core dst)) rep
    else
      let s := if homeTier a = 2 then s.countReads a o n else s
      s.mvWrite core dtype dst rep (s.homeRead a o n)
  | .cell p t c _ last =>
    let d := s.mvRead core src n
    let s := match s.readChoice p t c last with
      | some r => r.2
      | none => s
    s.mvWrite core dtype dst rep d.1
  | p =>
    let d := s.mvRead core p n
    (s.mvWrite core dtype dst rep d.1).mvPoison core dst d.2

/-- The cause by which a place fails a transfer that reads it (op 1), writes it (2) or adds to it (3): 0 where it does not (R257,
R289, R298). An ADD goes to a fast-tier home only; cell chains and KV blocks are read. -/
def State.placeCause (s : State) (n op : Nat) : MvPlace → Nat
  | .scratch _ => if op = 3 then 4 else 0
  | .shared o => if op = 3 then 4 else if cacheBytes < o + n then 3 else 0
  | .home a o => s.homeCause a o n op
  | .cell p t c _ _ => if op ≠ 1 then 2 else if (s.readChoice p t c false).isNone then 1 else 0
  | .kv t l b o => if op ≠ 1 then 2 else if (s.kvSpan t l b).isNone then 1
                   else if s.reg Reg.kvBlockBytes / 16 < o + n then 3 else 0

/-- The address a failed transfer is logged with (R269). -/
def placeJva : MvPlace → Nat
  | .home a o => farJva a o
  | _ => 0

/-- The cause by which a transfer fails at its source or destination, and the operation and address it is logged with: 0 where it
does not fail. -/
def State.mvCause (s : State) (add : Option AddType) (src dst : MvPlace) (n : Nat) : Nat × Nat × Nat :=
  let r := s.placeCause n 1 src
  let op := if add.isSome then 3 else 2
  if r ≠ 0 then (r, 1, placeJva src) else (s.placeCause n op dst, op, placeJva dst)

/-- The token whose request ends because a transfer reads a bad line of its KV (R313, R315). -/
def State.kvLost (s : State) (core len : Nat) : MvPlace → Option TokenId
  | .kv t l b o => match s.kvSpan t l b with
    | some (x, u) => if s.sliceBad x u (core / 8) o len then some t else none
    | none => none
  | _ => none

/-- A transfer that fails at its place is recorded; a flash page that a read finds uncorrectable is counted (R299). -/
def State.transferError (s : State) (core : Nat) (src : MvPlace) (c : Nat × Nat × Nat) : State :=
  let t := match src with
    | .home a _ => if c.1 = 5 ∧ c.2.1 = 1 ∧ homeTier a = 2 then s.count Reg.flashUe 1 else s
    | _ => s
  t.rmError core c.1 c.2.1 s.myRank c.2.2 (s.mvErrCtr core)

/-- MOVER_TRANSFER (R13, R24, R129, R296, R298, R303, R306, R313): one repeat of a slot copies, or adds, bytes between the
scratchpad, the cluster's shared SRAM, a home, a cell chain and a KV block. -/
def execMoverTransfer (core : Nat) (add : Option AddType) (src dst : MvPlace) (len : Nat) (s : State) :
    Host.Outcome State Fault Refusal :=
  .next (
    if !s.coreOn core then s
    else
      let src := s.fixPlace core src
      let dst := s.fixPlace core dst
      let q := s.beginRepeat core
      let c := s.mvCause add src dst len
      let s := q.2.mvBusy ((len + 2047) / 2048)
      let s := if c.1 ≠ 0 then s.transferError core src c
        else match s.kvLost core len src with
          | some t => s.endRequest t 1
          | none => s.mvMove core ((add.map addTypeCode).getD 0) src dst len q.1
      s.settleRepeat core q.1)

/-- CXL_COMPLETION (R303): a far-tier request ends; a poisoned completion ends it with cause 5. -/
def execCxlCompletion (core id : Nat) (poisoned : Bool) (s : State) : Host.Outcome State Fault Refusal :=
  .next (match s.rmReqOf core id with
    | none => s
    | some r =>
      if r.far.isNone then s
      else if poisoned then (s.count Reg.cxlPoison 1).failRm core r 5
      else
        let s := match r.place with
          | some p => s.mvWrite core r.dtype p r.rep r.data
          | none => s
        s.endRm core r)

/-- CXL_TIMEOUT (R303): no completion within CXL_TIMEOUT of the request's issue; hall time moves on to that moment. -/
def execCxlTimeout (core id : Nat) (s : State) : Host.Outcome State Fault Refusal :=
  .next (match s.rmReqOf core id with
    | none => s
    | some r => if r.far.isNone then s
                else ((s.advanceTo (r.issued + s.reg Reg.cxlTimeout)).count Reg.cxlTimeouts 1).failRm core r 7)

/-! ### Atomics (R289) -/

/-- First byte of a cluster cache's software area (R288). -/
def softBase : Nat := 2097152

/-- One atomic of the mover on a word of a cluster cache's software area: the old value goes to the scratchpad; outside
the area, or unaligned, it ends with cause 3; on a poisoned word with cause 5 (R289, R435). -/
def State.atomic (s : State) (core cluster off : Nat) (wide : Bool) (dst : Addr) (f : Nat → Nat) : State :=
  if !s.coreOn core then s
  else
    let at' := (s.core core).addr .mv dst
    let q := s.beginRepeat core
    let s := q.2
    let n := if wide then 8 else 4
    let bad := off % n ≠ 0 ∨ off < softBase ∨ softBase + s.reg Reg.ccSoftBytes < off + n ∨ 16 ≤ cluster
    let s := (s.mvBusy 1)
    let opc := Config.atomicOp s.free % 16
    let t := if bad then (s.draws 1).rmError core 3 opc s.myRank off (s.mvErrCtr core)
      else if s.sharedBadIn cluster off n then (s.draws 1).rmError core 5 opc s.myRank off (s.mvErrCtr core)
      else
        let old := leNat (memRead (s.sharedMem cluster) off n)
        let s := (s.sharedWrite cluster off (leBytes n (f old))).count64 Reg.ccAtomics 1
        s.updCore core (fun k => k.spWrite at' (leBytes n old))
    t.settleRepeat core q.1

/-- Bits of an atomic's word. -/
def atomBits (wide : Bool) : Nat := if wide then 64 else 32

/-- ATOMIC_ADD: wraps in two's complement. -/
def execAtomicAdd (core cluster off : Nat) (wide : Bool) (v : Nat) (dst : Addr) (s : State) :
    Host.Outcome State Fault Refusal :=
  .next (s.atomic core cluster off wide dst (fun o => (o + v) % 2 ^ atomBits wide))

/-- ATOMIC_MIN, signed. -/
def execAtomicMin (core cluster off : Nat) (wide : Bool) (v : Nat) (dst : Addr) (s : State) :
    Host.Outcome State Fault Refusal :=
  let n := atomBits wide
  .next (s.atomic core cluster off wide dst (fun o =>
    if signedOf n (v % 2 ^ n) < signedOf n o then v % 2 ^ n else o))

/-- ATOMIC_MAX, signed. -/
def execAtomicMax (core cluster off : Nat) (wide : Bool) (v : Nat) (dst : Addr) (s : State) :
    Host.Outcome State Fault Refusal :=
  let n := atomBits wide
  .next (s.atomic core cluster off wide dst (fun o =>
    if signedOf n o < signedOf n (v % 2 ^ n) then v % 2 ^ n else o))

/-- ATOMIC_SWAP. -/
def execAtomicSwap (core cluster off : Nat) (wide : Bool) (v : Nat) (dst : Addr) (s : State) :
    Host.Outcome State Fault Refusal :=
  .next (s.atomic core cluster off wide dst (fun _ => v % 2 ^ atomBits wide))

/-- COMPARE_SWAP: the new value only where the old one equals the expected one. -/
def execCompareSwap (core cluster off : Nat) (wide : Bool) (expected v : Nat) (dst : Addr) (s : State) :
    Host.Outcome State Fault Refusal :=
  .next (s.atomic core cluster off wide dst (fun o =>
    if o = expected % 2 ^ atomBits wide then v % 2 ^ atomBits wide else o))

end Sys2Proof.Machine
end

