-- ==== Sys2Proof/Machine/Collective.lean ====
section
/-! DEFINITION. Collectives (R271 to R284): groups, descriptors and their local checks, the order of reductions, chunks
with their CRC, acknowledgements and re-sends, and how a collective ends. -/

namespace Sys2Proof.Machine

/-! ### Descriptors and groups (R271, R273) -/

/-- A collective's descriptor. -/
structure CollDescr where
  op    : Nat
  red   : Nat
  dtype : Nat
  group : Nat
  seqNo : Nat
  root  : Nat
  len   : Nat
  src   : Nat
  dst   : Nat
  ok    : Bool
deriving DecidableEq, Repr

/-- The fields of a 64 B descriptor; `ok` says that no reserved field or value is set (cause 4 otherwise). -/
def collDescr (b : List Byte) : CollDescr :=
  let w := natAt b 0 64
  let op := field w 0 4
  let red := field w 4 2
  let d := field w 8 3
  { op := op, red := red, dtype := d, group := field w 16 10, seqNo := field w 32 32, root := field w 64 12,
    len := field w 96 32, src := field w 128 64, dst := field w 192 64,
    ok := b.length == 64 && decide (1 ≤ op) && decide (op ≤ 6) && decide (1 ≤ d) && decide (d ≤ 4) &&
      (op == 1 || op == 5 || decide (red < 3)) && (op != 6 || red == 0) && field w 6 2 == 0 && field w 11 5 == 0 &&
      field w 26 6 == 0 && field w 76 20 == 0 && field w 256 256 == 0 }

/-- The member ranks of a group's live record, in ordinal order (R271). -/
def State.collMembers (s : State) (g : Nat) : List Nat :=
  let b := s.dom (slotKey Reg.collGroup g)
  (List.range (b.nat 0 2)).map (fun i => b.nat (8 + 2 * i) 2)

/-- Bytes of a chunk (R280). -/
def chunkBytes : Nat := 65536

/-- Chunks of n bytes. -/
def chunksOf (n : Nat) : Nat := (n + 65535) / 65536

/-- Bytes a member supplies and receives (R274): of ordinal `me` of n. -/
def collRegions (d : CollDescr) (me n : Nat) : Nat × Nat :=
  match d.op with
  | 1 => (if me = d.root then d.len else 0, d.len)
  | 2 => (d.len, if me = d.root then d.len else 0)
  | 3 => (d.len, d.len)
  | 4 => (d.len, d.len / n)
  | 5 => (d.len, n * d.len)
  | _ => (d.len, if me = d.root then d.len else 0)

/-- The cause by which a region fails translation or rights (R273, R277), 0 where it does not. -/
def State.regionCause (s : State) (va n : Nat) (write : Bool) : Nat :=
  if n = 0 then 0
  else (List.range ((va + n - 1) / extentBytes - va / extentBytes + 1)).foldl (fun c i =>
    if c ≠ 0 then c
    else if 2 ^ 48 < va + n then 1
    else match s.xlateOf (va / extentBytes + i) with
      | none => 1
      | some r => if (write && r.wr) || (!write && r.rd) then 0 else 2) 0

/-- Whether the two regions overlap against R274. -/
def collOverlap (d : CollDescr) (r : Nat × Nat) : Bool :=
  decide (d.src < d.dst + r.2) && decide (d.dst < d.src + r.1) && decide (0 < r.1) && decide (0 < r.2) &&
    !(d.src == d.dst && (d.op == 1 || d.op == 3))

/-- Whether an alignment or length rule is broken, for a group of n (cause 3). -/
def collRangeBad (d : CollDescr) (me n : Nat) : Bool :=
  let e := dtypeBytes d.dtype
  d.src % 64 != 0 || d.dst % 64 != 0 || d.len % e != 0 || decide (1073741824 < d.len) ||
    (decide (0 < n) && ((d.op == 4 && (d.len % n != 0 || d.len / n % e != 0)) ||
      (d.op == 5 && decide (1073741824 < n * d.len)) ||
      ((d.op == 1 || d.op == 2 || d.op == 6) && decide (n ≤ d.root)))) || collOverlap d (collRegions d me n)

/-- A collective slot (R283). -/
def State.coll (s : State) (i : Nat) : CollSlot := mapGetD CollSlot.empty i s.colls

/-- The state with a collective slot set. -/
def State.setColl (s : State) (i : Nat) (c : CollSlot) : State := { s with colls := mapSet i c s.colls }

/-- The slot in which (GROUP, SEQ) is in flight. -/
def State.collSlotOf (s : State) (group seqNo : Nat) : Option Nat :=
  (List.range 8).find? (fun i => (s.coll i).state == 1 && (s.coll i).group == group && (s.coll i).seqNo == seqNo)

/-- The slot a new collective takes: a FREE one, else one that has ended. -/
def State.newCollSlot (s : State) : Option Nat :=
  match (List.range 8).find? (fun i => (s.coll i).state == 0) with
  | some i => some i
  | none => (List.range 8).find? (fun i => (s.coll i).state != 1)

/-- What a local start answers (R277): the cause of R278 and the abort code at COLL_START, both 0 where it starts. -/
def State.collCheck (s : State) (b : List Byte) : Nat × Nat :=
  let d := collDescr b
  let ms := s.collMembers d.group
  let me := ms.idxOf? s.myRank
  let r := collRegions d (me.getD 0) ms.length
  let src := s.regionCause d.src r.1 false
  let dst := s.regionCause d.dst r.2 true
  if !d.ok then (4, abortCode 4 0)
  else if collRangeBad d (me.getD 0) ms.length then (3, abortCode 4 0)
  else if me.isNone ∨ s.myRankOpt.isNone then (14, abortCode 1 0)
  else if src ≠ 0 then (src, abortCode src 0)
  else if dst ≠ 0 then (dst, abortCode dst 0)
  else if (s.collSlotOf d.group d.seqNo).isSome then (15, abortCode 7 0x41)
  else if s.newCollSlot.isNone then (15, abortCode 6 0x41)
  else if s.leaving then (10, abortCode 7 0x81)
  else (0, 0)

/-! ### The order of sums (R275) -/

/-- Steps of a reduction at which ordinal i of n receives: step k receives from i + 2^k. -/
def recvSteps (i n : Nat) : List Nat := (List.range 12).filter (fun k => i % 2 ^ (k + 1) == 0 && decide (i + 2 ^ k < n))

/-- The step at which an ordinal above 0 sends its partial, to i − 2^k. -/
def sendStep (i : Nat) : Nat := (lowestBit 13 i).getD 0

/-- Signed or floating-point order of two elements: whether a ranks below b. −0 ranks below +0. -/
def eltLt (d a b : Nat) : Bool :=
  if d = 1 then decide (signedOf 32 a < signedOf 32 b)
  else if d = 2 then decide (signedOf 64 a < signedOf 64 b)
  else
    let f := fun x => if d = 3 then BitVec.ofNat 32 x else fOfB (BitVec.ofNat 16 x)
    fLt (f a) (f b) || (fIsZero (f a) && fIsZero (f b) && fNeg (f a) && !fNeg (f b))

/-- Whether an element is a NaN. -/
def eltIsNaN (d a : Nat) : Bool :=
  if d = 3 then fIsNaN (BitVec.ofNat 32 a) else if d = 4 then bIsNaN (BitVec.ofNat 16 a) else false

/-- One operation of a reduction: SUM, MIN or MAX; a NaN operand gives NaN. -/
def redElt (red d a b : Nat) : Nat :=
  if red = 0 then addElt d a b
  else if eltIsNaN d a ∨ eltIsNaN d b then addElt d a b
  else if red = 1 then (if eltLt d b a then b else a)
  else if eltLt d a b then b else a

/-- A reduction step on two chunks. -/
def redChunk (red d : Nat) (a b : List Byte) : List Byte :=
  let n := dtypeBytes d
  (List.zipWith (redElt red d) (eltsOf n a) (eltsOf n b)).flatMap (leBytes n)

/-! ### Memory of a collective -/

/-- The pieces of a range of job virtual addresses by page: address in the fast tier, offset and length. -/
def State.vaPieces (s : State) (va n : Nat) : List (Nat × Nat × Nat) :=
  if n = 0 then []
  else (List.range ((va + n - 1) / extentBytes - va / extentBytes + 1)).filterMap (fun i =>
    let lo := max va ((va / extentBytes + i) * extentBytes)
    let hi := min (va + n) ((va / extentBytes + i + 1) * extentBytes)
    (s.xlateOf (va / extentBytes + i)).map (fun r => (r.addr lo, lo - va, hi - lo)))

/-- Bytes of the member's own memory by job virtual address. -/
def State.vaRead (s : State) (va n : Nat) : List Byte := (s.vaPieces va n).flatMap (fun p => memRead s.tiers.hbm p.1 p.2.2)

/-- Whether an uncorrectable line lies in a range. -/
def State.vaBad (s : State) (va n : Nat) : Bool :=
  (s.vaPieces va n).any (fun p => (linesOf p.1 p.2.2).any (fun l => s.tiers.hbmBad.contains l))

/-- Bytes written to the member's own memory, or added there (DTYPE not 0), behind the invalidations R261 asks for. -/
def State.vaWrite (s : State) (va dtype : Nat) (bs : List Byte) : State :=
  (s.vaPieces va bs.length).foldl (fun s p =>
    let piece := bytesAt bs p.2.1 p.2.2
    match s.tracked p.1 p.2.2 with
    | none => if dtype = 0 then s.hbmWrite p.1 piece else s.hbmAdd dtype p.1 piece
    | some r =>
      let q : RmPacket := { opc := if dtype = 0 then 2 else 3, dtype := dtype, cache := false, combined := false, cause := 0,
                            srcRank := s.myRank, dstRank := s.myRank, tag := 0, len := 0,
                            jva := r.jpn * extentBytes + p.1 % extentBytes, version := 1, rsvd := 0, data := piece }
      s.joinHome ⟨q, false, [], some (65536, 0)⟩) s

/-! ### Sending (R276, R279 to R281) -/

/-- A collective packet of this member. -/
def collPacket (c : CollSlot) (kind phase cause dstOrd chunk : Nat) (bs : List Byte) : CollPacket :=
  { kind := kind, phase := phase, cause := cause, group := c.group, seqNo := c.seqNo, srcOrd := c.myOrd, dstOrd := dstOrd,
    chunk := chunk, crc := if kind = 1 then crc32c bs else 0, data := bs }

/-- A packet to one ordinal. -/
def State.sendOrd (s : State) (c : CollSlot) (ord : Nat) (p : CollPacket) : State :=
  s.sendRank (c.members.getD ord 0) 0 ((c.slotCore.getD 0) / 8) 2 4 (.coll p)

/-- A packet multicast to some ordinals: one multicast for each run of 64 of them, every member selected (R276). -/
def State.sendOrds (s : State) (c : CollSlot) (ords : List Nat) (p : CollPacket) : State :=
  (piecesOf 64 ((ords.length + 63) / 64) (ords.map (fun o => c.members.getD o 0))).foldl (fun s ranks =>
    s.multicast 4 0 2 (2 ^ ranks.length - 1) ((c.slotCore.getD 0) / 8) ranks (.coll p)) s

/-- Payload KiB sent. -/
def State.collKib (s : State) (n : Nat) : State :=
  let k := kibOf s.rmem.collRem n
  ({ s with rmem := { s.rmem with collRem := k.2 } }).count64 Reg.collKib k.1

/-- The others' ordinals. -/
def otherOrds (c : CollSlot) : List Nat := (List.range c.members.length).filter (fun o => o != c.myOrd)

/-! ### How a collective ends (R278) -/

/-- The slot of a collective records its end; a mover slot that started it completes. What an ALLREDUCE in place held back is written
where it ends DONE. -/
def State.closeColl (s : State) (i state cause : Nat) : State :=
  let c := s.coll i
  let s := if state = 2 then c.results.foldl (fun s r => s.vaWrite ((collDescr c.descr).dst + r.1) 0 r.2) s else s
  let s := s.setColl i { CollSlot.empty with state := state, cause := cause, group := c.group, seqNo := c.seqNo, done := c.done,
                                             endBeat := s.beatNow % 2 ^ 32 }
  let s := s.count (if state = 2 then Reg.collDone else Reg.collFailed) 1
  match c.slotCore with
  | none => s
  | some k =>
    match s.rmReqOf k (65536 + i) with
    | none => s
    | some r => if state = 2 then s.endRm k r else s.failSlotColl k r cause

/-- Whether a member's destination is its source (R274): its collective is in place. -/
def CollSlot.inPlace (c : CollSlot) : Bool :=
  let d := collDescr c.descr
  d.src == d.dst && (d.op == 3 || (d.op == 1 && c.myOrd == d.root))

/-- A started collective fails: the others are told, and the destination's content is undefined (free bytes), but for a member whose
collective is in place: its source is unchanged. -/
def State.failColl (s : State) (i cause : Nat) (tell : Bool) : State :=
  let c := s.coll i
  let d := collDescr c.descr
  let s := if tell then s.sendOrds c (otherOrds c) (collPacket c 5 0 cause 0xFFFF 0 []) else s
  let f := s.fresh
  let n := if c.inPlace then 0 else (collRegions d c.myOrd c.members.length).2
  let s := f.2.vaWrite d.dst 0 ((List.range n).map (Config.failedDst f.1))
  s.closeColl i 3 cause

/-- A packet of a collective was for a member without a rank record: it was refused at its source, and the collective fails with
cause 9 (R226, R257, R278). -/
def State.orBadRank (s : State) (i : Nat) (ords : List Nat) : State :=
  let c := s.coll i
  if c.state == 1 && ords.any (fun o => (s.rankDev (c.members.getD o 0)).isNone) then s.failColl i 9 true else s

/-! ### Chunks that leave (R279, R281) -/

/-- Chunks that are ready leave while fewer than 16 are unacknowledged, to receivers whose READY has come. -/
def State.pumpColl (s : State) (i : Nat) : Nat → State
  | 0 => s
  | n + 1 =>
    let c := s.coll i
    if c.state ≠ 1 ∨ 16 ≤ c.sent.length then s
    else match takeFirst (fun x : Nat × Nat × List Nat × List Byte => x.2.2.1.all (fun o => c.readyFrom.contains o)) c.toSend with
      | none => s
      | some (x, rest) =>
        let multi := x.1 == 13
        let p := collPacket c 1 x.1 0 (if multi then 0xFFFF else x.2.2.1.getD 0 0) x.2.1 x.2.2.2
        let c := { c with toSend := rest, sent := c.sent ++ [⟨x.1, x.2.1, x.2.2.2, x.2.2.1, []⟩] }
        let s := s.setColl i c
        let s := if multi then s.sendOrds c x.2.2.1 p else s.sendOrd c (x.2.2.1.getD 0 0) p
        (((s.count64 Reg.collChunksSent 1).collKib x.2.2.2.length).orBadRank i x.2.2.1).pumpColl i n

/-- A chunk becomes ready to send. -/
def State.queueChunk (s : State) (i phase chunk : Nat) (to' : List Nat) (bs : List Byte) : State :=
  let c := s.coll i
  if to' = [] ∨ c.state ≠ 1 then s else s.setColl i { c with toSend := c.toSend ++ [(phase, chunk, to', bs)] }

/-- Chunks a member receives in the whole collective (R274 to R276). -/
def collExpected (d : CollDescr) (me n : Nat) : Nat :=
  let k := chunksOf d.len
  let steps := (recvSteps me n).length * k
  match d.op with
  | 1 => if me = d.root then 0 else k
  | 2 => steps + (if me = d.root ∧ me ≠ 0 then k else 0)
  | 3 => steps + (if me ≠ 0 then k else 0)
  | 4 => steps + (if me ≠ 0 then chunksOf (d.len / n) else 0)
  | 5 => (n - 1) * k
  | _ => if me = d.root then (n - 1) * k else 0

/-- A collective with nothing left to receive, to send or to have acknowledged ends DONE. -/
def State.checkColl (s : State) (i : Nat) : State :=
  let c := s.coll i
  let d := collDescr c.descr
  if c.state = 1 ∧ c.toSend = [] ∧ c.sent = [] ∧ c.recvd.length = collExpected d c.myOrd c.members.length then s.closeColl i 2 0
  else s

/-- Chunks leave and the end is checked. -/
def State.goColl (s : State) (i : Nat) : State := (s.pumpColl i ((s.coll i).toSend.length)).checkColl i

/-! ### Chunks at their member -/

/-- Bytes of chunk k of n. -/
def chunkLen (n k : Nat) : Nat := min chunkBytes (n - k * chunkBytes)

/-- A chunk of an ALLREDUCE's result at this member: written, or held until the end where the collective is in place (R278). -/
def State.writeResult (s : State) (i off : Nat) (v : List Byte) : State :=
  let c := s.coll i
  if c.inPlace then s.setColl i { c with results := c.results ++ [(off, v)] } else s.vaWrite ((collDescr c.descr).dst + off) 0 v

/-- The reduced chunk of ordinal 0 goes where the operation sends it (R275, R276). -/
def State.resultChunk (s : State) (i k : Nat) (v : List Byte) : State :=
  let c := s.coll i
  let d := collDescr c.descr
  let n := c.members.length
  match d.op with
  | 2 => if d.root = 0 then s.vaWrite (d.dst + k * chunkBytes) 0 v else s.queueChunk i 12 k [d.root] v
  | 3 => (s.writeResult i (k * chunkBytes) v).queueChunk i 13 k (otherOrds c) v
  | _ =>
    let s := s.setColl i { c with partials := c.partials ++ [(16 * k + 15, v)] }
    let got := (s.coll i).partials
    if (List.range (chunksOf d.len)).all (fun j => (mapGet (16 * j + 15) got).isSome) then
      let all := (List.range (chunksOf d.len)).flatMap (fun j => mapGetD [] (16 * j + 15) got)
      let seg := d.len / n
      let s := s.vaWrite d.dst 0 (bytesAt all 0 seg)
      (List.range n).foldl (fun s o =>
        if o = 0 then s
        else (List.range (chunksOf seg)).foldl (fun s j =>
          s.queueChunk i 12 j [o] (bytesAt all (o * seg + j * chunkBytes) (chunkLen seg j))) s) s
    else s

/-- The partial of chunk k at this member, once every operand of its steps has passed its check: sent on, or the result. -/
def State.reduceChunk (s : State) (i k : Nat) : State :=
  let c := s.coll i
  let d := collDescr c.descr
  let steps := recvSteps c.myOrd c.members.length
  if c.state ≠ 1 ∨ !steps.all (fun t => (mapGet (16 * k + t) c.partials).isSome) then s
  else if s.vaBad (d.src + k * chunkBytes) (chunkLen d.len k) then s.failColl i 5 true
  else
    let own := s.vaRead (d.src + k * chunkBytes) (chunkLen d.len k)
    let v := steps.foldl (fun v t => redChunk d.red d.dtype v (mapGetD [] (16 * k + t) c.partials)) own
    if c.myOrd = 0 then s.resultChunk i k v
    else s.queueChunk i (sendStep c.myOrd) k [c.myOrd - 2 ^ sendStep c.myOrd] v

/-- What a member sends or does of its own at the start (R274, R276). -/
def State.beginColl (s : State) (i : Nat) : State :=
  let c := s.coll i
  let d := collDescr c.descr
  let ks := List.range (chunksOf d.len)
  let piece := fun (s : State) k => s.vaRead (d.src + k * chunkBytes) (chunkLen d.len k)
  match d.op with
  | 1 =>
    if c.myOrd = d.root then ks.foldl (fun s k =>
      let b := piece s k
      (if d.src = d.dst then s else s.vaWrite (d.dst + k * chunkBytes) 0 b).queueChunk i 13 k (otherOrds c) b) s
    else s
  | 5 => ks.foldl (fun s k =>
      let b := piece s k
      (s.vaWrite (d.dst + c.myOrd * d.len + k * chunkBytes) 0 b).queueChunk i 13 k (otherOrds c) b) s
  | 6 =>
    if c.myOrd = d.root ∧ s.vaBad d.dst d.len then s.failColl i 5 true
    else ks.foldl (fun s k =>
      let b := piece s k
      if c.myOrd = d.root then (s.vaWrite (d.dst + k * chunkBytes) d.dtype b).count Reg.addIntoChunks 1
      else s.queueChunk i 14 k [d.root] b) s
  | _ => ks.foldl (fun s k => s.reduceChunk i k) s

/-- The ordinals a member receives from (R274 to R276, R279). -/
def recvFrom (d : CollDescr) (me n : Nat) : List Nat :=
  let steps := (recvSteps me n).map (fun k => me + 2 ^ k)
  match d.op with
  | 1 => if me = d.root then [] else [d.root]
  | 2 => steps ++ (if me = d.root ∧ me ≠ 0 then [0] else [])
  | 3 => steps ++ (if me ≠ 0 then [0] else [])
  | 4 => steps ++ (if me ≠ 0 then [0] else [])
  | 5 => (List.range n).filter (fun o => o != me)
  | _ => if me = d.root then (List.range n).filter (fun o => o != me) else []

/-- A READY of a collective in flight (R279): compared with the member's own descriptor. -/
def State.readyAt (s : State) (i : Nat) (p : CollPacket) : State :=
  let c := s.coll i
  if p.data.take 16 ≠ c.descr.take 16 then s.failColl i 12 true
  else (s.setColl i { c with readyFrom := if c.readyFrom.contains p.srcOrd then c.readyFrom else c.readyFrom ++ [p.srcOrd] }).goColl i

/-- The mover of the core that started a collective waits for it: for its farthest member (R277, R282). -/
def State.holdMover (s : State) (i core : Nat) (rep : Option Nat) : State :=
  let c := s.coll i
  let r : RmReq := { tag := 65536 + i, opc := 0, dtype := 0, rank := s.farthest c.members, jva := (collDescr c.descr).dst, len := 0,
                     dst := 0, cache := false, dropped := false, errCtr := s.mvErrCtr core, far := none, place := none, data := [],
                     mine := true, rep := rep, issued := s.time.hallTime }
  s.updCore core (fun x => { x with rmOut := x.rmOut ++ [r] })

/-- The READYs that a member owes (R279), and those that came before its start. -/
def State.exchangeReady (s : State) (i : Nat) : State :=
  let c := s.coll i
  let d := collDescr c.descr
  let ready := { collPacket c 2 0 0 0 0 (c.descr.take 16) with crc := 0 }
  let from' := recvFrom d c.myOrd c.members.length
  let s := (from'.foldl (fun s o => s.sendOrd c o { ready with dstOrd := o }) s).orBadRank i from'
  let mine := fun p : CollPacket => p.group == c.group && p.seqNo == c.seqNo
  let early := s.rmem.early.filter mine
  let s := { s with rmem := { s.rmem with early := s.rmem.early.filter (fun p => !mine p) } }
  if (s.coll i).state ≠ 1 then s
  else
    early.foldl (fun s p => match s.collSlotOf c.group c.seqNo with
      | some j => s.readyAt j p
      | none => s) ((s.beginColl i).goColl i)

/-- A collective starts (R277, R279): its slot, the READYs it owes, its own chunks, and the READYs that came early. -/
def State.startColl (s : State) (b : List Byte) (core : Option (Nat × Option Nat)) : State :=
  let d := collDescr b
  let ms := s.collMembers d.group
  let me := (ms.idxOf? s.myRank).getD 0
  match s.newCollSlot with
  | none => s
  | some i =>
    let c : CollSlot := { CollSlot.empty with state := 1, group := d.group, seqNo := d.seqNo, descr := b, members := ms,
                                              myOrd := me, slotCore := core.map (fun k => k.1), startAt := s.time.hallTime }
    let s := (s.setColl i c).count Reg.collStarted 1
    let s := match core with
      | none => s
      | some k => s.holdMover i k.1 k.2
    if d.len = 0 then s.closeColl i 2 0
    else if s.vaBad d.src (collRegions d me ms.length).1 then s.failColl i 5 true
    else s.exchangeReady i

/-- A write of COLL_START (R277). -/
def State.writeCollStart (s : State) (b : List Byte) : Result :=
  let c := s.collCheck b
  if c.1 ≠ 0 then (c.2, s) else (0, s.startColl b none)

/-- A mover slot that starts a collective with a descriptor of its scratchpad (R277): it completes when the collective ends, and a
failed start is handled as R258 states. -/
def State.slotCollStart (s : State) (core : Nat) (place : Addr) : State :=
  if !s.coreOn core then s
  else
    let b := (s.core core).spRead ((s.core core).addr .mv place) 64
    let c := s.collCheck b
    let q := s.beginRepeat core
    let s := q.2.mvBusy 1
    if c.1 ≠ 0 then
      let f := s.fresh
      let x := Config.collFault f.1
      (f.2.rmError core c.1 (x.1 % 16) (x.2.1 % 65536) (x.2.2 % 2 ^ 64) (s.mvErrCtr core)).settleRepeat core q.1
    else s.startColl b (some (core, q.1))

/-! ### Arrivals -/

/-- The collective of a packet that is in flight here. -/
def State.withColl (s : State) (p : CollPacket) (f : State → Nat → State) : State :=
  let s := s.takeLanding (.coll p)
  match s.collSlotOf p.group p.seqNo with
  | some i => f s i
  | none => s

/-- READY (R279): one that comes before this member's own start waits for it. -/
def execReady (p : CollPacket) (s : State) : Host.Outcome State Fault Refusal :=
  .next (
    if (s.collSlotOf p.group p.seqNo).isSome then s.withColl p (fun s i => s.readyAt i p)
    else
      let s := s.takeLanding (.coll p)
      { s with rmem := { s.rmem with early := s.rmem.early ++ [p] } })

/-- A chunk that passed its check is used (R274 to R276). -/
def State.useChunk (s : State) (i : Nat) (p : CollPacket) : State :=
  let c := s.coll i
  let d := collDescr c.descr
  if p.phase < 12 then
    let k := 16 * p.chunk + p.phase
    (s.setColl i { c with partials := mapSet k p.data c.partials }).reduceChunk i p.chunk
  else if p.phase = 14 then
    if s.vaBad (d.dst + p.chunk * chunkBytes) p.data.length then s.failColl i 5 true
    else (s.vaWrite (d.dst + p.chunk * chunkBytes) d.dtype p.data).count Reg.addIntoChunks 1
  else if d.op = 3 then s.writeResult i (p.chunk * chunkBytes) p.data
  else s.vaWrite (d.dst + (if d.op = 5 then p.srcOrd * d.len else 0) + p.chunk * chunkBytes) 0 p.data

/-- DATA (R281): the CRC is checked before the payload is used; ACK, RESEND, or the end of the collective with cause 11. -/
def execData (p : CollPacket) (s : State) : Host.Outcome State Fault Refusal :=
  .next (s.withColl p (fun s i =>
    let c := s.coll i
    let key := (p.phase, p.srcOrd, p.chunk)
    let answer := fun (s : State) (kind : Nat) =>
      (s.sendOrd c p.srcOrd (collPacket c kind p.phase 0 p.srcOrd p.chunk [])).orBadRank i [p.srcOrd]
    if crc32c p.data ≠ p.crc ∨ chunkBytes < p.data.length then
      let s := s.count Reg.collCrcFails 1
      if c.resent.contains key then s.failColl i 11 true
      else answer (s.setColl i { c with resent := c.resent ++ [key] }) 4
    else if c.recvd.contains key then answer s 3
    else
      let s := answer (s.setColl i { c with recvd := c.recvd ++ [key], done := c.done + 1 }) 3
      let s := if (s.coll i).state = 1 then s.useChunk i p else s
      match s.collSlotOf p.group p.seqNo with
      | some j => s.goColl j
      | none => s))

/-- ACK of a chunk (R281): a chunk that every receiver has acknowledged is no longer kept. -/
def execCollAck (p : CollPacket) (s : State) : Host.Outcome State Fault Refusal :=
  .next (s.withColl p (fun s i =>
    let c := s.coll i
    let sent := c.sent.map (fun (x : SentChunk) =>
      if x.phase == p.phase && x.chunk == p.chunk then { x with waiting := x.waiting.erase p.srcOrd } else x)
    (s.setColl i { c with sent := sent.filter (fun x => x.waiting != []) }).goColl i))

/-- RESEND (R281): the chunk is sent again, to that receiver alone. -/
def execResend (p : CollPacket) (s : State) : Host.Outcome State Fault Refusal :=
  .next (s.withColl p (fun s i =>
    let c := s.coll i
    match c.sent.find? (fun x => x.phase == p.phase && x.chunk == p.chunk && x.waiting.contains p.srcOrd) with
    | none => s
    | some x =>
      let s := s.sendOrd c p.srcOrd (collPacket c 1 x.phase 0 p.srcOrd x.chunk x.data)
      ((s.count Reg.collResends 1).count64 Reg.collChunksSent 1).collKib x.data.length))

/-- ABORT (R278): another member failed the collective. -/
def execAbort (p : CollPacket) (s : State) : Host.Outcome State Fault Refusal :=
  .next (s.withColl p (fun s i => s.failColl i 13 false))

/-- COLL_TIMEOUT (R279): a collective has not ended within COLL_TIMEOUT of its local start; hall time moves on to that moment. -/
def execCollTimeout (group seqNo : Nat) (s : State) : Host.Outcome State Fault Refusal :=
  .next (match s.collSlotOf group seqNo with
    | some i => (s.advanceTo ((s.coll i).startAt + s.reg Reg.collTimeout)).failColl i 7 true
    | none => s)

end Sys2Proof.Machine
end

