-- ==== Sys2Proof/Machine/Errors.lean ====
section
/-! DEFINITION. Errors found outside a command's own work: undeliverable notices and truncated packets (R112, R234, R474),
uncorrectable SRAM words and HBM lines (R286, R294, R315, R431 to R436), image loads (R119), the flash translation layer
(R58, R299), far ports (R302, R303) and DRAM refresh (R57). -/

namespace Sys2Proof.Machine

open Sys2Proof

/-! ### Notices and truncated packets -/

/-- The collective a packet belongs to fails with UNDELIVERABLE (R278). -/
def State.collLost (s : State) (p : CollPacket) : State :=
  match s.collSlotOf p.group p.seqNo with
  | some i => if (s.coll i).state = 1 then s.failColl i 8 true else s
  | none => s

/-- The remote request a packet belongs to ends with UNDELIVERABLE at its requester (R257, R258). -/
def State.rmLost (s : State) (tag : Nat) : State :=
  match s.rmReqOf (tagCore tag) tag with
  | some r => s.failRm (tagCore tag) r 8
  | none => s

/-- A combined request or response is lost: each request merged in its record is answered with a NAK of cause 8, as a NAK of its
home would be copied (R257, R265, assumption 139). -/
def State.combinedLost (s : State) (p : RmPacket) : State :=
  s.copyOut { p with opc := 6, cause := 8, srcRank := s.myRank, combined := true, data := [] }

/-- What the source of an undelivered packet does next (R112, R234), from the copy of the packet's first bytes: the choices of a
Manifest enter and settle as lost_fault, a request and a collective end; for any other packet it does nothing further. -/
def State.undelivered (s : State) (copy : List Byte) : State :=
  let route := RouteHdr.ofBytes copy
  let body := copiedBody copy
  let beat := BeatHdr.ofBytes body
  let rm := RmPacket.ofBytes body
  if physDev route.src ≠ s.here then s
  else if route.cls ≤ 1 then
    if beat.kind = 3 then
      let n := headerCount body
      (List.range n).foldl (fun s _ => s.settle Reg.lostFault) (s.enterLedger n)
    else s
  else if route.cls = 4 then s.collLost (CollPacket.ofBytes body)
  else if route.cls ≤ 3 ∧ 1 ≤ rm.opc ∧ rm.opc ≤ 3 then
    if rm.combined then s.combinedLost rm else s.rmLost rm.tag
  else s

/-- UNDELIVERABLE_NOTICE_ARRIVAL (R112, R234, R472). -/
def execUndeliverableNoticeArrival (cause : Nat) (copy : List Byte) (s : State) : Host.Outcome State Fault Refusal :=
  .next ((s.takeLanding (.mgmt (.undeliverable cause copy))).undelivered copy)

/-- A truncated beat-class packet (R474): its chains and its requests for chains go to the Siding. -/
def State.truncated (s : State) (p : BeatPacket) : State :=
  let s := (List.range 16).foldl (fun s k =>
    s.setPool k { s.pool k with waiting := (s.pool k).waiting.filter (fun r => r.pkt != p) }) s
  let s := { s with pools := { s.pools with stripes := s.pools.stripes.filter (fun x => x.pkt != p) } }
  (s.clearFailed p).siding p

/-- TRUNCATED_PACKET_ARRIVAL (R474): the destination discards it; a remote-memory response or a collective packet ends its
request with cause 8. -/
def execTruncatedPacketArrival (p : Packet) (s : State) : Host.Outcome State Fault Refusal :=
  let s := s.takeLanding p.body
  .next (match p.body with
    | .beat q => s.truncated q
    | .rm q => if q.opc < 4 ∨ 6 < q.opc then s else if q.combined then s.combinedLost q else s.rmLost q.tag
    | .coll q => s.collLost q
    | .mgmt _ => s)

/-! ### Uncorrectable SRAM words (R435, R436) -/

/-- An uncorrectable word, counted once, and its class 3 report (R432, R435). -/
def State.sramUe (s : State) (unit cause : Nat) : State := (s.count Reg.sramUe 1).tenantFault unit cause

/-- Whether a chain is the one an error in a cell pool names. -/
def chainNamed (cluster tag lane position choice kind : Nat) (c : Chain) : Bool :=
  c.cluster == cluster && c.pkt.hdr.kind == kind && c.pkt.hdr.batchTag == tag && c.pkt.hdr.lane == lane &&
    c.pkt.hdr.position == position &&
    (if kind = 2 ∨ kind = 4 then returnChoice c.pkt == choice
     else if kind = 1 then c.pkt.entries.any (fun e => e.choice == choice) else true)

/-- A poisoned word in a chain spoils its packet (R436): a Consist's choices in that cluster are not run, an answer or
refusal counts as absent, a Manifest's choices settle when it combines. -/
def State.spoilChains (s : State) (named : Chain → Bool) : State :=
  let hit := s.pools.chains.filter named
  let pools := { s.pools with chains := s.pools.chains.map (fun c => if named c then { c with bad := true } else c) }
  let spoil := fun (h : Held) => if hit.any (fun c => c.pkt == h.pkt) then { h with bad := true } else h
  let s := { s with
    pools := pools,
    combine := { s.combine with manifests := s.combine.manifests.map spoil,
                                answers := s.combine.answers.map spoil,
                                refusals := s.combine.refusals.map spoil } }
  let mark := fun (p : Nat) (q : QueuedChoice) =>
    if hit.any (fun c => s.platCluster p == some c.cluster && inConsist c.pkt q) then { q with spoiled := true } else q
  let qs := s.platforms.queues.map (fun (e : Nat × List QueuedChoice) => (e.1, e.2.map (mark e.1)))
  { s with platforms := { s.platforms with queues := qs } }

/-- A packet in a Junction buffer is discarded under R234. -/
def State.discardBuffered (s : State) (p : Packet) : State :=
  let j := s.fabric
  let hit := j.inject.contains p || j.landing.contains p || j.held.contains p ||
    j.ports.any (fun (e : Nat × Port) => e.2.queue.any (fun x => x.2 == p))
  if hit then (s.dropPackets (fun x => x == p)).discardPacket p 1 else s

/-- Whether a word of Timetable memory lies in a segment that is FILLING and past the words appended so far: the write that
appends it clears its poison before it is read (R120, R202, R435). -/
def State.unwritten (s : State) (c b w : Nat) : Bool :=
  let n := if s.beatNow % 2 = b % 2 then s.beatNow else s.beatNow - 1
  decide (2 ≤ b) && ((s.core c).seg b).state == 1 && decide ((s.segmentWords c n).length ≤ w)

/-- A word found uncorrectable in a store: poisoned, counted by its first finder, and reported by its store's row. -/
def State.sramError (s : State) (st : SramStore) : State :=
  match st with
  | .scratchpad c w =>
    if !s.coreOn c ∨ (s.core c).scratchBad.contains w then s
    else (s.updCore c (fun k => { k with scratchBad := k.scratchBad ++ [w] })).sramUe c 1
  | .accStore c e =>
    if !s.coreOn c ∨ (s.core c).accBad.contains e then s
    else (s.updCore c (fun k => { k with accBad := k.accBad ++ [e] })).sramUe c 2
  | .timetable c b w =>
    if !s.coreOn c ∨ (s.core c).ttBad.contains (b, w) then s
    else (if s.unwritten c b w then s else s.updCore c (fun k => { k with ttBad := k.ttBad ++ [(b, w)] })).sramUe c 3
  | .yardTable k l r =>
    if s.tiers.tableBad.contains (k, l, r) then s
    else ({ s with tiers := { s.tiers with tableBad := s.tiers.tableBad ++ [(k, l, r)] } }).sramUe (128 + k) 4
  | .softArea k w =>
    if s.tiers.sharedBad.contains (k, w) then s
    else ({ s with tiers := { s.tiers with sharedBad := s.tiers.sharedBad ++ [(k, w)] } }).sramUe (128 + k) 5
  | .cellPool k tag lane position choice kind =>
    (s.count Reg.sramUe 1).spoilChains (chainNamed k tag lane position choice kind)
  | .linkTable k =>
    if (s.pool k).linkBad then s else (s.setPool k { s.pool k with linkBad := true }).count Reg.sramUe 1
  | .lineCache rank jva => (s.dropCopies rank jva 64).count Reg.sramUe 1
  | .junctionBuffer p => (s.count Reg.sramUe 1).discardBuffered p
  | .deviceTable => (s.count Reg.sramUe 1).deviceFatal 5

/-- SRAM_UE_DETECT (R286, R435, R436): a read of a word finds an error. One that the code corrects is counted, and the read
delivers the word; the row of an uncorrectable one is its store's. -/
def execSramUeDetect (store : SramStore) (corrected : Bool) (s : State) : Host.Outcome State Fault Refusal :=
  .next (if corrected then s.count Reg.sramCe 1 else s.sramError store)

/-! ### Uncorrectable HBM lines (R294, R295, R315) -/

/-- The replicas of enabled Platform slots that run from the fast tier and cover a line: their slot numbers. -/
def State.replicasOn (s : State) (line : Nat) : List Nat :=
  (s.platforms.images.filter (fun (e : Nat × ImageSlot) =>
    e.2.state == 2 && e.2.cls == 1 &&
      (match s.imageOf s.tenantNow e.2.imageId with
       | some i => (s.vaPieces e.2.place i.body.length).any (fun p => (linesOf p.1 p.2.2).contains line)
       | none => false))).map (fun e => e.1)

/-- The choices whose work read a line of a replica are not answered (R315). -/
def State.spoilSlot (s : State) (p : Nat) : State :=
  s.setQueueOf p ((s.queueOf p).map (fun q => if s.age q.beat = 0 then { q with spoiled := true } else q))

/-- The users whose KV frames cover a line. -/
def State.kvReader (s : State) (line : Nat) (tag lane : Nat) : Bool :=
  s.tiers.kv.any (fun u => u.tag == tag && u.lane == lane && u.tenant == s.tenantNow &&
    u.frames.any (fun a => homeTier a == 1 && homeBase a / 64 ≤ line && line < homeBase a / 64 + 32768))

/-- HBM_UE_DETECT (R294, R295, R315, R433): a read of a line finds an error. A corrected read is counted. An uncorrectable line is
poisoned and counted; a line of the device's own frames 0 to 511 is device-fatal; attention's reader ends its request with cause 1;
a replica's choices are not answered. -/
def execHbmUeDetect (line : Nat) (patrol corrected : Bool) (reader : Option (Nat × Nat)) (s : State) :
    Host.Outcome State Fault Refusal :=
  .next (
    if 6442450944 ≤ line then s
    else if corrected then s.count64 Reg.hbmCe 1
    else
      let s := if s.tiers.hbmBad.contains line then s
        else
          let s := ({ s with tiers := { s.tiers with hbmBad := s.tiers.hbmBad ++ [line] } }).count Reg.hbmUe 1
          let s := if patrol then s.count Reg.hbmPoisoned 1 else s
          if line < 16777216 then s.deviceFatal 5 else s
      let s := if patrol then s else (s.replicasOn line).foldl State.spoilSlot s
      match reader with
      | none => s
      | some (tag, lane) =>
        if !s.kvReader line tag lane then s
        else match s.combine.residuals.find? (fun r => r.tok.tag == tag && r.tok.lane == lane) with
          | some r => s.endRequest r.tok 1
          | none => s)

/-- The part of a replica that lies in one frame is written again from its sealed image: the lines it fills, and the last one also
where the body ends within it (R315). -/
def State.rewritePiece (s : State) (body : List Byte) (x : Nat × Nat × Nat) : State :=
  let s := s.hbmWrite x.1 (bytesAt body x.2.1 x.2.2)
  { s with tiers := { s.tiers with hbmBad := s.tiers.hbmBad.filter (fun l => !(linesOf x.1 x.2.2).contains l) } }

/-- The frames of replicas in which an uncorrectable error has spoiled a line are rewritten from their sealed images in background
time (R315). -/
def State.repairReplicas (s : State) : State :=
  s.tiers.hbmBad.foldl (fun s line =>
    (s.replicasOn line).foldl (fun s p =>
      let sl := s.imageSlot p
      match s.imageOf s.tenantNow sl.imageId with
      | none => s
      | some i =>
        let here := (s.vaPieces sl.place i.body.length).filter (fun x => (linesOf x.1 x.2.2).contains line)
        here.foldl (fun s x => s.rewritePiece i.body x) s) s) s

/-! ### Image loads (R119) -/

/-- A loaded body stands at its place: the scratchpad of the slot's core, or the job's memory. -/
def State.placeImage (s : State) (p : Nat) (sl : ImageSlot) (body : List Byte) : State :=
  if sl.cls = 0 then s.updCore (s.plat p).core (fun k => k.spWrite sl.place (body.take (scratchBytes - sl.place)))
  else s.vaWrite sl.place 0 body

/-- A stored image is read from flash: whether every page gave its data, and the state with the reads and an unreadable page
counted (R299, R315). -/
def State.readImage (s : State) (i : Image) (readOk : Bool) : Bool × State :=
  let bad := i.extents.any (fun a => s.homeBad a 0 extentBytes)
  let s := i.extents.foldl (fun s a => s.countReads a 0 extentBytes) s
  (readOk && !bad, if bad then s.count Reg.flashUe 1 else if !readOk then s.unreadable (i.extents.headD 0) else s)

/-- IMAGE_LOAD_DONE (R119, R315): READY when the flash read held and the digest matches the sealed record, else FAILED. -/
def execImageLoadDone (pslot : Nat) (readOk : Bool) (s : State) : Host.Outcome State Fault Refusal :=
  .next (
    let sl := s.imageSlot pslot
    if sl.state ≠ 1 then s
    else match s.imageOf s.tenantNow sl.imageId with
      | none => (s.setImageSlot pslot { sl with state := 3 }).count Reg.loadFails 1
      | some i =>
        let f := s.readImage i readOk
        if f.1 ∧ sha3 i.body = i.digest then (f.2.placeImage pslot sl i.body).setImageSlot pslot { sl with state := 2 }
        else (f.2.setImageSlot pslot { sl with state := 3 }).count Reg.loadFails 1)

/-! ### The flash translation layer (R58, R299) -/

/-- A relocated block: counted, its reads start again, and its old place is erased. -/
def State.relocated (s : State) (stack block : Nat) : State :=
  let k := stack * stackBlocks + block
  let t := s.tiers.erase k
  ({ s with tiers := { t with reads := mapSet k 0 t.reads, deferred := mapSet stack 0 t.deferred } }).count Reg.flashReloc 1

/-- The blocks of a stack whose reads have reached READ_RELOCATE. -/
def State.blocksDue (s : State) (stack : Nat) : List Nat :=
  (s.tiers.reads.filter (fun (e : Nat × Nat) => e.1 / stackBlocks == stack && decide (s.reg Reg.readRelocate ≤ e.2))).map
    (fun e => e.1 % stackBlocks)

/-- READ_DISTURB_RELOCATE (R299): a block whose reads have reached READ_RELOCATE is relocated. -/
def execReadDisturbRelocate (stack block : Nat) (s : State) : Host.Outcome State Fault Refusal :=
  .next (
    if 4 ≤ stack ∨ 131072 ≤ block ∨ mapGetD 0 (stack * stackBlocks + block) s.tiers.reads < s.reg Reg.readRelocate then s
    else s.relocated stack block)

/-- FORCED_RELOCATION (R58, R299): a relocation that a stack has deferred for 10,000 consecutive beats holds one channel of
the stack and moves a block of it that is due. -/
def execForcedRelocation (stack channel : Nat) (s : State) : Host.Outcome State Fault Refusal :=
  .next (
    if 4 ≤ stack ∨ 16 ≤ channel ∨ mapGetD 0 stack s.tiers.deferred < 10000 then s
    else match (s.blocksDue stack).find? (fun b => b / 8192 == channel) with
      | none => s
      | some b =>
        (({ s with tiers := { s.tiers with forced := mapSet stack channel s.tiers.forced } }).count Reg.flashForced 1).relocated
          stack b)

/-- BLOCK_RETIRE (R299): a block that fails is replaced from the spares; its data is not lost. -/
def execBlockRetire (stack block spare : Nat) (s : State) : Host.Outcome State Fault Refusal :=
  .next (
    if 4 ≤ stack ∨ 131072 ≤ block then s
    else { s with tiers := { s.tiers with retired := mapSet (stack * stackBlocks + block) spare s.tiers.retired } })

/-! ### Far ports and refresh -/

/-- Every outstanding far-tier request of a port ends with cause 7 (R303). -/
def State.farDown (s : State) (port : Nat) : State :=
  s.cores.foldl (fun s (e : Nat × Core) =>
    (e.2.rmOut.filter (fun r => r.far == some port)).foldl (fun s r => s.failRm e.1 r 7) s) s

/-- CXL_PORT_DOWN (R302, R303, R315): the port reads DOWN, its requests end with cause 7 and its moves fail. -/
def execCxlPortDown (port : Nat) (s : State) : Host.Outcome State Fault Refusal :=
  .next (
    if s.cxl port < 2 then s
    else
      let s := ({ s with tiers := { s.tiers with cxlState := mapSet port 1 s.tiers.cxlState } }).farDown port
      let on := fun (a : Nat) => homeTier a == 3 && homePort a == port
      let gone := s.tiers.homes.filter (fun h => match h.moving with
        | some d => on h.addr || on d
        | none => false)
      (gone.foldl (fun s h => s.finishMove h (h.moving.getD 0) 7) s).pumpHomes)

/-- CXL_PORT_RETRAIN (R302, R303): a DOWN port is UP at full speed and width, or DEGRADED. -/
def execCxlPortRetrain (port : Nat) (full : Bool) (s : State) : Host.Outcome State Fault Refusal :=
  .next (
    if s.cxl port ≠ 1 then s
    else { s with tiers := { s.tiers with cxlState := mapSet port (if full then 2 else 3) s.tiers.cxlState } })

/-- DRAM_REFRESH (R57): the controller of a channel issues a refresh. A foreground access that it delays past its tick is
an overrun with cause 6 of that tick. -/
def execDramRefresh (channel : Nat) (_foreground : Bool) (s : State) : Host.Outcome State Fault Refusal :=
  .next (
    if 256 ≤ channel then s
    else { s with tiers := { s.tiers with refreshDue := mapSet channel (mapGetD 0 channel s.tiers.refreshDue + 1) s.tiers.refreshDue } })

end Sys2Proof.Machine
end

