-- ==== Sys2Proof/Machine/Access.lean ====
section
/-! DEFINITION. Who may reach which object when (R6, R10, R335, R372, R385, R394, R424, R434, R449), and the answer to a
dictionary command that arrives outside a session. -/

namespace Sys2Proof.Machine

open Sys2Proof

/-- The row of an object, with the U8 CONST of sub-index 0 of an index whose objects start at 1 (R370). -/
def rowOf (index sub : Nat) : Option ObjRow :=
  match findRow index sub with
  | some r => some r
  | none =>
    match highestSub index with
    | none => none
    | some n =>
      if sub = 0 then some ⟨index, index, 0, 0, .u8, .fixed, [.op, .mgr, .ten, .brd], n, false, false, 0, false, 1, false, .none, false⟩
      else none

/-- BOOT_STAGE. -/
def isBootStage (index sub : Nat) : Bool := index == 0x1004 && sub == 1

/-- Whether the dictionary answers a role at an object in the running boot stage (R385, R424, R449). -/
def State.answers (s : State) (r : Role) (index sub : Nat) : Bool :=
  match s.reg Reg.bootStage with
  | 0xE0 => isBootStage index sub
  | 0xE1 => r == .op && decide (0x1000 ≤ index) && (decide (index < 0x1014) || (index == 0x1014 && decide (sub ≤ 6)))
  | 0xE2 => r == .op || r == .brd
  | 0xE3 => r == .op || r == .brd
  | n => decide (6 ≤ n)

/-- A per-core object of a disabled core (R6). -/
def State.coreAbsent (s : State) (index : Nat) : Bool :=
  decide (0x4000 ≤ index) && decide (index < 0x4080) && !s.coreOn (index - 0x4000)

/-- The slot the tenant block is bound to runs (R335, R378). -/
def State.tenantOpen (s : State) : Bool := s.reg Reg.sessionBind == s.slotNow && s.slotNow != 0xFF

/-- Reads a tenant may make while its slot does not run (R335). -/
def tenantAlways (index sub : Nat) : Bool :=
  (index == 0x2200 && sub == 2) || (index == 0x2210 && sub == 1) || (index == 0x2220 && sub == 1)

/-- Whether a role may read or write an object (R10, R372): TENANT_REG is also read by M and T (R350). -/
def roleMay (row : ObjRow) (r : Role) (write : Bool) : Bool :=
  if write then (row.access == .rw || row.access == .wo) && row.roles.contains r
  else row.access != .wo && (row.roles.contains r || (row.index == 0x2200 && row.sub == 2 && r != .brd))

/-- The checks on address, boot stage, tenant slot, access and role of one access: its abort code, 0 where it may go on. -/
def State.accessCode (s : State) (r : Role) (index sub : Nat) (write : Bool) : Nat :=
  firstFail [
    (!s.answers r index sub, abortCode 7 0xA2),
    (!indexExists index, abortCode 1 0xA0),
    ((rowOf index sub).isNone, abortCode 1 0xA1),
    (s.coreAbsent index, abortCode 1 0),
    (r == .ten && !s.tenantOpen && (write || !tenantAlways index sub), abortCode 7 0x80),
    (match rowOf index sub with
     | some row => !roleMay row r write
     | none => true, abortCode 2 0)]

/-- A refusal of R335 is counted. -/
def State.countRefusal (s : State) (code : Nat) : State := if code = abortCode 7 0x80 then s.count Reg.sessionRefused 1 else s

/-- A role's last abort code takes a write's result (R393); 0 is a success and leaves it. -/
def answer (r : Role) (x : Result) : State :=
  if x.1 = 0 then x.2 else (x.2.setReg (Reg.lastAbort (roleNum r + 1)) x.1)

/-- A write of object k by a role: the checks of R374 on address, access and role, then what the object does. After
device-fatal cause 6 no dictionary access has an effect (R434). -/
def State.command (s : State) (r : Role) (k : Nat) (f : State → Result) : State :=
  if s.manager.mgmtDead then s
  else
    let code := s.accessCode r (keyIndex k) (keySub k) true
    if code = 0 then answer r (f s) else answer r (code, s.countRefusal code)

end Sys2Proof.Machine
end

