-- ==== Sys2Proof/Machine/Loader.lean ====
section
/-! DEFINITION. The Baori loader: the checks of R207 on a loader object and the static banks of a core (R199 to R208). -/

namespace Sys2Proof.Machine

open Sys2Proof

/-- The fields of a loader object's header (R206). -/
structure LoaderHdr where
  magic    : Nat
  format   : Nat
  kind     : Nat
  member   : Nat
  stepping : Nat
  bodyLen  : Nat
  words    : Nat
  crc      : Nat
  digest   : List Byte
  rsvd     : Bool
deriving DecidableEq, Repr, Inhabited

/-- The header of a loader object. -/
def loaderHdr (b : List Byte) : LoaderHdr :=
  { magic := natAt b 0 4, format := natAt b 4 2, kind := natAt b 6 1, member := natAt b 7 1, stepping := natAt b 8 2,
    bodyLen := natAt b 12 4, words := natAt b 16 2, crc := natAt b 20 4, digest := bytesAt b 24 32,
    rsvd := natAt b 10 2 != 0 || natAt b 18 2 != 0 || natAt b 56 8 != 0 }

/-! ### Limits and names (R203, R204) -/

/-- A signed 32-bit step. -/
def step32 (v : Int) : Bool := decide (-2147483648 ≤ v) && decide (v ≤ 2147483647)

/-- An operand within the extents and steps of R204. -/
def operandFits (o : Operand) : Bool :=
  decide (1 ≤ o.e0) && decide (o.e0 ≤ 65536) && decide (1 ≤ o.e1) && decide (o.e1 ≤ 65536) && step32 o.s0 && step32 o.s1 &&
    step32 o.s2 && step32 o.postInc

/-- A repeat count within the limits of R204. -/
def repeatFits : RepeatSrc → Bool
  | .imm n => decide (1 ≤ n) && decide (n ≤ 65536)
  | .ctr _ => true

/-- A signal line a list can reach (R204). -/
def lineFits : LineRef → Bool
  | .cluster n => decide (n < 256)
  | .die n => decide (n < 1024)

/-- The line a SYNC operation names. -/
def syncLine : SyncOp → Option LineRef
  | .raise l _ => some l
  | .wait l => some l
  | .barrier l _ => some l
  | _ => none

/-- A word within the limits of R204: 16 B to 256 B in units of 16 B, at most one slot of each engine. -/
def wordFits (w : TWord) : Bool :=
  decide (16 ≤ w.bytes) && decide (w.bytes ≤ 256) && w.bytes % 16 == 0 &&
    allEngines.all (fun e => decide ((w.slots.filter (fun x => x.engine == e)).length ≤ 1)) &&
    w.slots.all (fun x => repeatFits x.rep && x.operands.all operandFits) &&
    (match w.sync with
     | some op => (match syncLine op with
       | some l => lineFits l
       | none => true)
     | none => true)

/-- A seal line (R198). -/
def isSealLine : LineRef → Bool
  | .cluster n => decide (248 ≤ n) && decide (n ≤ 255)
  | .die _ => false

/-- Whether a SYNC operation raises a seal line, which only the runtime may do. -/
def raisesSeal : SyncOp → Bool
  | .raise l _ => isSealLine l
  | .barrier l _ => isSealLine l
  | _ => false

/-- Whether a counter exists. -/
def ctrOk : RepeatSrc → Bool
  | .imm _ => true
  | .ctr i => decide (i < 8)

/-- Whether a comparator setting names counters that exist. -/
def settingOk (c : CmpSetting) : Bool := decide (c.ctr < 8) && ctrOk c.rhs

/-- Whether an optional number lies below a bound. -/
def optBelow (n : Nat) : Option Nat → Bool
  | none => true
  | some i => decide (i < n)

/-- Whether every register, counter and comparator a word names exists (R207). -/
def namesOk (w : TWord) : Bool :=
  w.slots.all (fun x => ctrOk x.rep && optBelow 4 x.gate && optBelow 8 x.inc && optBelow 8 x.errCtr &&
    x.operands.all (fun o => decide (o.reg < 16))) &&
    (match w.sync with
     | some (.hold cp) => decide (cp < 4)
     | some (.config cp c) => decide (cp < 4) && settingOk c
     | _ => true)

/-- Whether a word raises a seal line. -/
def wordSeals (w : TWord) : Bool :=
  match w.sync with
  | some op => raisesSeal op
  | none => false

/-- The places of SPLICE in a list. -/
def splicesAt (ws : List TWord) : List Nat :=
  (List.range ws.length).filter (fun i => (ws.getD i ⟨none, [], 16⟩).sync == some .splice)

/-- R203: the word before a SPLICE waits on the core's own seal line. That a list holds one SPLICE is a limit of R204. -/
def spliceOk (core : Nat) (ws : List TWord) : Bool :=
  (splicesAt ws).all (fun i => i != 0 &&
    (ws.getD (i - 1) ⟨none, [], 16⟩).sync == some (.wait (.cluster (248 + core % 8))))

/-! ### The checks of R207 -/

/-- Every operand pair of a body's work is one the AE accepts, and on the SE one it accepts (R142, R175). -/
def pairsOk (w : Config.Work) : Bool :=
  w.pairs.all (fun p => if p.onSe then sePairOk p.wfmt p.afmt else (pairClass p.wfmt p.afmt).isSome)

/-- Every Turntable descriptor's vector is a multiple of its blocks (R158). -/
def quantsOk (w : Config.Work) : Bool := w.quants.all (fun q => quantFits q.n q.rot q.fmt)

/-- Every BASE lies in its range (R148). -/
def basesOk (w : Config.Work) : Bool := w.bases.all baseFits

/-- Every core that a placement names is enabled (R6). -/
def State.coresOk (s : State) (w : Config.Work) : Bool := w.cores.all s.coreOn

/-- The stored images that the live PLATFORM_RES names, by Platform slot (R207). -/
def State.namedImages (s : State) : List (Nat × List Byte) :=
  (List.range 256).filterMap (fun p =>
    (s.imageOf s.tenantNow (platResOf (s.dom Reg.platformRes) p).imageId).map (fun i => (p, i.body)))

/-- The first failing check of a loader object for a core, 0 where it passes; `kind` is the KIND its place takes. -/
def State.loaderCheck (s : State) (core kind : Nat) (obj : List Byte) : Nat :=
  let h := loaderHdr obj
  let body := obj.drop 64
  let form := firstFail [
    (decide (obj.length < 64) || h.magic != 0x4C425454 || h.format != 1 || h.kind != kind || h.rsvd ||
      h.bodyLen != body.length || (kind == 2 && h.words != 0), abortCode 3 0x70),
    (h.member != 3 || h.stepping != s.nv.factory.stepping, abortCode 3 0x71),
    (crc32c body != h.crc || sha3 body != h.digest, abortCode 3 0x72)]
  if form ≠ 0 then form
  else if kind = 1 then
    let t := Config.decodeTimetable body
    firstFail [
      (decide (262144 < body.length) || decide (16384 < t.words.length) || !t.words.all wordFits ||
        decide (1 < (splicesAt t.words).length), abortCode 3 0x73),
      (!pairsOk t.work, abortCode 3 0x74),
      (!Config.tileMapAgrees 1 body s.namedImages, abortCode 3 0x75),
      (!quantsOk t.work, abortCode 3 0x76),
      (!spliceOk core t.words || t.words.any wordSeals || !t.words.all namesOk || !t.cmpInit.all settingOk,
        abortCode 3 0x77),
      (!Config.rotAgrees 1 body s.namedImages, abortCode 3 0x78),
      (!basesOk t.work, abortCode 4 0x70),
      (!s.coresOk t.work, abortCode 1 0)]
  else
    let ts := Config.decodeTemplates body
    let ws := ts.flatMap (fun t => t.words)
    firstFail [
      (ts.any (fun t => decide (2048 < t.words.length) || decide (32768 < (t.words.map (fun w => w.bytes)).sum)) ||
        !ws.all wordFits, abortCode 3 0x73),
      (ts.any (fun t => !pairsOk t.work), abortCode 3 0x74),
      (!Config.tileMapAgrees 2 body s.namedImages, abortCode 3 0x75),
      (ts.any (fun t => !quantsOk t.work), abortCode 3 0x76),
      (splicesAt ws != [] || ws.any wordSeals || !ws.all namesOk || ts.any (fun t => !optBelow 8 t.counter || t.writes.any (fun i => decide (8 ≤ i))),
        abortCode 3 0x77),
      (!Config.rotAgrees 2 body s.namedImages, abortCode 3 0x78),
      (ts.any (fun t => !basesOk t.work), abortCode 4 0x70),
      (ts.any (fun t => !s.coresOk t.work), abortCode 1 0)]

/-! ### Banks (R199, R200) -/

/-- Whether a pending commit of any role stages a BANK_SELECT that names a bank. -/
def State.bankStaged (s : State) (core bank : Nat) : Bool :=
  s.commits.any (fun (c : Nat × Pending) =>
    mapGet (Reg.bankSelect core) (mapGetD ⟨[], []⟩ c.1 s.shadows).regs == some bank)

/-- The check before a transfer to a bank (R200): 0 where the transfer may go on. -/
def State.bankCheck (s : State) (core bank : Nat) : Nat :=
  let b := (s.core core).bank bank
  firstFail [
    (b.state == 4 || b.state == 5 || s.bankStaged core bank, abortCode 5 2),
    (b.state == 1, abortCode 7 0x70)]

/-- The state of a bank set. -/
def State.bankState (s : State) (core bank v : Nat) : State :=
  s.updCore core (fun k => k.setBank bank { k.bank bank with state := v })

/-- A completed transfer to a bank: VALID with the new list, or INVALID and the abort in LOAD_ABORT (R200, R207). -/
def State.loadBank (s : State) (core bank : Nat) (obj : List Byte) : Result :=
  let code := s.loaderCheck core 1 obj
  if code ≠ 0 then
    let t := s.updCore core (fun k => k.setBank bank { Bank.empty with state := 3 })
    (code, t.setReg (Reg.loadAbort core) code)
  else
    let b : Bank := ⟨2, Blob.ofBytes obj, bytesAt obj 24 32, Config.decodeTimetable (obj.drop 64)⟩
    let bad := (s.core core).ttBad.filter (fun w => w.1 != bank)
    (0, s.updCore core (fun k => { (k.setBank bank b) with ttBad := bad }))

/-- A whole write of BANK0 or BANK1 (R200). -/
def State.writeBank (s : State) (core bank : Nat) (obj : List Byte) : Result :=
  let code := s.bankCheck core bank
  if code ≠ 0 then (code, s) else s.loadBank core bank obj

end Sys2Proof.Machine
end

