-- ==== Sys2Proof/Machine/Validate.lean ====
section
/-! DEFINITION. What the Interlock validates at a commit (R53): a role's shadow set laid over the live set, and the checks
of every subsystem on the result, each with its abort code. -/

namespace Sys2Proof.Machine

open Sys2Proof

/-! ### Shadows (R50) -/

/-- The shadow set of a role. -/
def State.shadow (s : State) (r : Role) : Shadow := mapGetD ⟨[], []⟩ (roleNum r) s.shadows

/-- The state with a role's shadow set replaced. -/
def State.setShadow (s : State) (r : Role) (h : Shadow) : State := { s with shadows := mapSet (roleNum r) h s.shadows }

/-- Objects in a role's shadow set, one for each selection (R50). -/
def Shadow.size (h : Shadow) : Nat := h.regs.length + h.doms.length

/-- Keys staged in a shadow set. -/
def Shadow.keys (h : Shadow) : List Nat := h.regs.map (fun e => e.1) ++ h.doms.map (fun e => e.1)

/-- The state whose live values are those of the shadow set where it stages one. -/
def State.overlay (s : State) (h : Shadow) : State :=
  { s with regs := h.regs.foldl (fun m e => mapSet e.1 e.2 m) s.regs,
           doms := h.doms.foldl (fun m e => mapSet e.1 e.2 m) s.doms }

/-- Whether a shadow set stages an object, under any selection. -/
def Shadow.has (h : Shadow) (k : Nat) : Bool := h.keys.any (fun x => x / 65536 == k / 65536)

/-- Whether it stages one of several objects. -/
def Shadow.hasAny (h : Shadow) (ks : List Nat) : Bool := ks.any h.has

/-- Whether it stages an object at one sub-index of a range of indices. -/
def Shadow.hasUnit (h : Shadow) (first last sub : Nat) : Bool :=
  h.keys.any (fun k => decide (first ≤ keyIndex k) && decide (keyIndex k ≤ last) && keySub k == sub)

/-- The selections under which an object is staged. -/
def Shadow.sels (h : Shadow) (k : Nat) : List Nat :=
  (h.keys.filter (fun x => x / 65536 == k / 65536)).map keySel

/-- A list without repeats. -/
def distinct (l : List Nat) : Bool := decide (l.Nodup)

/-- A pair conflict (R43, R66, R87). -/
def pairAbort : Nat := abortCode 5 1

/-! ### Ranges of numbers -/

/-- The range a number's notes give it, checked at the write of an object without S and at the commit of one with S
(R374). -/
def rangeOk (k v : Nat) : Bool :=
  let i := keyIndex k
  let sub := keySub k
  let within := fun (lo hi : Nat) => decide (lo ≤ v) && decide (v ≤ hi)
  match i, sub with
  | 0x2000, 0 => within 500 16000 && v % 10 == 0
  | 0x2003, 3 => within 10000 1000000
  | 0x2003, 4 => within 0 1
  | 0x1100, 3 => within 1000000 4294967295
  | 0x2100, 1 => within 0 3
  | 0x1100, 2 => within 0 15
  | 0x2100, 0x13 => decide (v < 2 ^ 60)
  | 0x2201, 2 => within 0 15 || v == 0xFF
  | 0x2400, 5 => within 0 16383
  | 0x2402, 2 => within 0 63
  | 0x2820, 5 => within 0 3
  | 0x2100, 7 => within 1000 1000000
  | 0x2100, 8 => within 10000 1000000
  | 0x2200, 1 => within 0 15
  | 0x2200, 4 => within 1 256
  | 0x2201, 3 => within 100000 10000000
  | 0x2400, 2 => within 0 16384
  | 0x2400, 4 => within 0 4095
  | 0x2402, 1 => within 0 4095
  | 0x2402, 3 => decide (v < 2 ^ 60)
  | 0x2402, 6 => within 10000 100000000
  | 0x2500, 1 => within 0 4095
  | 0x2600, 1 => within 0 1023
  | 0x2600, 5 => within 100000 1000000000
  | 0x2800, 4 => within 0 1048576 && v % 65536 == 0
  | 0x2810, 3 => within 10000 1000000
  | 0x2820, 4 => within 2000 1000000
  | 0x2840, 3 => within 1000 10000000
  | 0x2840, 4 => within 0 7
  | 0x2A00, 1 => within 0 15
  | 0x3000, 3 => within 1 64
  | 0x3000, 5 => within 0 1048576
  | 0x3000, 9 => within 1 16
  | 0x3000, 10 => within 1024 1048576 && v % 1024 == 0
  | 0x3000, 11 => within 1024 16777216
  | 0x3040, 2 => v == 0 || (within 256 16384 && v % 256 == 0)
  | 0x5000, 2 => within 0 1
  | 0x5000, 3 => within 0 1
  | 0x6400, 1 => within 1 1024
  | 0x7000, 0x21 => within 2 1024
  | _, 3 => if 0x4000 ≤ i ∧ i < 0x4080 then within 0 1 else true
  | _, 4 => if 0x4000 ≤ i ∧ i < 0x4080 then within 0 1 else true
  | _, _ => true

/-! ### Beat and job (R37, R38, R43, R244, R344) -/

/-- The offsets of 0x2001 against P (R43). -/
def State.offsetsOk (n : State) : Bool :=
  let m := n.reg Reg.beatPeriod - maintLen (n.reg Reg.beatPeriod)
  let chain := [10, n.reg Reg.combineEnd, n.reg Reg.attnEnd, n.reg Reg.dispatchStart, n.reg Reg.scoreEnd,
    n.reg Reg.intakeClose, n.reg Reg.computeEnd, n.reg Reg.returnEnd, m]
  (List.range 8).all (fun i => decide (chain.getD i 0 ≤ chain.getD (i + 1) 0)) &&
    decide (n.reg Reg.combineEnd ≤ n.reg Reg.sampleEnd) && decide (n.reg Reg.sampleEnd ≤ m)

/-- The objects of the Beat group without the anchor. -/
def beatKeys : List Nat :=
  [Reg.beatPeriod, Reg.combineEnd, Reg.attnEnd, Reg.scoreEnd, Reg.dispatchStart, Reg.intakeClose, Reg.computeEnd,
   Reg.returnEnd, Reg.sampleEnd]

/-- R37, R38, R43. `open'` says that the commit names a beat, applies during the write, or is a standalone device's. -/
def beatCode (o n : State) (h : Shadow) (open' : Bool) : Nat :=
  if !h.hasAny beatKeys then 0
  else firstFail [
    (n.reg Reg.beatPeriod != o.reg Reg.beatPeriod && !open', abortCode 5 5),
    (!n.offsetsOk, pairAbort)]

/-- The ranks that are valid in a rank table. -/
def State.validRanks (n : State) : List Nat := (List.range (n.reg Reg.rankCount)).filter (fun i => (n.rankRecord i).isSome)

/-- Whether the device's partition is not running (R244): IDLE or CONFIGURED. -/
def State.partStopped (o : State) : Bool := o.part == 0 || o.part == 1

/-- R244. -/
def jobCode (o n : State) (h : Shadow) : Nat :=
  let job := h.hasAny [Reg.rankTable, Reg.rankCount, Reg.jobId]
  let count := n.reg Reg.rankCount
  let devs := n.validRanks.filterMap n.rankRecord
  firstFail [
    (job && !o.partStopped, abortCode 5 0x21),
    (job && (n.dom Reg.rankTable).len != 4 * count, pairAbort),
    (job && count == 0 && n.reg Reg.jobId != 0, pairAbort),
    (job && count != 0 && (devs.filter (fun d => d == o.here)).length != 1, abortCode 5 0x22),
    (job && !distinct devs, pairAbort)]

/-! ### Fabric (R243, R245, R247, R272) -/

/-- Device addresses whose route records may differ from zero in either of two tables. -/
def touchedRoutes (a b : Blob) : List Nat := ((a.cells ++ b.cells).map (fun c => c.1 / 16)).eraseDups

/-- The ports of a route record, as bits of its PRIMARY, and 64 up of its ALT. -/
def routeBits (b : Blob) (d : Nat) : List Nat :=
  let w := b.nat (16 * d) 16
  ((List.range 60) ++ (List.range 60).map (64 + ·)).filter (fun x => w.testBit x)

/-- The job of a device: this device's own where its rank table holds it (R243, assumption 143). -/
def State.jobOf (o : State) (d : Nat) : Nat :=
  if (o.validRanks.filterMap o.rankRecord).contains d then o.reg Reg.jobId else Config.jobOf d

/-- Whether a drain in state DRAINED covers a port for the job of the device of a record, or for all jobs. -/
def State.drainCovers (o : State) (d x : Nat) : Bool :=
  o.reg Reg.drainState == 2 && (o.reg Reg.drainPorts).testBit x &&
    (o.reg Reg.drainJob == 0 || o.reg Reg.drainJob == o.jobOf d)

/-- R243. -/
def routeCode (o n : State) (h : Shadow) : Nat :=
  if !h.has Reg.routeTable then 0
  else
    let a := o.dom Reg.routeTable
    let b := n.dom Reg.routeTable
    let ds := touchedRoutes a b
    let lost := ds.any (fun d => (routeBits a d).any (fun x => let p := x % 64
      !(routeBits b d).contains x && !o.drainCovers d p && o.reg (Reg.portState p) != 4 && o.reg (Reg.portState p) != 5))
    firstFail [
      (lost, abortCode 5 0x20),
      (ds.any (fun d => (routeBits b d).any (fun x => n.portRole (x % 64) == 0)), abortCode 4 0),
      (routeBits b o.here != [], pairAbort)]

/-- R247: a staged PORT_CFG. -/
def portCfgOk (p v : Nat) : Bool :=
  let role := field v 1 3
  let lim := field v 8 5
  (role == 0 || role == portLevel p || (decide (46 ≤ p) && (role == 3 || role == 4))) && lim != 0

/-- Member ranks of a multicast group record. -/
def mcastMembers (b : Blob) : List Nat := (List.range (min 64 (b.nat 0 2))).map (fun i => b.nat (8 + 2 * i) 2)

/-- R245 for every staged group, its COUNT apart. -/
def mcastCode (n : State) (h : Shadow) : Nat :=
  let gs := (h.sels Reg.mcastGroup).map (fun g => n.dom (slotKey Reg.mcastGroup g))
  firstFail [
    (gs.any (fun b => (mcastMembers b).any (fun r => decide (n.reg Reg.rankCount ≤ r))), abortCode 1 0),
    (gs.any (fun b => !distinct (mcastMembers b)), pairAbort)]

/-- A group record's COUNT and length (R272). -/
def groupLenOk (b : Blob) : Bool := b.nat 0 2 != 0 && decide (b.nat 0 2 ≤ 4096) && b.len == 8 + 2 * b.nat 0 2

/-- R272 for every staged group. -/
def collCode (o n : State) (h : Shadow) : Nat :=
  let gs := h.sels Reg.collGroup
  let bs := gs.map (fun g => n.dom (slotKey Reg.collGroup g))
  let ms := fun (b : Blob) => (List.range (b.nat 0 2)).map (fun i => b.nat (8 + 2 * i) 2)
  firstFail [
    (bs.any (fun b => (ms b).any (fun r => (n.rankRecord r).isNone)), abortCode 1 0),
    (bs.any (fun b => !distinct (ms b)), pairAbort),
    (o.colls.any (fun (c : Nat × CollSlot) => c.2.state == 1 && gs.contains c.2.group), abortCode 5 0x40)]

/-! ### Remote memory (R256) -/

/-- Whether a live record may go or lose what the new list takes from it only after a recall. -/
def xlateShrinks (new : List XlateRec) (r : XlateRec) : Bool :=
  match new.find? (fun x => x.jpn == r.jpn) with
  | none => true
  | some x => (r.rd && !x.rd) || (r.wr && !x.wr) || (r.ad && !x.ad) || x.ppn != r.ppn || x.coh != r.coh

/-- Whether the page is recalled. -/
def State.isRecalled (o : State) (jpn : Nat) : Bool := (o.reg Reg.recallState == 2 && o.rmem.recallJpn == jpn) || o.rmem.recalled.contains jpn

/-- Whether a PPN is a page the running tenant holds as a home in the fast tier. -/
def State.holdsPage (o : State) (ppn : Nat) : Bool :=
  o.tiers.homes.any (fun x => x.tenant == o.tenantNow && x.addr == homeAddr 1 0 ppn)

/-- R256. -/
def xlateCode (o n : State) (h : Shadow) : Nat :=
  if !h.has Reg.rmXlate then 0
  else
    let new := n.xlate
    firstFail [
      (!distinct (new.map (fun r => r.jpn)), pairAbort),
      (new.any (fun r => !o.holdsPage r.ppn), abortCode 1 0),
      (decide (65536 < new.length), abortCode 6 0x31),
      (o.xlate.any (fun r => xlateShrinks new r && !o.isRecalled r.jpn), abortCode 5 0x31)]

/-! ### Yard tables (R66, R67, R69, R473) -/

/-- The active layer slots. -/
def State.activeSlots (n : State) : List Nat := (List.range 256).filter (fun i => decide (0 < (n.layerSlot i).experts))

/-- The field ranges of an active record (R65, R66). -/
def slotRangeOk (l : LayerSlot) : Bool :=
  decide (l.experts ≤ 16384) && decide (1 ≤ l.groups) && decide (l.groups ≤ 256) && decide (1 ≤ l.topGroups) &&
    decide (l.topGroups ≤ 8) && decide (l.topGroups ≤ l.groups) && decide (1 ≤ l.topK) && decide (l.topK ≤ 16) &&
    l.norm != 3 && decide (64 ≤ l.width) && l.width % 64 == 0 && decide (l.width ≤ (if l.direct then 16384 else 1024)) &&
    (!l.kvSel || (decide (1 ≤ l.kvTopk) && decide (l.kvTopk ≤ 64))) && decide (l.kvForce ≤ 4) && fIsFin l.gateScale &&
    fLt 0 l.gateScale

/-- The pair checks of an active record. -/
def slotPairOk (l : LayerSlot) : Bool :=
  l.experts % l.groups == 0 && decide (l.topK ≤ l.topGroups * (l.experts / l.groups)) && (!l.striped || l.groups % 16 == 0)

/-- The lengths of the gate tables of an active slot (R69); an empty bias table stands for zeros. -/
def State.gateLengths (n : State) (i : Nat) : Bool :=
  let l := n.layerSlot i
  let len := fun k => (n.dom (slotKey k i)).len
  len Reg.gateGroupW == l.eltBytes * l.width * l.groupRows && len Reg.gateExpertW == l.eltBytes * l.width * l.experts &&
    (len Reg.gateGroupBias == 0 || len Reg.gateGroupBias == 4 * l.groupRows) &&
    (len Reg.gateExpertBias == 0 || len Reg.gateExpertBias == 4 * l.experts)

/-- The table bytes a slot takes in each Yard (R67). -/
def slotArea (l : LayerSlot) : Nat :=
  (l.eltBytes * l.width + 4) * (l.groupRows + (if l.striped then l.experts / 16 else l.experts))

/-- The table bytes of all active slots. -/
def State.areaBytes (n : State) : Nat := (n.activeSlots.map (fun i => slotArea (n.layerSlot i))).foldl (· + ·) 0

/-- R66, R67. -/
def yardCode (n : State) : Nat :=
  let act := n.activeSlots
  firstFail [
    (act.any (fun i => !slotPairOk (n.layerSlot i)), pairAbort),
    (act.any (fun i => !n.gateLengths i), pairAbort),
    (decide (1048576 < n.areaBytes), abortCode 6 0x30)]

/-! ### Placement (R87, R118, R123, R208) -/

/-- The enabled Platform slots. -/
def State.enabledPlats (n : State) : List Nat := (List.range 256).filter (fun p => (n.plat p).en)

/-- The map records of a slot. -/
def State.mapRecs (n : State) (i : Nat) : List (Nat × MapRec) :=
  (List.range (n.layerSlot i).experts).map (fun e => (e, mapRecOf (n.dom (slotKey Reg.expertMap i)) e))

/-- The map and grant lengths of an active slot. -/
def State.mapLengths (n : State) (i : Nat) : Bool :=
  let l := n.layerSlot i
  (n.dom (slotKey Reg.expertMap i)).len == 4 * l.experts && (n.dom (slotKey Reg.sendGrants i)).len == 2 * l.experts

/-- A map entry of this device's rank and an enabled Platform of its slot and expert go together (R87). -/
def State.mapPairs (n : State) : Bool :=
  let here := n.myRankOpt
  n.activeSlots.all (fun i => (n.mapRecs i).all (fun m =>
    some m.2.rank != here ||
      ((n.plat m.2.pslot).en && (n.plat m.2.pslot).lslot == i && (n.plat m.2.pslot).expert == m.1))) &&
    n.enabledPlats.all (fun p =>
      let r := n.plat p
      let m := mapRecOf (n.dom (slotKey Reg.expertMap r.lslot)) r.expert
      some m.rank == here && m.pslot == p)

/-- Sum of numbers. -/
def sumOf (l : List Nat) : Nat := l.foldl (· + ·) 0

/-- R87, in the order of its table. -/
def placementCode (n : State) : Nat :=
  let act := n.activeSlots
  let plats := n.enabledPlats
  let gs := grantRecs (n.dom Reg.recvGrants)
  let w := n.reg Reg.hiddenWidth
  firstFail [
    (act.any (fun i => !n.mapLengths i), pairAbort),
    (plats.any (fun p => decide ((n.layerSlot (n.plat p).lslot).experts ≤ (n.plat p).expert)), pairAbort),
    (plats.any (fun p => !n.coreOn (n.plat p).core), abortCode 1 0),
    (!distinct (plats.map (fun p => (n.plat p).lslot * 16384 + (n.plat p).expert)), pairAbort),
    (!n.mapPairs, pairAbort),
    (act.any (fun i => (n.mapRecs i).any (fun m => decide (n.reg Reg.rankCount ≤ m.2.rank))), abortCode 1 0),
    (w == 0 && (act != [] || plats != [] || n.reg Reg.vocabLen != 0), pairAbort),
    (plats.any (fun p => decide ((n.plat p).capacity < sumOf ((gs.filter (fun g => g.pslot == p)).map (fun g => g.credits)))) ||
      !distinct (gs.map (fun g => g.sender * 256 + g.pslot)), pairAbort)]

/-- Whether a slot's READY load is the one its record names (R118, R119). -/
def State.imageReady (n : State) (p : Nat) : Bool :=
  let r := platResOf (n.dom Reg.platformRes) p
  n.imageSlot p == ⟨2, r.imageId, r.cls, r.place⟩

/-- Segment bytes the Platforms of a core need (R118). -/
def State.segNeed (n : State) (c : Nat) : Nat :=
  sumOf ((n.enabledPlats.filter (fun p => (n.plat p).core == c)).map (fun p =>
    (n.plat p).capacity * (platResOf (n.dom Reg.platformRes) p).segCost * 16))

/-- Whether an enabled Platform has a template within its SEG_COST (R208). -/
def State.templateOk (n : State) (p : Nat) : Bool :=
  match (n.templates (n.plat p).core).find? (fun t => t.pslot == p) with
  | none => false
  | some t => decide (sumOf (t.words.map (fun w => w.bytes)) ≤ 16 * (platResOf (n.dom Reg.platformRes) p).segCost)

/-- R118. -/
def platformCode (n : State) : Nat :=
  let plats := n.enabledPlats
  let res := fun p => platResOf (n.dom Reg.platformRes) p
  firstFail [
    (plats.any (fun p => decide (2 ≤ (res p).cls)), abortCode 4 0),
    (plats.any (fun p => (res p).cls == 1 && n.reg Reg.beatPeriod != 16000), pairAbort),
    (plats.any (fun p => (res p).pred && !(predRecOf (n.dom Reg.predCfg) (n.plat p).lslot).en), pairAbort),
    (plats.any (fun p => !n.imageReady p), abortCode 7 0x50),
    ((List.range 128).any (fun c => decide (32768 < n.segNeed c)), abortCode 6 0x60)]

/-- The field ranges of an enabled record of PRED_CFG (R123). -/
def predFieldsOk (r : PredRec) : Bool :=
  !r.en || (decide (1 ≤ r.granules) && decide (r.granules ≤ 64) && decide (1 ≤ r.maxGran) && decide (r.maxGran ≤ r.granules) &&
    fIsFin r.thresh && fIsFin r.eps && !fLt r.eps 0)

/-- The length of an enabled slot's PRED_SHARED (R123). -/
def predLenOk (n : State) (i : Nat) : Bool :=
  !(predRecOf (n.dom Reg.predCfg) i).en || (n.dom (slotKey Reg.predShared i)).len == 64 * n.reg Reg.hiddenWidth + 256

/-- R130. -/
def kvCode (n : State) : Nat :=
  firstFail [
    (n.activeSlots.any (fun i => (n.layerSlot i).kvSel &&
      decide (n.reg Reg.kvReadLimit < (n.layerSlot i).kvTopk * n.reg Reg.kvBlockBytes)), pairAbort)]

/-! ### Sampling, clipping, quotas, banks -/

/-- The shares of the vocabulary (R83). -/
def samplingCode (n : State) : Nat :=
  if n.reg Reg.vocabSize < n.reg Reg.vocabBase + n.reg Reg.vocabLen then abortCode 4 0 else 0

/-- SAMPLE_TEMP is a finite number of at least 0 (R83). -/
def tempOk (v : Nat) : Bool :=
  let t : FP32 := BitVec.ofNat 32 v
  fIsFin t && !fLt t 0

/-- SAMPLE_TOPP is above 0 and at most 1 (R83). -/
def toppOk (v : Nat) : Bool :=
  let p : FP32 := BitVec.ofNat 32 v
  fLt 0 p && !fLt 0x3F800000 p

/-- The entries of a cluster's quota table. -/
def quotaWords (b : Blob) : List Nat := (List.range 256).map (fun q => b.nat (8 * q) 8)

/-- An entry without a reserved bit or value, its LIMIT at most 16,384 (R322). -/
def quotaOk (w : Nat) : Bool :=
  decide (field w 0 15 ≤ 16384) && !w.testBit 15 && decide (field w 32 3 ≤ 4) && field w 35 29 == 0

/-- R322 for every staged cluster. -/
def quotaCode (n : State) (h : Shadow) : Nat :=
  let bs := (h.sels Reg.quotaTable).map (fun k => n.dom (slotKey Reg.quotaTable k))
  if bs.all (fun b => distinct (((quotaWords b).filter (fun w => field w 32 3 != 0)).map (fun w => field w 16 19))) then 0
  else pairAbort

/-- R201: a core that would RUN selects a bank that is VALID or ACTIVE. -/
def bankCode (n : State) (h : Shadow) : Nat :=
  let bad := (List.range 128).any (fun c =>
    h.hasAny [Reg.bankSelect c, Reg.mode c] && n.reg (Reg.mode c) == 1 &&
      (let x := ((n.core c).bank (n.reg (Reg.bankSelect c))).state
       x != 2 && x != 4))
  if bad then pairAbort else 0

/-- R208: every enabled Platform has a template within its SEG_COST. -/
def templateCode (n : State) : Nat := if n.enabledPlats.all n.templateOk then 0 else pairAbort

/-- Objects of the Placement group and those paired with them (R399). -/
def placementKeys : List Nat :=
  [Reg.layerSlotCfg, Reg.gateGroupW, Reg.gateExpertW, Reg.gateGroupBias, Reg.gateExpertBias, Reg.expertMap,
   Reg.sendGrants, Reg.recvGrants, Reg.platformTable, Reg.hiddenWidth, Reg.platformRes, Reg.predCfg, Reg.predShared]

/-- The first code of a list that is not 0. -/
def firstCode (l : List Nat) : Nat := (l.find? (fun c => c != 0)).getD 0

/-- The range of a staged number (R83, R247, R374). -/
def numberOk (k v : Nat) : Bool :=
  if keyIndex k < 0x233C ∧ 0x2300 ≤ keyIndex k ∧ keySub k = 1 then portCfgOk (keyIndex k - 0x2300) v
  else if k = Reg.sampleTemp then tempOk v
  else if k = Reg.sampleTopp then toppOk v
  else rangeOk k v

/-- Whether a key names an object, under any selection. -/
def isObject (k obj : Nat) : Bool := k / 65536 == obj / 65536

/-- The checks of one staged table (R65, R87, R117, R118, R172, R272, R322), on the state `n` that the commit would leave. -/
def tableOk (n : State) (k : Nat) (b : Blob) : Bool :=
  let res := (List.range 256).map (platResOf b)
  if isObject k Reg.layerSlotCfg then n.activeSlots.all (fun i => slotRangeOk (n.layerSlot i))
  else if isObject k Reg.platformTable then
    n.enabledPlats.all (fun p => decide (1 ≤ (n.plat p).capacity) && decide ((n.plat p).capacity ≤ 1024))
  else if isObject k Reg.platformRes then
    n.enabledPlats.all (fun p => decide ((res.getD p default).cls ≤ 1)) &&
      (List.range 256).all (fun p => b.nat (16 * p + 4) 4 % 4096 == 0 && b.nat (16 * p + 8) 8 % 4096 == 0)
  else if isObject k Reg.sendGrants then (List.range (b.len / 2)).all (fun e => decide (b.nat (2 * e) 2 ≤ 1024))
  else if isObject k Reg.recvGrants then (grantRecs b).all (fun g => decide (g.credits ≤ 1024))
  else if isObject k Reg.collGroup then groupLenOk b
  else if isObject k Reg.quotaTable then (quotaWords b).all quotaOk
  else if isObject k Reg.clipThresh then (List.range 256).all (fun i => decide (b.nat (4 * i) 4 ≤ 65536))
  else true

/-- The abort of the checks of one staged object: class 0x0004, and for the two objects whose rule gives a field's range another
class that one (R123, R245). -/
def objectCode (n : State) (h : Shadow) (k : Nat) : Nat :=
  match mapGet k h.regs, mapGet k h.doms with
  | some v, _ => if numberOk k v then 0 else abortCode 4 0
  | _, some b =>
    if isObject k Reg.predCfg then
      if (List.range 256).all (fun i => predFieldsOk (predRecOf b i)) then 0 else pairAbort
    else if isObject k Reg.mcastGroup then if b.nat 0 2 ≤ 64 then 0 else pairAbort
    else if tableOk n k b then 0 else abortCode 4 0
  | _, _ => 0

/-- The first checks of a commit (R53): every single staged object, in ascending index and sub-index. -/
def singlesCode (n : State) (h : Shadow) : Nat := firstCode ((sortBy (fun a b => decide (a ≤ b)) h.keys).map (objectCode n h))

/-- The checks of a commit (R53): 0 where it passes. Single objects come first; then the checks over several objects, in
the order of the chapters that state them, each made where the shadow set stages one of its objects. -/
def commitCode (o : State) (h : Shadow) (open' : Bool) : Nat :=
  let n := o.overlay h
  let place := h.hasAny placementKeys || h.hasUnit 0x4000 0x407F 8
  let beat := h.has Reg.beatPeriod
  firstCode [
    singlesCode n h,
    beatCode o n h open',
    if place then yardCode n else 0,
    if h.hasAny [Reg.vocabSize, Reg.vocabBase, Reg.vocabLen] then samplingCode n else 0,
    if place || h.has Reg.vocabLen then placementCode n else 0,
    if place || beat then platformCode n else 0,
    if place then (if (List.range 256).all (predLenOk n) then 0 else pairAbort) else 0,
    if h.hasAny [Reg.kvBlockBytes, Reg.kvReadLimit, Reg.layerSlotCfg] then kvCode n else 0,
    bankCode n h,
    if place then templateCode n else 0,
    routeCode o n h,
    if h.hasAny [Reg.rankTable, Reg.rankCount, Reg.jobId] then jobCode o n h else 0,
    mcastCode n h,
    xlateCode o n h,
    collCode o n h,
    quotaCode n h,
    if n.reg Reg.batchSize != o.reg Reg.batchSize && !o.partStopped then abortCode 5 0x21 else 0]

end Sys2Proof.Machine
end

