-- ==== Sys2Proof/Machine/Commit.lean ====
section
/-! DEFINITION. The Interlock (R50 to R55): what a commit changes beside the live values, commits at a tick and during the
write, cancel and discard. -/

namespace Sys2Proof.Machine

open Sys2Proof

/-! ### What the staged objects set off when they become live -/

/-- REPRO_STALE reads 1 from a change of an input of the key until it is recomputed (R347). -/
def State.stale347 (s : State) (changed : Bool) : State := if changed then s.setReg Reg.reproStale 1 else s

/-- Objects whose live value enters the key record of R347. -/
def keyInputKeys : List Nat :=
  [Reg.layerSlotCfg, Reg.expertMap, Reg.sendGrants, Reg.recvGrants, Reg.platformTable, Reg.platformRes, Reg.hiddenWidth,
   Reg.beatPeriod, Reg.readoutSubnorm, Reg.satReadout, Reg.rankCount, Reg.rankTable]

/-- A bank selection becomes live in core c (R201): the selected bank is ACTIVE, the replaced one DRAINING while an
invocation runs from it, else VALID. -/
def State.selectBank (s : State) (c old : Nat) : State :=
  let sel := s.reg (Reg.bankSelect c)
  let k := s.core c
  let other := 1 - sel
  let k := if (k.bank other).state = 4 then
      k.setBank other { k.bank other with state := if k.seq.running ∧ k.seq.bank = other then 5 else 2 }
    else k
  let k := if (k.bank sel).state = 2 ∨ (k.bank sel).state = 5 then k.setBank sel { k.bank sel with state := 4 } else k
  let s := s.setCore c k
  if sel ≠ old then s.count Reg.bankSwitches 1 else s

/-- The staged bank selections and modes of every core take effect (R201). -/
def State.switchBanks (o s : State) (h : Shadow) : State :=
  ((List.range 128).filter (fun c => h.hasAny [Reg.bankSelect c, Reg.mode c])).foldl
    (fun s c => s.selectBank c (o.reg (Reg.bankSelect c))) s

/-- A port's configuration becomes live (R220, R221): EN = 0 disables it and its queued packets are routed again; EN = 1
trains a disabled one from boot stage 7 on. -/
def State.configPort (s : State) (x : Nat) : State :=
  let en := (s.reg (Reg.portCfg x)).testBit 0
  let st := s.reg (Reg.portState x)
  if !en then
    if st = 5 then s
    else
      ((s.setReg (Reg.portState x) 5).setPort x { s.port x with resetEn := true }).closePort x
  else if st = 5 then
    s.setReg (Reg.portState x) (if 7 ≤ s.reg Reg.bootStage ∧ s.reg Reg.bootStage ≤ 9 then 1 else 0)
  else s

/-- The staged port records take effect. -/
def State.configPorts (s : State) (h : Shadow) : State :=
  ((List.range 60).filter (fun x => h.has (Reg.portCfg x))).foldl State.configPort s

/-- Tables of the slots that a commit makes inactive are emptied (R473). -/
def State.emptySlots (o s : State) (h : Shadow) : State :=
  if !h.has Reg.layerSlotCfg then s
  else
    let gone := o.activeSlots.filter (fun i => (s.layerSlot i).experts == 0)
    gone.foldl (fun s i =>
      [Reg.gateGroupW, Reg.gateExpertW, Reg.gateGroupBias, Reg.gateExpertBias, Reg.expertMap, Reg.sendGrants,
       Reg.predShared].foldl (fun s k => s.setDom (slotKey k i) Blob.empty) s) s

/-- The per-slot tables that a Yard's table area holds (R68). -/
def gateKeys : List Nat := [Reg.gateGroupW, Reg.gateExpertW, Reg.gateGroupBias, Reg.gateExpertBias]

/-- The background copy of the live half into the other starts (R68). -/
def State.startCopy (s : State) (claimed : Bool) : State :=
  ({ s with yards := { s.yards with copying := true, copyFrom := s.beatNow, copyClaimed := claimed } }).setReg Reg.gateCopyBusy 1

/-- A role's claim on the inactive half ends (R68). -/
def State.endClaim (s : State) (r : Role) : State :=
  if s.reg Reg.gateOwner = roleNum r then (s.setReg Reg.gateOwner 0xFF).startCopy true else s

/-- Platform slots whose record no longer names their load return to EMPTY (R119). -/
def State.dropImages (s : State) : State :=
  { s with platforms := { s.platforms with images := s.platforms.images.map (fun (e : Nat × ImageSlot) =>
      let r := platResOf (s.dom Reg.platformRes) e.1
      if e.2.imageId = r.imageId ∧ e.2.cls = r.cls ∧ e.2.place = r.place then e else (e.1, ⟨0, 0, 0, 0⟩)) } }

/-- The anchor is committed (R55): the windows of R126 and R167 count from its first commit. -/
def State.anchorSet (s : State) (running : Bool) : State :=
  let first := !s.time.anchored
  let t := { s.time with anchored := true, ticked := s.time.ticked && running }
  if first then
    { s with time := t, clip := { s.clip with counts := [], beats := 0 },
             platforms := { s.platforms with auditBeats := 0, auditMisses := 0 } }
  else { s with time := t }

/-- JOB objects committed with no beat running (R356, R357): CONFIGURED with a job, IDLE without. -/
def State.configured (s : State) : State :=
  if s.part ≤ 1 then s.setReg Reg.partState (if s.reg Reg.jobId = 0 then 0 else 1) else s

/-- The pages whose record a commit of RM_XLATE changes are recalled no longer (R256). -/
def State.endRecalls (o s : State) : State :=
  let rec' := fun (t : State) (jpn : Nat) => t.xlate.find? (fun r => r.jpn == jpn)
  let same := fun (jpn : Nat) => rec' o jpn == rec' s jpn
  let s := { s with rmem := { s.rmem with recalled := s.rmem.recalled.filter same } }
  if s.reg Reg.recallState = 2 ∧ !same s.rmem.recallJpn then s.setReg Reg.recallState 0 else s

/-- What the newly live values set off. `o` is the state before the commit. -/
def State.commitEffects (o s : State) (h : Shadow) (r : Role) : State :=
  let s := if h.hasAny [Reg.anchorBeat, Reg.anchorTime] then s.anchorSet (!o.noBeat) else s
  let s := if h.hasAny [Reg.rankTable, Reg.rankCount, Reg.jobId] then s.configured else s
  let s := if h.has Reg.routeTable then s.count Reg.routeCommits 1 else s
  let s := s.configPorts h
  let s := State.emptySlots o s h
  let s := if h.hasAny gateKeys ∨ o.reg Reg.gateOwner = roleNum r then s.endClaim r else s
  let s := State.switchBanks o s h
  let s := if h.hasAny [Reg.clipWindow, Reg.clipThresh] ∧
      (s.reg Reg.clipWindow ≠ o.reg Reg.clipWindow ∨ s.dom Reg.clipThresh ≠ o.dom Reg.clipThresh) then
      { s with clip := { s.clip with counts := [], beats := 0 } } else s
  let s := if s.reg Reg.ccSoftBytes ≠ o.reg Reg.ccSoftBytes then { s with rmem := { s.rmem with copies := [] } } else s
  let s := if h.has Reg.rmXlate then State.endRecalls o s else s
  let s := if h.has Reg.platformRes then s.dropImages else s
  s.stale347 (h.hasAny keyInputKeys || h.hasUnit 0x4000 0x407F 3 || h.hasUnit 0x4000 0x407F 8)

/-! ### A commit applied or rejected -/

/-- A role's shadow set is validated and applied, or rejected whole (R53); `beat` is the value LAST_APPLIED_BEAT takes. -/
def State.runCommit (s : State) (r : Role) (beat : Nat) (open' : Bool) : Result :=
  let h := s.shadow r
  let code := commitCode s h open'
  let s := { s with commits := mapDel (roleNum r) s.commits }
  if code ≠ 0 then
    (code, (s.setReg (perRole Reg.commitState r) 3).setReg (perRole Reg.commitAbort r) code)
  else
    let n := (s.overlay h).setShadow r ⟨[], []⟩
    let n := State.commitEffects s n h r
    (0, (n.setReg (perRole Reg.commitState r) 2).setReg (perRole Reg.lastAppliedBeat r) beat)

/-- What a commit that applied at the tick of beat k replaced, for the work that began before it (R68, R83, R127): the objects it
staged, and the tables it emptied. -/
def State.keepPrior (o s : State) (k : Nat) (h : Shadow) : State :=
  let emptied := (o.doms.filter (fun e => mapGet e.1 s.doms != some e.2)).map (fun e => e.1)
  let p : Prior := { beat := k, regs := h.regs.map (fun e => (e.1, o.reg e.1)),
                     doms := (h.doms.map (fun e => e.1) ++ emptied).eraseDups.map (fun d => (d, o.dom d)), toks := o.begunTokens }
  { s with prior := p :: s.prior }

/-- A pending commit applies at the tick of beat k (R53, R54); a change of P moves the anchor to that tick (R38). -/
def State.applyAt (s : State) (r : Role) (k : Nat) : State :=
  match mapGet (roleNum r) s.commits with
  | none => s
  | some c =>
    if k < c.beat then s
    else
      let s := s.judgeBefore
      let at' := s.tickTime k
      let d := s.runCommit r k (c.named || s.manager.roleLive == 0)
      let t := if d.1 = 0 ∧ !s.noBeat then State.keepPrior s d.2 k (s.shadow r) else d.2
      if t.reg Reg.beatPeriod ≠ s.reg Reg.beatPeriod then (t.setReg Reg.anchorBeat k).setReg Reg.anchorTime at' else t

/-- The roles in the order in which commits of one tick apply (R54). -/
def commitOrder : List Role := [.op, .mgr, .ten, .brd]

/-- Every commit due at the tick of beat k, in the order O, M, T, B (R54). -/
def State.applyDue (s : State) (k : Nat) : State := commitOrder.foldl (fun s r => s.applyAt r k) s

/-- The beat that the next tick starts. -/
def State.nextBeat (s : State) : Nat := if s.time.ticked then s.beatNow + 1 else s.reg Reg.anchorBeat

/-- COMMIT_APPLY (R53, R54): a role's commit reaches its applying tick, the one about to fall. -/
def execCommitApply (r : Role) (s : State) : Host.Outcome State Fault Refusal :=
  .next (if s.noBeat then s else s.applyAt r s.nextBeat)

/-! ### COMMIT_CMD (R51, R52, R55) -/

/-- A commit becomes pending for a beat. -/
def State.pend (s : State) (r : Role) (beat : Nat) (named : Bool) : State :=
  ({ s with commits := mapSet (roleNum r) ⟨beat, named⟩ s.commits }).setReg (perRole Reg.commitState r) 1

/-- The first tick at least 100 ns ahead (R52). -/
def State.tickAhead (s : State) : Nat :=
  if s.tickTime s.nextBeat < s.time.hallTime + 100 then s.nextBeat + 1 else s.nextBeat

/-- Whether a beat's tick lies at least 100 ns ahead and not before the anchor. -/
def State.namedOk (s : State) (b : Nat) : Bool :=
  decide (s.reg Reg.anchorBeat ≤ b) && decide (s.nextBeat ≤ b) && decide (s.time.hallTime + 100 ≤ s.tickTime b)

/-- A role's pending commit is cancelled; its shadows stay (R51 value 3). -/
def State.cancelCommit (s : State) (r : Role) : State :=
  ({ s with commits := mapDel (roleNum r) s.commits }).setReg (perRole Reg.commitState r) 0

/-- A role's shadows are discarded (R51 value 4, R68). -/
def State.discardShadow (s : State) (r : Role) : State :=
  let s := s.setShadow r ⟨[], []⟩
  if s.reg Reg.gateOwner = roleNum r then (s.setReg Reg.gateOwner 0xFF).startCopy false else s

/-- A write of COMMIT_CMD (R51, R52, R55). -/
def State.writeCommit (s : State) (r : Role) (v : Nat) : Result :=
  let pending := (mapGet (roleNum r) s.commits).isSome
  match v with
  | 1 =>
    if pending then (abortCode 7 2, s)
    else if s.noBeat then s.runCommit r s.beatNow true
    else (0, s.pend r s.tickAhead false)
  | 2 =>
    if pending then (abortCode 7 2, s)
    else if s.noBeat then s.runCommit r s.beatNow true
    else
      let b := s.reg (perRole Reg.commitBeat r)
      if s.namedOk b then (0, s.pend r b true) else (abortCode 7 1, s)
  | 3 => if pending then (0, s.cancelCommit r) else (abortCode 7 3, s)
  | 4 =>
    if pending then (abortCode 7 6, s)
    else if (s.shadow r).size = 0 then (abortCode 7 3, s)
    else (0, s.discardShadow r)
  | _ => (abortCode 4 0, s)

end Sys2Proof.Machine
end

