-- ==== Sys2Proof/Machine/Tenancy.lean ====
section
/-! DEFINITION. Tenancy (R332 to R351): tenant slots and their save areas, the swap with its drain, save, scrub, restore and
resume, the accounts and interference records, and the reproducibility key. -/

namespace Sys2Proof.Machine

open Sys2Proof

/-! ### Tenant objects (R336, R337) -/

/-- Indices of objects that every role may reach and that belong to the device or the partition (R337), and of the commit
and session objects, which hold one value per role. -/
def deviceIndices : List Nat := [0x2010, 0x2011, 0x2200, 0x2400, 0x1030, 0x1400]

/-- Whether an object is part of the tenant state: its access mask includes T, and it is a setting, a counter, or a status
that the tenant's stores carry (R336). -/
def tenantObject (k : Nat) : Bool :=
  match findRow (keyIndex k) (keySub k) with
  | none => false
  | some r =>
    r.roles.contains .ten && r.sel != .role && !deviceIndices.contains r.index &&
      (r.access == .rw || r.latched || (r.index == 0x3010 && (r.sub == 0x07 || r.sub == 0x0A)) ||
        (r.index == 0x4000 && r.sub == 0x07) || (r.index == 0x2840 && r.sub == 0x06) ||
        (r.index == 0x7000 && r.sub == 0x22))

/-- The part of a table of objects that belongs to the tenant. -/
def tenantPart (m : List (Nat × α)) : List (Nat × α) := m.filter (fun e => tenantObject e.1)

/-- The part that belongs to the device. -/
def devicePart (m : List (Nat × α)) : List (Nat × α) := m.filter (fun e => !tenantObject e.1)

/-- Entries laid over a table. -/
def putAll (m : List (Nat × α)) (new : List (Nat × α)) : List (Nat × α) := new.foldl (fun m e => mapSet e.1 e.2 m) m

/-- The tenant's entries of a shadow set. -/
def Shadow.tenantOnly (h : Shadow) : Shadow := ⟨tenantPart h.regs, tenantPart h.doms⟩

/-- The other entries of a shadow set. -/
def Shadow.deviceOnly (h : Shadow) : Shadow := ⟨devicePart h.regs, devicePart h.doms⟩

/-- A shadow set with entries laid over it. -/
def Shadow.with (h g : Shadow) : Shadow := ⟨putAll h.regs g.regs, putAll h.doms g.doms⟩

/-! ### Slots (R332 to R334) -/

/-- A tenant slot. -/
def State.tslot (s : State) (i : Nat) : TenantSlot := mapGetD TenantSlot.empty i s.slots

/-- The state with a tenant slot set. -/
def State.setTslot (s : State) (i : Nat) (t : TenantSlot) : State := { s with slots := mapSet i t s.slots }

/-- The minute of hall time (R343). -/
def minuteOf (t : Nat) : Nat := t / 60000000000

/-- Frames of a save area. -/
def saveFrames : Nat := 280

/-- n free frames of the fast tier beside those in use, from the free-value counter's place on. -/
def freeFrames (used : List Nat) : Nat → Nat → List Nat
  | 0, _ => []
  | n + 1, i =>
    let f := freeExtent used 512 196608 (Config.extentChoice i)
    f :: freeFrames (f :: used) n (i + 1)

/-- The two keys of a slot (R428): data key, then tweak key. -/
def State.slotKeys (s : State) (i tenant : Nat) : List Byte :=
  let tail := leBytes 4 tenant ++ leBytes 1 i
  sha3 (s.security.secret ++ [0x58, 0x54, 0x53, 0x31] ++ tail) ++ sha3 (s.security.secret ++ [0x58, 0x54, 0x53, 0x32] ++ tail)

/-- A slot registered (R332, R333). The same identity over a registered slot changes its SHARE; another needs the slot
deregistered first. -/
def State.registerTenant (s : State) (i tenant share : Nat) : Result :=
  let t := s.tslot i
  let code := firstFail [
    (decide (15 < i) || tenant == 0 || share == 0 || decide (65535 < share), abortCode 4 0),
    (s.slots.any (fun (e : Nat × TenantSlot) => e.1 != i && e.2.state != 0 && e.2.tenant == tenant), abortCode 4 0),
    (t.state != 0 && t.tenant != tenant, abortCode 7 0x82),
    (t.state == 0 && decide (s.tierFree 1 0 < saveFrames), abortCode 6 0x80)]
  if code ≠ 0 then (code, s)
  else if t.state ≠ 0 then (0, s.setTslot i { t with share := share })
  else
    let fs := freeFrames (s.usedExts 1 0) saveFrames s.free
    let s := s.draws saveFrames
    let s := { s with tiers := { s.tiers with saveFrames := mapSet i fs s.tiers.saveFrames } }
    (0, s.setTslot i { TenantSlot.empty with tenant := tenant, share := share, state := 1, key := s.slotKeys i tenant })

/-- What a tenant holds outside the swap leaves with it (R333): homes in every tier, KV users, commands, sealed images. -/
def State.dropTenant (s : State) (tenant : Nat) : State :=
  let s := s.abandonHomes tenant
  let s := ((s.tiers.homes.filter (fun h => h.tenant == tenant)).map (fun h => h.addr)).foldl State.freeHome s
  let s := (s.tiers.images.filter (fun x => x.tenant == tenant)).foldl State.dropImage s
  let t := s.tiers
  { s with tiers := { t with
      kv := t.kv.filter (fun u => u.tenant != tenant),
      cmds := t.cmds.filter (fun c => c.tenant != tenant), cmdSeq := mapDel tenant t.cmdSeq, result := mapDel tenant t.result,
      status := t.status.filter (fun e => e.1 / 16 != tenant) } }

/-- A slot deregistered (R333). -/
def State.deregisterTenant (s : State) (i : Nat) : Result :=
  let t := s.tslot i
  if 15 < i then (abortCode 4 0, s)
  else if t.state = 2 ∨ (s.swap.phase ≠ 0 ∧ s.swap.incoming = i) then (abortCode 7 0x82, s)
  else if t.state = 0 then (0, s)
  else
    let s := s.dropTenant t.tenant
    let fs := mapGetD [] i s.tiers.saveFrames
    let s := { s with tiers := { s.tiers with saveFrames := mapDel i s.tiers.saveFrames } }
    let s := fs.foldl (fun s f => s.zeroExtent (homeAddr 1 0 f)) s
    (0, s.setTslot i TenantSlot.empty)

/-- The 16 B of a slot's record (R332). -/
def State.tenantRecord (s : State) (i : Nat) : List Byte :=
  let t := s.tslot i
  leBytes 4 t.tenant ++ leBytes 2 t.share ++ leBytes 2 t.state ++ leBytes 4 t.saveSeq ++ leBytes 4 0

/-- A write of a record to a slot: identity 0 deregisters; STATE and SAVE_SEQ are read-only fields. -/
def State.writeTenantReg (s : State) (i : Nat) (bs : List Byte) : Result :=
  if bs.length ≠ 16 ∨ field (natAt bs 6 2) 3 13 ≠ 0 ∨ natAt bs 12 4 ≠ 0 then (abortCode 4 0, s)
  else if natAt bs 0 4 = 0 then s.deregisterTenant i
  else s.registerTenant i (natAt bs 0 4) (natAt bs 4 2)

/-! ### Accounts and interference (R342, R343) -/

/-- The 64 B account of a slot: cycles as nanoseconds. -/
def State.account (s : State) (i : Nat) : List Byte :=
  let t := s.tslot i
  (List.range 5).flatMap (fun e => leBytes 8 (t.cycles.getD e 0 * 20 / 17)) ++ leBytes 8 (t.cycles.getD 5 0 * 10 / 17) ++
    leBytes 8 t.beatsRun ++ leBytes 8 0

/-- 65,536 × w / (own + w), 0 where both are 0. -/
def slowdown (own w : Nat) : Nat := if own + w = 0 then 0 else 65536 * w / (own + w)

/-- The 32 B of a closed record: minute, beats, own flits, wait, and the two ratios. -/
def minuteBytes (m : List Nat) : List Byte :=
  let g := fun i => m.getD i 0
  leBytes 4 (g 0) ++ leBytes 4 (g 1) ++ leBytes 8 (g 2) ++ leBytes 8 (g 3) ++ leBytes 4 (slowdown (g 2) (g 3)) ++
    leBytes 4 (slowdown (g 4) (g 5))

/-- A slot's record for a minute is closed, the last 16 kept, and the next one opens. -/
def TenantSlot.closeMinute (t : TenantSlot) (next : Nat) : TenantSlot :=
  let l := t.records ++ [t.minute]
  { t with records := l.drop (l.length - 16), minute := [next, 0, 0, 0, 0, 0] }

/-- The running slot's record is closed where its minute has ended by hall time t. -/
def State.closeMinuteAt (s : State) (t : Nat) : State :=
  let i := s.slotNow
  let x := s.tslot i
  if i = 0xFF ∨ minuteOf t ≤ x.minute.getD 0 0 then s else s.setTslot i (x.closeMinute (minuteOf t))

/-- INTERFERENCE_MINUTE_CLOSE (R343). -/
def execInterferenceMinuteClose (s : State) : Host.Outcome State Fault Refusal := .next (s.closeMinuteAt s.time.hallTime)

/-! ### The swap (R338 to R341) -/

/-- The swap enters a phase; SWAP_STATE keeps LATE (R341). -/
def State.setPhase (s : State) (p : Nat) : State :=
  let s := { s with swap := { s.swap with phase := p, phaseAt := s.time.hallTime } }
  if s.reg Reg.swapState = 7 then s else s.setReg Reg.swapState p

/-- Nanoseconds of the phase that ends, in place i of SWAP_LAST_NS. -/
def State.timePhase (s : State) (i : Nat) : State :=
  { s with swap := { s.swap with times := s.swap.times.set i (s.time.hallTime - s.swap.phaseAt) } }

/-- Arming (R338). E, the incoming slot and S are those live at arming. -/
def State.armSwap (s : State) (teardown : Bool) (epoch incoming : Nat) : State :=
  let p := s.reg Reg.beatPeriod
  let s := { s with swap := { phase := 1, epoch := epoch, incoming := incoming, outgoing := s.slotNow,
                              phaseAt := s.time.hallTime, times := s.swap.times, restored := false, teardown := teardown } }
  (s.setReg Reg.swapState 1).setReg Reg.swapResumeBeat (epoch + (s.reg Reg.swapWindow + p - 1) / p)

/-- A write of SWAP_CMD (R338). -/
def State.writeSwapCmd (s : State) (v : Nat) : Result :=
  let inc := s.reg Reg.swapIncoming
  let st := (s.tslot inc).state
  match v with
  | 1 =>
    let code := firstFail [
      (decide (15 < inc) && inc != 0xFF, abortCode 4 0),
      (s.noBeat || !s.namedOk (s.reg Reg.swapEpoch) || s.swap.phase != 0 ||
        (inc != 0xFF && st != 1 && st != 3) || (mapGet (roleNum .mgr) s.commits).isSome, abortCode 7 0x81),
      (s.package.diagCmd == 4, abortCode 7 0),
      (s.reg Reg.bootStage == 0xE2 || s.reg Reg.bootStage == 0xE3, abortCode 7 0x90)]
    if code ≠ 0 then (code, s) else (0, s.armSwap false (s.reg Reg.swapEpoch) inc)
  | 2 =>
    if s.swap.phase ≠ 1 ∨ s.swap.teardown then (abortCode 7 0x81, s) else (0, s.setPhase 0)
  | _ => (abortCode 4 0, s)

/-- SWAP_ARM (R338). -/
def execSwapArm (r : Role) (s : State) : Host.Outcome State Fault Refusal :=
  .next (s.command r Reg.swapCmd (fun t => t.writeSwapCmd 1))

/-- SWAP_DISARM (R338). -/
def execSwapDisarm (r : Role) (s : State) : Host.Outcome State Fault Refusal :=
  .next (s.command r Reg.swapCmd (fun t => t.writeSwapCmd 2))

/-- Image loads that run end FAILED (R339 step 1). -/
def State.failLoads (s : State) : State :=
  let n := (s.platforms.images.filter (fun (e : Nat × ImageSlot) => e.2.state == 1)).length
  let s := { s with platforms := { s.platforms with images := s.platforms.images.map (fun (e : Nat × ImageSlot) =>
      if e.2.state = 1 then (e.1, { e.2 with state := 3 }) else e) } }
  s.count Reg.loadFails n

/-- Step 1 of R339 at tick E: a pending T commit is cancelled, home commands end ABANDONED, loads fail; with no tenant
running the swap goes to the scrub. -/
def State.startSwap (s : State) : State :=
  if s.slotNow = 0xFF then s.setPhase 4
  else
    let s := if (mapGet (roleNum .ten) s.commits).isSome then s.cancelCommit .ten else s
    ((s.abandonHomes s.tenantNow).failLoads).setPhase 2

/-- The swap's epoch where the tick of beat k is it. -/
def State.epochAt (s : State) (k : Nat) : State :=
  if s.swap.phase = 1 ∧ s.swap.epoch ≤ k then s.startSwap else s

/-- SWAP_EPOCH (R339 step 1): tick E, the one about to fall or the last. -/
def execSwapEpoch (s : State) : Host.Outcome State Fault Refusal := .next (if s.noBeat then s else s.epochAt s.nextBeat)

/-- Choices that have not settled when the drain ends settle as lost_fault (R111, R113, R339 step 2). -/
def State.settleOpen (s : State) : State :=
  let s := s.combine.manifests.foldl (fun s h => s.settleHeld h.pkt Reg.droppedCapacity (fun _ => Reg.lostFault)) s
  let n := s.combine.pending.length
  let s := (List.range n).foldl (fun s _ => s.settle Reg.lostFault) s
  { s with combine := { s.combine with pending := [], manifests := [], answers := [], refusals := [], known := [] } }

/-- Every outstanding remote request ends with a cause (R268). -/
def State.endRequests (s : State) (cause : Nat) : State :=
  s.cores.foldl (fun s (e : Nat × Core) =>
    let s := s.updCore e.1 (fun k => { k with rmWait := [] })
    e.2.rmOut.foldl (fun s r => if r.opc = 0 then s.failSlotColl e.1 r cause else s.failRm e.1 r cause) s) s

/-- Every collective in flight fails with a cause (R282). -/
def State.endColls (s : State) (cause : Nat) : State :=
  (List.range 8).foldl (fun s i => if (s.coll i).state = 1 then s.failColl i cause true else s) s

/-- The start of the save at tick E + 2. -/
def State.startSave (s : State) : State := (((s.settleOpen).endRequests 10).endColls 10).setPhase 3

/-- SWAP_SAVE_START (R339 step 2). -/
def execSwapSaveStart (s : State) : Host.Outcome State Fault Refusal :=
  .next (if s.swap.phase = 2 ∧ s.swap.epoch + 2 ≤ s.beatNow then s.startSave else s)

/-- The 128 bits of an accumulator entry (R147). -/
def AccEntry.word (e : AccEntry) : Nat :=
  packed [(0, 80, codeOf 80 e.acc), (80, 1, e.sat.toNat), (81, 1, e.nan.toNat), (82, 1, e.satNeg.toNat), (83, 1, e.fp32.toNat),
    (88, 9, codeOf 9 e.base)]

/-- The accumulator entry of 128 bits: an FP32 entry's ACC is the code of its value. -/
def AccEntry.ofWord (w : Nat) : AccEntry :=
  let fp := w.testBit 83
  ⟨if fp then (field w 0 80 : Nat) else signedOf 80 (field w 0 80), w.testBit 80, w.testBit 81, w.testBit 82, fp,
    signedOf 9 (field w 88 9)⟩

/-- The part of a core that a swap saves (R336): its stores, banks, segments, PERSISTENT counters and comparators, not its
weight registers or address registers; its accumulator entries are saved as words. -/
def Core.saved (k : Core) : Core :=
  { k with acc := [], active := LoadedTile.zero, standby := LoadedTile.zero, aregs := [], ctrs := k.ctrs.filter (fun e => k.isPersist (e.1 / 2)),
           seq := Sequencer.idle, ae := ⟨[], none⟩, se := ⟨[], none⟩, ve := ⟨[], none⟩, tt := ⟨[], none⟩, mv := ⟨[], none⟩,
           rmOut := [], rmWait := [], audits := [], seTile := none }

/-- Chains that stay with the tenant: those of sampled tokens that await embedding. -/
def keptChain (c : Chain) : Bool := c.pkt.hdr.kind == 7

/-- The software areas of the cluster caches (R288). -/
def State.softAreas (s : State) : List (Nat × List Host.Cell) :=
  s.tiers.shared.map (fun (e : Nat × List Host.Cell) =>
    (e.1, e.2.filter (fun c => decide (softBase ≤ c.1) && decide (c.1 < softBase + s.reg Reg.ccSoftBytes))))

/-- The poisoned words that lie in those areas. -/
def State.softBad (s : State) : List (Nat × Nat) :=
  s.tiers.sharedBad.filter (fun w => decide (softBase ≤ 8 * w.2) && decide (8 * w.2 < softBase + s.reg Reg.ccSoftBytes))

/-- What the swap saves of the running tenant (R336). -/
def State.savedTenant (s : State) : SavedTenant :=
  { regs := tenantPart s.regs, doms := tenantPart s.doms, shadowT := (s.shadow .ten).tenantOnly,
    shadowM := (s.shadow .mgr).tenantOnly, cores := s.cores.map (fun (e : Nat × Core) => (e.1, e.2.saved)),
    accs := s.cores.map (fun (e : Nat × Core) => (e.1, e.2.acc.map (fun x => (x.1, x.2.word)))),
    shared := s.softAreas, sharedBad := s.softBad, tableBad := s.tiers.tableBad,
    platforms := { s.platforms with queues := [], kvBytes := 0 },
    pools := { s.pools with chains := s.pools.chains.filter keptChain, stripes := [], marks := [], failed := [] },
    combine := s.combine, exits := [], streams := s.streams, clip := s.clip, yards := { s.yards with replies := [], inputs := [], kept := [] },
    rmem := { s.rmem with directory := [], copies := [], held := [], recallInv := [] }, colls := s.colls }

/-- Whether a line lies in the save area of a slot: a frame of the fast tier has 32,768 lines. -/
def State.inSaveArea (s : State) (i line : Nat) : Bool := (mapGetD [] i s.tiers.saveFrames).contains (line / 32768)

/-- A save writes its lines whole, which clears their poison (R294). -/
def State.writeSaveArea (s : State) (i : Nat) : State :=
  { s with tiers := { s.tiers with hbmBad := s.tiers.hbmBad.filter (fun l => !s.inSaveArea i l) } }

/-- Whether a line of a slot's save area is poisoned, which fails the read of a restore (R294, R341). -/
def State.saveAreaBad (s : State) (i : Nat) : Bool := s.tiers.hbmBad.any (s.inSaveArea i)

/-- The tenant's state has left for its save area: SAVE_SEQ rises, the slot is SUSPENDED, its minute record closes. -/
def State.suspend (s : State) : State :=
  let i := s.slotNow
  let s := if s.reg Reg.sessionBind = i then s.endTenantTransfer else s
  let dead := s.pools.chains.filter (fun c => !keptChain c)
  let s := dead.foldl State.freeChain s
  let t := (s.tslot i).closeMinute (minuteOf s.time.hallTime)
  let q := (t.saveSeq + 1) % 2 ^ 32
  let s := (s.setTslot i { t with state := 3, saveSeq := q, saved := some (t.tenant, q, s.savedTenant) }).writeSaveArea i
  ((s.setReg Reg.runningSlot 0xFF).timePhase 0).setPhase 4

/-- SWAP_SAVE_DONE (R339 step 2). -/
def execSwapSaveDone (s : State) : Host.Outcome State Fault Refusal :=
  .next (if s.swap.phase = 3 ∧ s.slotNow ≠ 0xFF then s.suspend else s)

/-- The Junction without the buffered packets of a job (R339 step 3). -/
def State.scrubFabric (s : State) (job : Nat) : State :=
  s.dropPackets (fun p => p.route.job == job && p.route.cls != 5)

/-- The scrub (R339 step 3): every store of the die that held tenant state is zero, the tenant objects hold their reset
values, the free lists are rebuilt and POOL_BROKEN is clear. -/
def State.scrub (s : State) : State :=
  let s := s.scrubFabric (s.reg Reg.jobId)
  let s := { s with
    regs := devicePart s.regs, doms := devicePart s.doms, latch := devicePart s.latch, cores := [], lines := [], platforms := Platforms.empty,
    pools := Pools.empty, combine := Combine.empty, exits := [], streams := Streams.empty, colls := [], clip := ⟨[], 0, none⟩,
    yards := ⟨false, 0, false, [], [], []⟩, prior := [],
    rmem := { s.rmem with directory := [], copies := [], held := [], recallInv := [], faults := [], early := [] },
    tiers := { s.tiers with shared := [], sharedBad := [], tableBad := [] } }
  let s := s.setShadow .ten (s.shadow .ten).deviceOnly
  (s.setShadow .mgr (s.shadow .mgr).deviceOnly).stale347 true

/-- The end of the scrub: the swap without an incoming tenant ends, else the restore begins. A teardown goes on to the drain
of its ports (R359 step 2). -/
def State.afterScrub (s : State) : State :=
  let s := (s.scrub).timePhase 1
  if s.swap.incoming ≠ 0xFF then s.setPhase 5
  else
    let td := s.swap.teardown
    let s := (s.count Reg.swaps 1).setPhase 0
    let s := { s with swap := { s.swap with teardown := false } }
    if td then
      let j := s.fabric
      { s.setReg Reg.drainState 1 with fabric := { j with drainAt := s.time.hallTime, drainOwn := true } }
    else s

/-- SWAP_SCRUB_DONE (R339 step 3). -/
def execSwapScrubDone (s : State) : Host.Outcome State Fault Refusal :=
  .next (if s.swap.phase = 4 then s.afterScrub else s)

/-- A pool with its free list rebuilt around the cells that chains hold (R328). -/
def Pool.rebuilt (p : Pool) (held : List Nat) : Pool :=
  let top := (held.map (· + 1)).foldl max 0
  { p with freed := (List.range top).filter (fun c => !held.contains c), fresh := top, broken := false, linkBad := false,
           waiting := [] }

/-- A saved tenant back in place (R339 step 4): pools as R328 states, tracked lines UNCACHED (R268). -/
def State.putTenant (s : State) (v : SavedTenant) : State :=
  let heldIn := fun (k : Nat) => (v.pools.chains.filter (fun c => c.cluster == k)).flatMap (fun c => c.cells)
  let pools := { v.pools with pools := v.pools.pools.map (fun (e : Nat × Pool) => (e.1, e.2.rebuilt (heldIn e.1))) }
  let entries := fun (c : Nat) => (mapGetD [] c v.accs).map (fun x => (x.1, AccEntry.ofWord x.2))
  let cores := v.cores.map (fun (e : Nat × Core) => (e.1, { e.2 with acc := entries e.1 }))
  let s := { s with
    regs := putAll s.regs v.regs, doms := putAll s.doms v.doms, cores := cores, platforms := v.platforms, pools := pools,
    combine := v.combine, streams := v.streams, clip := v.clip, yards := v.yards, rmem := v.rmem, colls := v.colls,
    tiers := { s.tiers with shared := v.shared, sharedBad := v.sharedBad, tableBad := v.tableBad } }
  let s := s.setShadow .ten ((s.shadow .ten).with v.shadowT)
  s.setShadow .mgr ((s.shadow .mgr).with v.shadowM)

/-- The slot of the incoming tenant runs, and its queued home commands with it (R310). -/
def State.runSlot (s : State) (i : Nat) : State :=
  let t := s.tslot i
  let t := { t with state := 2, saved := none, minute := [minuteOf s.time.hallTime, 0, 0, 0, 0, 0] }
  let s := ((s.setTslot i t).setReg Reg.runningSlot i).stale347 true
  ((({ s with swap := { s.swap with restored := true } }).timePhase 2).setPhase 6).pumpHomes

/-- A restore that fails its check or its read (R341): scrubbed again, the slot SWAP_FAILED, SWAP_STATE FAILED, counted and
reported. -/
def State.failRestore (s : State) (i : Nat) : State :=
  let s := s.scrub
  let s := s.setTslot i { s.tslot i with state := 4, saved := none }
  let s := { s with swap := { s.swap with phase := 0 } }
  ((s.setReg Reg.swapState 8).count Reg.restoreFails 1).deviceFatal 4

/-- SWAP_RESTORE_DONE (R339 step 4, R341): the read has ended, and no line of the save area failed it; the header's identity
and sequence number must be the slot's. -/
def execSwapRestoreDone (readOk : Bool) (s : State) : Host.Outcome State Fault Refusal :=
  .next (
    if s.swap.phase ≠ 5 then s
    else
      let i := s.swap.incoming
      let t := s.tslot i
      if t.state = 1 then s.runSlot i
      else match t.saved with
        | none => s.failRestore i
        | some (id, q, v) =>
          if readOk ∧ !s.saveAreaBad i ∧ t.state = 3 ∧ id = t.tenant ∧ q = t.saveSeq then (s.putTenant v).runSlot i else s.failRestore i)

/-- Step 5 of R339 and R341, where the tick of beat k is S: the incoming tenant resumes, its residuals for attention in beat
k; a restore that is not complete is LATE. -/
def State.resumeAt (s : State) (k : Nat) : State :=
  if s.swap.phase < 2 ∨ s.swap.incoming = 0xFF ∨ k < s.reg Reg.swapResumeBeat then s
  else if s.reg Reg.swapState = 7 then s
  else if s.swap.phase = 6 then
    let rs := s.combine.residuals.map (fun (r : Residual) => { r with beat := k })
    let s := { s with combine := { s.combine with residuals := rs } }
    (s.setPhase 0).count Reg.swaps 1
  else ((s.setReg Reg.swapState 7).count Reg.swapLate 1).deviceFatal 3

/-- SWAP_RESUME (R339 step 5): tick S, the one about to fall or the last. -/
def execSwapResume (s : State) : Host.Outcome State Fault Refusal := .next (if s.noBeat then s else s.resumeAt s.nextBeat)

/-! ### Registration and sessions -/

/-- TENANT_REGISTER (R332, R333). -/
def execTenantRegister (r : Role) (slot tenant share : Nat) (s : State) : Host.Outcome State Fault Refusal :=
  .next (s.command r Reg.tenantReg (fun t => t.registerTenant slot tenant share))

/-- TENANT_DEREGISTER (R333). -/
def execTenantDeregister (r : Role) (slot : Nat) (s : State) : Host.Outcome State Fault Refusal :=
  .next (s.command r Reg.tenantReg (fun t => t.deregisterTenant slot))

/-! ### The reproducibility key (R347) -/

/-- The DIGEST of a core's active bank, and that of its live segment templates; zeros where absent or disabled. -/
def State.coreDigests (s : State) (c : Nat) : List Byte :=
  let k := s.core c
  let zeros := List.replicate 32 (0 : Byte)
  if !s.coreOn c then zeros ++ zeros
  else
    let b := if k.bank0.state = 4 then k.bank0.digest else if k.bank1.state = 4 then k.bank1.digest else zeros
    let t := s.dom (Reg.segTemplates c)
    b ++ (if t.len = 0 then zeros else t.slice 24 32)

/-- The placement string. -/
def State.placementString (s : State) : List Byte :=
  (s.dom Reg.layerSlotCfg).bytes ++
    s.activeSlots.flatMap (fun i => (s.dom (slotKey Reg.expertMap i)).bytes ++ (s.dom (slotKey Reg.sendGrants i)).bytes) ++
    (s.dom Reg.recvGrants).bytes ++ (s.dom Reg.platformTable).bytes ++ (s.dom Reg.platformRes).bytes ++
    leBytes 2 (s.reg Reg.hiddenWidth) ++ (List.range 128).flatMap s.coreDigests

/-- The 64 B key record. -/
def State.keyRecord (s : State) : List Byte :=
  leBytes 4 0x52594B31 ++ leBytes 2 s.nv.factory.stepping ++ leBytes 1 s.nv.factory.grade ++ leBytes 1 0 ++
    leBytes 4 (s.reg Reg.fwBuild) ++ leBytes 2 (s.reg Reg.numericRev) ++ leBytes 1 (s.reg Reg.readoutSubnorm) ++
    leBytes 1 (s.reg Reg.satReadout) ++ leBytes 4 (s.reg Reg.beatPeriod) ++ leBytes 2 (s.reg Reg.rankCount) ++
    leBytes 2 s.myRank ++ leBytes 8 0 ++ sha3 s.placementString

/-- REPRO_KEY_RECOMPUTE (R347): the key of the live inputs; REPRO_STALE reads 0. -/
def execReproKeyRecompute (s : State) : Host.Outcome State Fault Refusal :=
  let r := s.keyRecord
  let s := { s with security := { s.security with repro := r } }
  .next ((s.setDom Reg.reproKey (Blob.ofBytes (sha3 r))).setReg Reg.reproStale 0)

end Sys2Proof.Machine
end

