-- ==== Sys2Proof/Machine/Manager.lean ====
section
/-! DEFINITION. Manager and workers (R352 to R369): discovery, heartbeats, adoption, partition start and teardown, fault
reports, FAULT_HOLD and re-admission, stand-ins and replicas. -/

namespace Sys2Proof.Machine

open Sys2Proof

/-! ### Discovery and heartbeats (R353, R354) -/

/-- A management message taken from the landing list. -/
def State.takeMsg (s : State) (m : MgmtMsg) : State := s.takeLanding (.mgmt m)

/-- The state with the domain table changed; DOMAIN_SIZE counts its devices. -/
def State.setDomain (s : State) (l : List DomainDev) : State :=
  ({ s with manager := { s.manager with domain := l } }).setReg Reg.domainSize l.length

/-- A device of the domain changed. -/
def State.updDev (s : State) (dev : Nat) (f : DomainDev → DomainDev) : State :=
  s.setDomain (s.manager.domain.map (fun d => if d.loc == dev then f d else d))

/-- Devices a manager holds at most. -/
def domainMax : Nat := 1023

/-- Whether a discovery or adoption message carries the device's own domain. -/
def State.ownDomain (s : State) (domain : Nat) : Bool := domain != 0 && domain == s.reg Reg.domainId

/-- A HELLO at a manager: admitted, or refused and counted where the domain is full. A device that was LOST and says HELLO is
one that has booted again (assumption 146). -/
def State.admitDev (s : State) (loc : Nat) : State :=
  let reply := fun (s : State) => s.sendMgmt loc (.admitted s.here (s.reg Reg.domainId))
  if s.inDomain loc then reply (s.updDev loc (fun d => { d with lost := false, failedBy := [], heardAt := s.time.hallTime }))
  else if domainMax ≤ s.manager.domain.length then s.count Reg.admitRefused 1
  else
    let stand := Config.isStandby loc && !s.manager.domain.any (fun d => d.standby)
    reply (s.setDomain (s.manager.domain ++ [⟨loc, stand, 1, 0, false, [], s.time.hallTime⟩]))

/-- HELLO (R353): the manager of the domain admits the sender; an admitted worker of it forwards the HELLO. -/
def execHello (location grade stepping domain : Nat) (s : State) : Host.Outcome State Fault Refusal :=
  let m : MgmtMsg := .hello location grade stepping domain
  let s := s.takeMsg m
  .next (
    if !s.ownDomain domain then s
    else if s.manager.roleLive = 2 then s.admitDev location
    else if s.reg Reg.mgrState = 1 then s.sendMgmt (s.reg Reg.managerLoc) m
    else s)

/-- ADMIT_REPLY (R353): a worker or standby of the domain records its manager and is ADMITTED. -/
def execAdmitReply (manager domain : Nat) (s : State) : Host.Outcome State Fault Refusal :=
  let s := s.takeMsg (.admitted manager domain)
  .next (
    if !s.ownDomain domain ∨ (s.manager.roleLive ≠ 1 ∧ s.manager.roleLive ≠ 3) then s
    else
      let s := { s with manager := { s.manager with lastHeard := s.time.hallTime, silent := false } }
      (s.setReg Reg.managerLoc manager).setReg Reg.mgrState 1)

/-- ADOPT (R354): a worker whose manager is silent accepts the standby manager of its domain. -/
def execAdopt (standby domain : Nat) (s : State) : Host.Outcome State Fault Refusal :=
  let s := s.takeMsg (.adopt standby domain)
  .next (
    if !s.ownDomain domain ∨ s.manager.roleLive ≠ 1 ∨ !s.manager.silent then s
    else
      let s := { s with manager := { s.manager with lastHeard := s.time.hallTime, silent := false } }
      (s.setReg Reg.managerLoc standby).count Reg.adoptions 1)

/-- HEARTBEAT_SEND (R354): an admitted worker sends a heartbeat to its manager. -/
def execHeartbeatSend (s : State) : Host.Outcome State Fault Refusal :=
  .next (if s.reg Reg.mgrState = 1 ∧ !s.manager.mgmtDead then s.sendMgmt (s.reg Reg.managerLoc) (.heartbeat s.here) else s)

/-- A heartbeat of its domain at a manager: answered, the answer copied to the standby with the device it answers, and the
device's PART_STATE taken. -/
def State.answerBeat (s : State) (sender : Nat) : State :=
  let f := s.fresh
  let s := f.2.updDev sender (fun d => { d with mgrState := 1, partState := Config.heardPart f.1 % 6, heardAt := s.time.hallTime })
  let stand := s.manager.domain.filter (fun d => d.standby && d.loc != sender)
  stand.foldl (fun s d => s.sendMgmt d.loc (.heartbeat sender)) (s.sendMgmt sender (.heartbeat s.here))

/-- A device that has heard its manager; a standby keeps the devices whose answers are copied to it. -/
def State.heardManager (s : State) (dev : Nat) : State :=
  let m := { s.manager with lastHeard := s.time.hallTime, silent := false }
  let new := s.manager.roleLive == 3 && dev != s.reg Reg.managerLoc && !s.inDomain dev
  { s with manager := if new then { m with domain := m.domain ++ [⟨dev, false, 1, 0, false, [], s.time.hallTime⟩] } else m }

/-- HEARTBEAT_RECEIVE (R354): a manager answers a device of its domain and copies the answer to the standby; a worker or
standby has heard its manager. -/
def execHeartbeatReceive (sender : Nat) (s : State) : Host.Outcome State Fault Refusal :=
  let s := s.takeMsg (.heartbeat sender)
  .next (
    if s.manager.roleLive = 2 then (if s.inDomain sender then s.answerBeat sender else s)
    else if s.reg Reg.mgrState = 1 ∧ (sender = s.reg Reg.managerLoc ∨ s.manager.roleLive = 3) then s.heardManager sender
    else s)

/-- The standby becomes the manager and adopts the devices it knows of (R354). -/
def State.promote (s : State) : State :=
  let devs := s.manager.domain.map (fun d => d.loc)
  let s := { s with manager := { s.manager with roleLive := 2 } }
  let s := (s.setReg Reg.mgrState 0).setDomain s.manager.domain
  devs.foldl (fun s d => s.sendMgmt d (.adopt s.here (s.reg Reg.domainId))) s

/-- The manager has been silent: the device marks it, and its hall time goes to HOLDOVER (R31, R354). -/
def State.markSilent (s : State) : State :=
  let s := { s with manager := { s.manager with silent := true } }
  if s.reg Reg.timeState = 1 ∨ s.reg Reg.timeState = 2 then s.enterHoldover else s

/-- MGR_SILENCE_EXPIRY (R354): nothing was heard from the manager for MGR_SILENCE; hall time goes to HOLDOVER, and a standby
manager adopts the domain. -/
def execMgrSilenceExpiry (s : State) : Host.Outcome State Fault Refusal :=
  .next (
    if s.reg Reg.mgrState ≠ 1 then s
    else
      let s := (s.advanceTo (s.manager.lastHeard + s.reg Reg.mgrSilence)).markSilent
      if s.manager.roleLive = 3 then s.promote else s)

/-! ### Reports (R361, R432) -/

/-- The manager declares a device LOST, once. -/
def State.declareLost (s : State) (dev : Nat) : State :=
  if s.manager.domain.any (fun d => d.loc == dev && !d.lost) then
    (s.updDev dev (fun d => { d with lost := true })).count Reg.devicesLost 1
  else s

/-- HEARTBEAT_MISSING (R361): a device has sent no heartbeat for 3 × HEARTBEAT, which is over now. -/
def execHeartbeatMissing (dev : Nat) (s : State) : Host.Outcome State Fault Refusal :=
  .next (
    if s.manager.roleLive = 2 then
      match s.manager.domain.find? (fun d => d.loc == dev && !d.lost) with
      | some d => (s.advanceTo (d.heardAt + 3 * s.reg Reg.heartbeat)).declareLost dev
      | none => s
    else s)

/-- Whether two devices are L1 peers: of one quad (R223). -/
def l1Peers (a b : Nat) : Bool := a != b && a / 4 == b / 4

/-- PORT_FAILED (R361): a received report is logged (the manager's own was as its port failed); reports of two of a device's L1 peers declare it LOST. -/
def execPortFailed (port peer reporter : Nat) (s : State) : Host.Outcome State Fault Refusal :=
  let s := s.takeMsg (.report 1 peer port)
  .next (
    if s.manager.roleLive ≠ 2 then s
    else
      let s := if reporter = s.here then s else s.logReport 1 peer port
      if !l1Peers peer reporter then s
      else
        let s := s.updDev peer (fun d => if d.failedBy.contains reporter then d else { d with failedBy := d.failedBy ++ [reporter] })
        if s.manager.domain.any (fun d => d.loc == peer && decide (2 ≤ d.failedBy.length)) then s.declareLost peer else s)

/-- LANE_REMAPPED (R361): a received report is logged. -/
def execLaneRemapped (port lane reporter : Nat) (s : State) : Host.Outcome State Fault Refusal :=
  let s := s.takeMsg (.report 2 port lane)
  .next (if s.manager.roleLive = 2 ∧ s.inDomain reporter then s.logReport 2 port lane else s)

/-- DEVICE_FAULT (R361, R366, R433): a cause of the device's own is reported and holds beat work from the next tick on; a
received report is logged and declares its sender LOST. -/
def execDeviceFault (cause reporter : Nat) (s : State) : Host.Outcome State Fault Refusal :=
  .next (
    if reporter = s.here then (if 1 ≤ cause ∧ cause ≤ 6 then s.deviceFatal cause else s)
    else
      let s := s.takeMsg (.report 3 0 cause)
      if s.manager.roleLive = 2 ∧ s.inDomain reporter then (s.logReport 3 0 cause).declareLost reporter else s)

/-- TENANT_ERROR (R432): a class 3 error of the device is reported; a received report is logged. -/
def execTenantError (unit cause reporter : Nat) (s : State) : Host.Outcome State Fault Refusal :=
  .next (
    if reporter = s.here then (if unit ≤ 144 ∧ 1 ≤ cause ∧ cause ≤ 9 then s.tenantFault unit cause else s)
    else
      let s := s.takeMsg (.report 4 unit cause)
      if s.manager.roleLive = 2 ∧ s.inDomain reporter then s.logReport 4 unit cause else s)

/-- MGMT_CORE_MISS (R433, R434): only the summary and BOOT_STAGE answer from then on. -/
def execMgmtCoreMiss (s : State) : Host.Outcome State Fault Refusal :=
  .next (if s.manager.causes.contains 6 then s else s.deviceFatal 6)

/-! ### Partitions (R356 to R359) -/

/-- Whether every port of START_SHARED reports its drain over: DRAINED, or TIMED_OUT, after which the start proceeds
(R358). -/
def State.sharedDrained (s : State) : Bool :=
  let m := s.reg Reg.startShared
  m == 0 || ((s.reg Reg.drainState == 2 || s.reg Reg.drainState == 3) && (m &&& s.reg Reg.drainPorts) == m)

/-- A write of PART_CMD (R357, R359). -/
def State.writePartCmd (s : State) (v : Nat) : Result :=
  let b := s.reg Reg.partBeat
  match v with
  | 1 =>
    let code := firstFail [
      (s.reg Reg.bootStage == 0xE2 || s.reg Reg.bootStage == 0xE3, abortCode 7 0x90),
      (s.part != 1, abortCode 7 0x90),
      (s.reg Reg.thermalState == 2, abortCode 7 0x91),
      (!s.time.anchored || !s.namedOk b, abortCode 7 1),
      (s.package.diagCmd == 4, abortCode 7 0)]
    if code ≠ 0 then (code, s)
    else
      let s := { s with manager := { s.manager with partDue := some (b, false) } }
      (0, if s.reg Reg.startShared = 0 then s else (s.setReg Reg.partState 2).count Reg.startHolds 1)
  | 2 =>
    if s.part = 0 then (abortCode 7 0x90, s)
    else (0, { s with manager := { s.manager with partDue := some (b, true) } })
  | _ => (abortCode 4 0, s)

/-- START (R357). -/
def execStart (r : Role) (s : State) : Host.Outcome State Fault Refusal :=
  .next (s.command r Reg.partCmd (fun t => t.writePartCmd 1))

/-- TEARDOWN (R359). -/
def execTeardown (r : Role) (s : State) : Host.Outcome State Fault Refusal :=
  .next (s.command r Reg.partCmd (fun t => t.writePartCmd 2))

/-- The start of the partition where the tick of beat k is at or after PART_BEAT and the shared ports are drained (R358). -/
def State.startAt (s : State) (k : Nat) : State :=
  match s.manager.partDue with
  | some (b, false) =>
    if b ≤ k ∧ s.sharedDrained ∧ (s.part = 1 ∨ s.part = 2) then
      let m := { s.manager with partDue := none }
      let t := { s.time with joined := true }
      ({ s with manager := m, time := t }).setReg Reg.partState 3
    else s
  | _ => s

/-- PARTITION_RUN (R358), at the tick about to fall. -/
def execPartitionRun (s : State) : Host.Outcome State Fault Refusal :=
  .next (if s.time.anchored then s.startAt s.nextBeat else s)

/-- The teardown where the tick of beat k is at or after T (R359): the sequence of R339 with no incoming tenant; an armed
swap gives way. -/
def State.teardownAt (s : State) (k : Nat) : State :=
  match s.manager.partDue with
  | some (b, true) =>
    if b ≤ k ∧ s.swap.phase ≤ 1 then
      let s := { s with manager := { s.manager with partDue := none, teardownT := some k } }
      ((s.setReg Reg.partState 4).armSwap true k 0xFF).startSwap
    else s
  | _ => s

/-- TEARDOWN_BEAT (R359), at the tick about to fall. -/
def execTeardownBeat (s : State) : Host.Outcome State Fault Refusal :=
  .next (if s.time.anchored then s.teardownAt s.nextBeat else s)

/-! ### FAULT_HOLD and re-admission (R366) -/

/-- Whether a device-fault cause has cleared (R366, R433, R434): TIME_HOLD when LOCKED again, thermal hold when its state has
left hold, a late swap when its restore has ended, a failed one when no slot is SWAP_FAILED; 5 and 6 only at a reset. -/
def State.causeCleared (s : State) (c : Nat) : Bool :=
  match c with
  | 1 => s.reg Reg.timeState == 2
  | 2 => s.reg Reg.thermalState != 2
  | 3 => s.swap.restored
  | 4 => !s.slots.any (fun (e : Nat × TenantSlot) => e.2.state == 4)
  | _ => false

/-- A write of ADMIT. -/
def State.writeAdmit (s : State) (b : Nat) : Result :=
  (0, { s with manager := { s.manager with admitBeat := some b } })

/-- ADMIT (R366). -/
def execReadmit (r : Role) (beat : Nat) (s : State) : Host.Outcome State Fault Refusal :=
  .next (s.command r Reg.readmitBeat (fun t => t.writeAdmit (beat % 2 ^ 64)))

/-- The re-admission where the tick of beat k is at or after its beat and every cause has cleared (R366): beat work resumes
with the state held; a late swap is over (R341). -/
def State.rejoinAt (s : State) (k : Nat) : State :=
  match s.manager.admitBeat with
  | none => s
  | some b =>
    if b ≤ k ∧ s.manager.causes ≠ [] ∧ s.manager.causes.all s.causeCleared then
      let m := { s.manager with causes := [], admitBeat := none }
      let bt := { s.beat with holdNext := false }
      let s : State := { s with manager := m, beat := bt }
      let s := if s.part = 5 then s.setReg Reg.partState 3 else s
      if s.reg Reg.swapState = 7 then ((s.setReg Reg.swapState 0).setPhase 0).count Reg.swaps 1 else s
    else s

/-- REJOIN (R366), at the tick about to fall. -/
def execRejoin (s : State) : Host.Outcome State Fault Refusal :=
  .next (if s.time.anchored then s.rejoinAt s.nextBeat else s)

/-! ### Stand-ins (R364, R365) -/

/-- The records of REPLICA: protected rank and image. -/
def State.replicaRecs (s : State) : List (Nat × Nat) :=
  let b := s.dom Reg.replica
  (List.range (b.len / 8)).map (fun i => (b.nat (8 * i) 2, b.nat (8 * i + 2) 2))

/-- The load state of a protected rank's replica. -/
def State.replicaState (s : State) (rank : Nat) : Nat := mapGetD 0 rank s.manager.replica

/-- The state with a replica's load state set. -/
def State.setReplica (s : State) (rank v : Nat) : State :=
  { s with manager := { s.manager with replica := mapSet rank v s.manager.replica } }

/-- A replica that has loaded lies in the scratchpad held in reserve (R364). -/
def State.keepReplica (s : State) (rank : Nat) (body : List Byte) : State :=
  { s with platforms := { s.platforms with reserve := mapSet rank body s.platforms.reserve } }

/-- FAILOVER (R364): the stand-in starts to load the lost rank's replica. -/
def execFailover (lost standin : Nat) (s : State) : Host.Outcome State Fault Refusal :=
  let s := s.takeMsg (.failover lost standin)
  .next (
    if s.myRankOpt ≠ some standin ∨ !s.replicaRecs.any (fun r => r.1 == lost) then s
    else
      let s := { s with manager := { s.manager with ended := s.manager.ended.filter (fun e => e.1 != lost) } }
      s.setReplica lost 1)

/-- REPLICA_LOAD_DONE (R119, R364): READY and in the reserve when the read held, the image is stored, is small enough and its
digest matches; else FAILED and counted. -/
def execReplicaLoadDone (rank : Nat) (ok : Bool) (s : State) : Host.Outcome State Fault Refusal :=
  .next (
    if s.replicaState rank ≠ 1 then s
    else match (s.replicaRecs.find? (fun r => r.1 == rank)).bind (fun r => s.imageOf s.tenantNow r.2) with
      | none => (s.setReplica rank 3).count Reg.replicaFails 1
      | some i =>
        let f := s.readImage i ok
        if f.1 ∧ i.body.length ≤ 33554432 ∧ sha3 i.body = i.digest then (f.2.setReplica rank 2).keepReplica rank i.body
        else (f.2.setReplica rank 3).count Reg.replicaFails 1)

/-- The lost rank whose packets a Manifest brings to this stand-in. -/
def State.lostRankOf (s : State) (p : BeatPacket) : Option Nat :=
  if p.hdr.dstRank ≠ s.myRank ∧ s.standInOf p.hdr.dstRank = some s.myRank then some p.hdr.dstRank else none

/-- A user of a lost rank at the stand-in (R364, R365): its first token ends its request with cause 4 FAULT; where the
replica did not load, the rank's users stay unserved and every token's request ends. -/
def State.standInToken (s : State) (rank : Nat) (t : TokenId) : State :=
  let e := (rank, t.tag, t.lane)
  if s.manager.ended.contains e ∧ s.replicaState rank = 2 then s
  else
    let s := s.endRequest t 4
    { s with manager := { s.manager with ended := if s.manager.ended.contains e then s.manager.ended else s.manager.ended ++ [e] } }

end Sys2Proof.Machine
end

