-- ==== Sys2Proof/Machine/Persist.lean ====
section
/-! DEFINITION. Persistence, firmware images, attestation, diagnostics and the clears of sticky flags (R126, R166 to R169,
R405 to R430). -/

namespace Sys2Proof.Machine

open Sys2Proof

/-! ### The factory record (R420) -/

/-- The bytes of the factory record: the header, the certificate, the trim section and the signature. -/
def Factory.bytes (f : Factory) : List Byte :=
  let certLen := f.cert.length
  let trimLen := f.trim.length
  leBytes 4 0x46524331 ++ leBytes 2 1 ++ leBytes 2 0 ++ leBytes 4 (128 + certLen + trimLen + f.sig.length) ++
    leBytes 8 f.serial ++ leBytes 2 f.stepping ++ leBytes 1 f.grade ++ leBytes 1 3 ++ leBytes 16 f.coreMap ++
    leBytes 4 128 ++ leBytes 4 certLen ++ leBytes 4 (128 + certLen) ++ leBytes 4 trimLen ++ bytesAt f.part 0 32 ++
    leBytes 40 0 ++ f.cert ++ f.trim ++ f.sig

/-! ### Settings banks (R402, R415 to R419) -/

/-- The keys of the objects flagged P, in ascending order. -/
def persistKeys : List Nat :=
  sortBy (fun a b => decide (a ≤ b)) ((catalogue.filter (fun r => r.persist)).flatMap (fun r =>
    (List.range (r.last - r.index + 1)).map (fun i => objKey (r.index + i) r.sub)))

/-- The live values that a store captures. -/
def State.captured (s : State) : List (Nat × Nat) := persistKeys.map (fun k => (k, s.reg k))

/-- Bytes of a number's type. -/
def typeBytes : OType → Nat
  | .bool => 1
  | .u8 => 1
  | .u16 => 2
  | .u32 => 4
  | .u64 => 8
  | .i32 => 4
  | .f32 => 4
  | .vstr => 0
  | .dom => 0

/-- A sequence number x newer than y (R418). -/
def seqNewer (x y : Nat) : Bool :=
  let d := (x + 2 ^ 32 - y % 2 ^ 32) % 2 ^ 32
  decide (1 ≤ d) && decide (d < 2 ^ 31)

/-- The bank that boot selects: 0 A, 1 B, none. -/
def NonVolatile.selected (n : NonVolatile) : Option Nat :=
  if n.bankA.valid && n.bankB.valid then some (if seqNewer n.bankB.seqNo n.bankA.seqNo then 1 else 0)
  else if n.bankA.valid then some 0
  else if n.bankB.valid then some 1
  else none

/-- The bank a store writes: an invalid one, else the older. -/
def NonVolatile.target (n : NonVolatile) : Nat :=
  if !n.bankA.valid then 0 else if !n.bankB.valid then 1 else if seqNewer n.bankB.seqNo n.bankA.seqNo then 0 else 1

/-- A bank of the non-volatile memory. -/
def NonVolatile.bank (n : NonVolatile) (i : Nat) : NvBank := if i = 0 then n.bankA else n.bankB

/-- The non-volatile memory with a bank written. -/
def NonVolatile.setBank (n : NonVolatile) (i : Nat) (b : NvBank) : NonVolatile :=
  if i = 0 then { n with bankA := b } else { n with bankB := b }

/-- The sequence number a new image takes. -/
def NonVolatile.nextSeq (n : NonVolatile) : Nat :=
  match n.selected with
  | none => 1
  | some i => ((n.bank i).seqNo + 1) % 2 ^ 32

/-- One more store made to a bank (R416). -/
def NonVolatile.countStore (n : NonVolatile) (i : Nat) : NonVolatile :=
  if i = 0 then { n with storesA := (n.storesA + 1) % 2 ^ 32 } else { n with storesB := (n.storesB + 1) % 2 ^ 32 }

/-- A store that ends FAILED, or is cut by a reset, leaves its target bank invalid (R416). -/
def NonVolatile.failStore (n : NonVolatile) : NonVolatile :=
  match n.storing with
  | none => n
  | some (i, _) => { (n.setBank i { n.bank i with valid := false }).countStore i with storing := none }

/-- The key word of STORE and of RESTORE_DEFAULTS (R401). -/
def storeWord (restore : Bool) : Nat := if restore then 0x64666C74 else 0x73746F72

/-- A write of STORE, or of RESTORE_DEFAULTS, whose image holds no entry (R402, R415, R417). -/
def State.writeStore (s : State) (restore : Bool) (v : Nat) : Result :=
  if v ≠ storeWord restore then (abortCode 4 0, s)
  else if s.reg Reg.storeState = 1 then (abortCode 7 0, s)
  else
    let n := { s.nv with storing := some (s.nv.target, if restore then [] else s.captured) }
    (0, { s with nv := n }.setReg Reg.storeState 1)

/-- STORE (R415). -/
def execStore (r : Role) (value : Nat) (s : State) : Host.Outcome State Fault Refusal :=
  .next (s.command r Reg.storeCmd (fun t => t.writeStore false value))

/-- RESTORE_DEFAULTS (R417). -/
def execRestoreDefaults (r : Role) (value : Nat) (s : State) : Host.Outcome State Fault Refusal :=
  .next (s.command r Reg.restoreDefaults (fun t => t.writeStore true value))

/-- STORE_DONE (R415, R416): the image read back and compared. -/
def execStoreDone (readBackOk : Bool) (s : State) : Host.Outcome State Fault Refusal :=
  .next (match s.nv.storing with
    | none => s
    | some (i, es) =>
      if readBackOk then
        let n := (s.nv.setBank i ⟨true, s.nv.nextSeq, es⟩).countStore i
        { s with nv := { n with storing := none } }.setReg Reg.storeState 2
      else { s with nv := s.nv.failStore }.setReg Reg.storeState 3)

/-! ### Firmware images (R422 to R425) -/

/-- The slot of an image: 0 A, 1 B. -/
def NonVolatile.fw (n : NonVolatile) (i : Nat) : FwSlot := if i = 0 then n.fwA else n.fwB

/-- The non-volatile memory with a firmware slot written. -/
def NonVolatile.setFw (n : NonVolatile) (i : Nat) (f : FwSlot) : NonVolatile :=
  if i = 0 then { n with fwA := f } else { n with fwB := f }

/-- Whether an image passes the checks of R423 on this part. -/
def NonVolatile.fwRuns (n : NonVolatile) (f : FwSlot) : Bool :=
  f.valid && f.member == 3 && f.major == n.factory.stepping / 256 && f.sigOk && f.bodyOk && decide (n.floor ≤ f.svn)

/-- The slots in the order in which the boot ROM tries them. -/
def NonVolatile.fwOrder (n : NonVolatile) : List Nat := if seqNewer n.fwB.seqNo n.fwA.seqNo then [1, 0] else [0, 1]

/-- The first image that passes. -/
def NonVolatile.fwPick (n : NonVolatile) : Option Nat := n.fwOrder.find? (fun i => n.fwRuns (n.fw i))

/-- Images that failed a check before one ran. -/
def NonVolatile.fwFailed (n : NonVolatile) : Nat := (n.fwOrder.takeWhile (fun i => !n.fwRuns (n.fw i))).length

/-- The slot an update writes: the one that is not running, slot A in recovery. -/
def State.fwTarget (s : State) : Nat := if s.reg Reg.fwRunning = 0 then 1 else 0

/-- The slot fields of an image's bytes (R422). -/
def fwSlotOf (b : List Byte) : FwSlot :=
  let body := b.drop 2560
  let h := b.take 128
  { valid := b.length == 2560 + natAt b 20 4 && decide (1 ≤ natAt b 20 4) && decide (natAt b 20 4 ≤ 268432896) &&
      natAt b 0 4 == 0x46574931 && natAt b 4 2 == 1 && allZero (bytesAt b 24 8) && allZero (bytesAt b 64 64) &&
      allZero (bytesAt b 2548 12),
    seqNo := natAt b 8 4, build := natAt b 12 4, svn := natAt b 16 4, major := natAt b 7 1, member := natAt b 6 1,
    sigOk := Config.mldsaVerify Config.rootKey (sha3 h) (bytesAt b 128 2420), bodyOk := sha3 body == bytesAt b 32 32,
    digest := bytesAt b 32 32 }

/-- A FW_UPDATE transfer starts: the slot is being written, and holds no valid image (R425, R446). -/
def State.startFw (s : State) : Result :=
  let st := s.reg Reg.fwUpdateState
  if st = 1 ∨ st = 2 then (abortCode 7 0, s)
  else
    let i := s.fwTarget
    let n := s.nv.setFw i { s.nv.fw i with valid := false }
    (0, { s with nv := { n with fwBytes := [] } }.setReg Reg.fwUpdateState 1)

/-- The last word has arrived: the device reads the slot back. -/
def State.verifyFw (s : State) (b : List Byte) : State :=
  { s with nv := { s.nv with fwBytes := b } }.setReg Reg.fwUpdateState 2

/-- The checks of R425 on the image read back: format failures first, then security. -/
def State.fwCheck (s : State) (f : FwSlot) (readBackOk : Bool) : Nat :=
  let run := s.nv.fw (s.reg Reg.fwRunning)
  firstFail [
    (!f.valid || f.member != 3 || f.major != s.nv.factory.stepping / 256, abortCode 3 0),
    (!readBackOk || !f.sigOk || !f.bodyOk || decide (f.svn < s.nv.floor) ||
      (s.reg Reg.fwRunning != 2 && !seqNewer f.seqNo run.seqNo), abortCode 8 0)]

/-- The end of an update: DONE with the slot valid, or FAILED with the slot invalid; a failed signature or digest check is a
security event. -/
def State.endFw (s : State) (readBackOk : Bool) : Result :=
  let f := fwSlotOf s.nv.fwBytes
  let code := s.fwCheck f readBackOk
  let i := s.fwTarget
  let n := s.nv.setFw i { f with valid := code == 0 }
  let s := { s with nv := { n with fwBytes := [] } }.setReg Reg.fwUpdateState (if code = 0 then 3 else 4)
  (code, if code / 65536 = 8 then s.count Reg.securityEvents 1 else s)

/-- FW_UPDATE (R425): a whole transfer of an image; it completes only at FW_UPDATE_DONE. -/
def execFwUpdate (r : Role) (image : List Byte) (s : State) : Host.Outcome State Fault Refusal :=
  .next (s.command r Reg.fwUpdate (fun t =>
    let x := t.startFw
    if x.1 = 0 then (0, x.2.verifyFw image) else x))

/-! ### Attestation (R403, R430) -/

/-- A role's request. -/
def State.attest (s : State) (r : Role) : Attest := mapGetD ⟨[], none, []⟩ (roleNum r) s.security.attests

/-- The state with a role's request set. -/
def State.setAttest (s : State) (r : Role) (a : Attest) : State :=
  { s with security := { s.security with attests := mapSet (roleNum r) a s.security.attests } }

/-- A write of ATTEST_NONCE: an earlier request of the role is abandoned. -/
def State.writeNonce (s : State) (r : Role) (b : List Byte) : Result :=
  if b.length ≠ 32 then (abortCode 3 0xA0, s)
  else if s.security.certBad then (abortCode 8 0, s)
  else (0, (s.setAttest r ⟨b, none, []⟩).setReg (perRole Reg.attestState r) 1)

/-- ATTEST_NONCE (R430). -/
def execAttestNonce (r : Role) (nonce : List Byte) (s : State) : Host.Outcome State Fault Refusal :=
  .next (s.command r Reg.attestNonce (fun t => t.writeNonce r nonce))

/-- The entries of a settings image (R415): 8 B of index, sub-index and length, then the value padded to 8 B. -/
def entryBytes (es : List (Nat × Nat)) : List Byte :=
  es.flatMap (fun e =>
    let n := match findRow (keyIndex e.1) (keySub e.1) with
      | some r => typeBytes r.type
      | none => 8
    leBytes 2 (keyIndex e.1) ++ leBytes 1 (keySub e.1) ++ leBytes 1 0 ++ leBytes 4 n ++ leBytes 8 e.2)

/-- The image that a store writes (R415): the header of 32 B, its five fields of 4 B each in the order the rule names them
(assumption 147), and the entries; the CRC is over the whole image with its own field zero. -/
def settingsImage (seqNo : Nat) (es : List (Nat × Nat)) : List Byte :=
  let body := entryBytes es
  let head := fun c => leBytes 4 0x4E565331 ++ leBytes 4 seqNo ++ leBytes 4 (32 + body.length) ++ leBytes 4 es.length ++
    leBytes 4 c ++ leBytes 12 0
  head (crc32c (head 0 ++ body)) ++ body

/-- Whether a bank's bytes make it valid at boot (R418). -/
def imageValid (b : List Byte) : Bool :=
  natAt b 0 4 == 0x4E565331 && decide (natAt b 8 4 ≤ 524288) && natAt b 8 4 == b.length &&
    crc32c (bytesAt b 0 16 ++ leBytes 4 0 ++ b.drop 20) == natAt b 16 4

/-- Bytes 0 to 8,415 of a role's report at a capture. -/
def State.measure (s : State) (r : Role) : List Byte :=
  let fw := s.nv.fw (s.reg Reg.fwRunning)
  leBytes 4 0x41545331 ++ leBytes 2 1 ++ leBytes 1 (roleNum r) ++
    leBytes 1 (s.reg Reg.reproStale % 2 + 2 * (s.reg Reg.nvDefaults % 2)) ++ leBytes 4 10836 ++
    leBytes 8 s.nv.factory.serial ++ leBytes 2 s.nv.factory.stepping ++ leBytes 1 s.nv.factory.grade ++
    leBytes 1 s.slotNow ++ leBytes 4 s.tenantNow ++ leBytes 4 (s.reg Reg.fwBuild) ++ leBytes 4 fw.seqNo ++ leBytes 4 fw.svn ++
    leBytes 8 (if s.time.ticked then s.tickTime s.beatNow else s.time.hallTime) ++ leBytes 8 s.beatNow ++ leBytes 8 0 ++
    bytesAt (s.attest r).nonce 0 32 ++ bytesAt fw.digest 0 32 ++ sha3 s.nv.factory.bytes ++ sha3 (entryBytes s.captured) ++
    (s.dom Reg.reproKey).slice 0 32 ++ (List.range 128).flatMap s.coreDigests

/-- A waiting request captures its measurements. -/
def State.captureFor (s : State) (r : Role) : State :=
  let a := s.attest r
  if s.reg (perRole Reg.attestState r) = 1 ∧ a.captured.isNone then s.setAttest r { a with captured := some (s.measure r) } else s

/-- ATTEST_CAPTURE (R430): a tick at which SWAP_STATE is IDLE or ARMED. -/
def execAttestCapture (s : State) : Host.Outcome State Fault Refusal :=
  .next (if s.reg Reg.swapState ≤ 1 then [Role.op, .mgr, .ten].foldl State.captureFor s else s)

/-- ATTEST_SIGNED (R430): the report is READY, signed by the identity key. -/
def execAttestSigned (r : Role) (s : State) : Host.Outcome State Fault Refusal :=
  let a := s.attest r
  .next (match a.captured with
    | none => s
    | some b =>
      if s.reg (perRole Reg.attestState r) ≠ 1 then s
      else (s.setAttest r { a with captured := none, report := b ++ Config.mldsaSign s.security.seed (sha3 b) }).setReg
             (perRole Reg.attestState r) 2)

/-! ### Diagnostics (R406 to R412, R455) -/

/-- Whether DIAG_ARG names something for a command, with no reserved bit. -/
def diagArgOk (cmd arg : Nat) : Bool :=
  match cmd with
  | 1 => decide (arg < 1024) && (arg.testBit 9 || decide (arg % 512 < 256))
  | 2 => decide (arg < 128) && (arg.testBit 6 || decide (arg % 64 < 60))
  | 3 => decide (arg < 8)
  | 4 => decide (arg < 32)
  | _ => false

/-- A write of DIAG_CMD. -/
def State.writeDiag (s : State) (cmd : Nat) : Result :=
  let arg := s.reg Reg.diagArg
  let code := firstFail [
    (!diagArgOk cmd arg, abortCode 4 0),
    (s.reg Reg.diagState == 1, abortCode 7 0),
    (cmd == 4 && (s.part != 0 || s.slotNow != 0xFF), abortCode 7 0)]
  if code ≠ 0 then (code, s)
  else (0, { s with package := { s.package with diagCmd := cmd, diagArg := arg } }.setReg Reg.diagState 1)

/-- A diagnostics command of the operator. -/
def State.diag (s : State) (r : Role) (cmd : Nat) : State := s.command r Reg.diagCmd (fun t => t.writeDiag cmd)

/-- HBM_MARGIN (R406 value 1). -/
def execHbmMargin (r : Role) (s : State) : Host.Outcome State Fault Refusal := .next (s.diag r 1)

/-- EYE_SCAN (R406 value 2). -/
def execEyeScan (r : Role) (s : State) : Host.Outcome State Fault Refusal := .next (s.diag r 2)

/-- FLASH_CHECK (R406 value 3). -/
def execFlashCheck (r : Role) (s : State) : Host.Outcome State Fault Refusal := .next (s.diag r 3)

/-- SRAM_TEST (R406 value 4). -/
def execSramTest (r : Role) (s : State) : Host.Outcome State Fault Refusal := .next (s.diag r 4)

/-- The RESULT of a record (R455): what the unit could not do is a fail, 0 was not run, else the limits decide. -/
def diagResult (kind : Nat) (f : List Nat) : Nat :=
  let g := fun i => f.getD i 0
  if g 0 = 0 ∨ g 0 = 3 then g 0
  else match kind with
    | 1 =>
      if (f.drop 1).any (fun x => x == 0) then 3
      else if g 1 < 25 ∨ g 2 < 25 ∨ g 5 < 25 ∨ g 3 < 20 ∨ g 4 < 20 ∨ g 6 < 20 then 2 else 1
    | 2 => if g 1 = 0 ∨ g 2 = 0 then 3 else if g 1 < 80 ∨ g 2 < 100 ∨ 1000 < g 3 then 2 else 1
    | 3 => if g 1 < 100 ∨ 0 < g 3 then 2 else 1
    | _ => if 0 < g 2 then 3 else if 16 < g 1 then 2 else 1

/-- The bytes of a record (R409 to R412), with its RESULT decided. -/
def diagBytes (kind : Nat) (f : List Nat) : List Byte :=
  let g := fun i => f.getD i 0
  let r := diagResult kind f
  match kind with
  | 1 => leBytes 2 r ++ (List.range 6).flatMap (fun i => leBytes 1 (g (i + 1)))
  | 2 => leBytes 2 r ++ leBytes 2 (g 1) ++ leBytes 2 (g 2) ++ leBytes 2 (g 3)
  | 3 => leBytes 2 r ++ leBytes 2 (g 1) ++ leBytes 4 (g 2) ++ leBytes 4 (g 3) ++ leBytes 4 (g 4)
  | _ => leBytes 2 r ++ leBytes 2 (g 1) ++ leBytes 2 (g 2) ++ leBytes 10 0

/-- The object of a kind of record, and the bytes of a record. -/
def diagObject (kind : Nat) : Nat × Nat :=
  match kind with
  | 1 => (Reg.hbmMargin, 8)
  | 2 => (Reg.eyeScan, 8)
  | 3 => (Reg.flashMount, 16)
  | _ => (Reg.sramTest, 16)

/-- Records written. -/
def State.putRecords (s : State) (kind : Nat) (recs : List DiagRec) : State :=
  let o := diagObject kind
  recs.foldl (fun s r => s.setDom o.1 ((s.dom o.1).patch (r.idx * o.2) (diagBytes kind r.fields))) s

/-- Records of a kind that fail. -/
def failedRecs (kind : Nat) (recs : List DiagRec) : Nat := (recs.filter (fun r => diagResult kind r.fields == 3)).length

/-- Whether a command names a record. -/
def diagNames (cmd arg idx : Nat) : Bool :=
  match cmd with
  | 1 => decide (idx < 256) && (arg.testBit 9 || idx == arg % 512)
  | 2 => decide (idx < 540) && (arg.testBit 6 || idx / 9 == arg % 64)
  | 3 => decide (idx < 4) && (arg.testBit 2 || idx == arg % 4)
  | _ => decide (idx < 16) && (arg.testBit 4 || idx == arg % 16)

/-- SRAM_TEST leaves every word of a cluster zero and its banks EMPTY. -/
def State.zeroCluster (s : State) (k : Nat) : State :=
  let s := (List.range 8).foldl (fun (s : State) c => s.setCore (8 * k + c) Core.empty) s
  let t := s.tiers
  { s with tiers := { t with shared := mapDel k t.shared, sharedBad := t.sharedBad.filter (fun w => w.1 != k),
                             tableBad := t.tableBad.filter (fun w => w.1 != k) } }

/-- DIAG_DONE (R406, R408): the records the command names are written, those of ports that are not UP with RESULT 0. -/
def execDiagDone (recs : List DiagRec) (s : State) : Host.Outcome State Fault Refusal :=
  let cmd := s.package.diagCmd
  .next (
    if s.reg Reg.diagState ≠ 1 then s
    else
      let mine := recs.filter (fun r => diagNames cmd s.package.diagArg r.idx)
      let mine := mine.map (fun r => if cmd = 2 ∧ s.reg (Reg.portState (r.idx / 9)) ≠ 2 then { r with fields := [0] } else r)
      let n := failedRecs cmd mine
      let s := s.putRecords cmd mine
      let s := if cmd = 4 then ((List.range 16).filter (diagNames 4 s.package.diagArg)).foldl State.zeroCluster s else s
      let s := { s with package := { s.package with diagCmd := 0 } }
      (s.setReg Reg.diagResult n).setReg Reg.diagState (if 0 < n then 3 else 2))

/-! ### Sticky flags and windows (R126, R167, R169) -/

/-- A write of CLIP_FLAGS: a bit written as 1 is cleared. -/
def State.writeClipFlags (s : State) (b : List Byte) : Result :=
  if b.length ≠ 32 then (abortCode 3 0xA0, s)
  else
    let old := (s.dom Reg.clipFlags).slice 0 32
    (0, s.setDom Reg.clipFlags (Blob.ofBytes (List.zipWith (fun x y => x &&& ~~~y) old b)))

/-- CLIP_FLAGS_CLEAR (R169). -/
def execClipFlagsClear (r : Role) (bits : List Byte) (s : State) : Host.Outcome State Fault Refusal :=
  .next (s.command r Reg.clipFlags (fun t => t.writeClipFlags bits))

/-- A write of AUDIT_ALARM: 0 clears it, and only 0 may be written (R131). -/
def State.writeAlarm (s : State) (v : Nat) : Result :=
  if v = 0 then (0, s.setReg Reg.auditAlarm 0) else (abortCode 4 0, s)

/-- AUDIT_ALARM_CLEAR (R126). -/
def execAuditAlarmClear (r : Role) (value : Nat) (s : State) : Host.Outcome State Fault Refusal :=
  .next (s.command r Reg.auditAlarm (fun t => t.writeAlarm value))

/-- CLIP_WINDOW_CLOSE (R167): the window of CLIP_WINDOW beats that ended at the tick is judged. -/
def execClipWindowClose (s : State) : Host.Outcome State Fault Refusal := .next s.closeClip

end Sys2Proof.Machine
end

