-- ==== Sys2Proof/Machine/Boot.lean ====
section
/-! DEFINITION. Reset, boot and the package (R446 to R471): the reset inputs, the boot stages, the I3C target's readiness,
temperature, the reference input and the VDD_CORE setpoint. -/

namespace Sys2Proof.Machine

open Sys2Proof

/-! ### Reset (R446) -/

/-- The tiers that a reset keeps: flash and CXL contents and the flash translation layer's own state. -/
def Tiers.kept (t : Tiers) : Tiers :=
  { Tiers.empty with slow := t.slow, slowBad := t.slowBad, far := t.far, reads := t.reads, erases := t.erases, retired := t.retired,
                     written := t.written }

/-- The state in reset: all but the non-volatile memory, the flash tier and the CXL memory is lost; a running store has
failed (R416). -/
def State.resetWith (s : State) (p : Package) : State :=
  let t := State.cleared s.nv.failStore s.pending p
  { t with free := s.free, tiers := s.tiers.kept }

/-- The package pins with a reset input driven. -/
def Package.drive (p : Package) (pin : ResetPin) (level : Bool) : Package :=
  match pin with
  | .pwrOk => { p with pwrOk := level, tripped := p.tripped && level }
  | .sysRst => { p with sysRst := level }
  | .perst => { p with perst := level }

/-- The package as a reset leaves it: pins and the trip, VID at 0.720 V, no diagnostics. -/
def Package.resetPins (p : Package) : Package := { p with vid := 14, failHbm := false, failFlash := false, diagCmd := 0, diagArg := 0 }

/-- RESET_ASSERT (R446): a reset input low for `widthNs`: shorter than 1 µs it is ignored, from 10 µs on it acts; between
them whether it acts is undefined. -/
def execResetAssert (pin : ResetPin) (widthNs : Nat) (s : State) : Host.Outcome State Fault Refusal :=
  let f := s.fresh
  let acts := if widthNs < 1000 then false else if 10000 ≤ widthNs then true else Config.pulseActs f.1
  let s := if 1000 ≤ widthNs ∧ widthNs < 10000 then f.2 else s
  .next (if acts then s.resetWith ((s.package.drive pin false).resetPins) else s)

/-- RESET_RELEASE (R446, R466): at the release of the last input boot starts at stage 1, with DEV_ID sampled. -/
def execResetRelease (pin : ResetPin) (devId : Nat) (s : State) : Host.Outcome State Fault Refusal :=
  let p := s.package.drive pin true
  let s := { s with package := p }
  .next (
    if p.pwrOk ∧ p.sysRst ∧ p.perst ∧ !p.tripped ∧ s.reg Reg.bootStage = 0 then
      ({ s with package := { p with devId := devId % 4 } }).setBoot 1
    else s)

/-! ### Stages 1 to 3 -/

/-- ROM (R421, R426, R427, R428, R448): the factory record verified, every SRAM word zeroed, the identity formed and the
certificate compared. -/
def execRom (puf random : List Byte) (s : State) : Host.Outcome State Fault Refusal :=
  .next (
    if s.reg Reg.bootStage ≠ 1 then s
    else if !s.nv.factory.sigOk then s.setBoot 0xE0
    else
      let seed := sha3 puf
      let bad := decide (bytesAt s.nv.factory.cert 16 32 ≠ sha3 (Config.mldsaPublic seed))
      let s := { s with security := { s.security with seed := seed, secret := sha3 (puf ++ random), certBad := bad } }
      (if bad then s.count Reg.securityEvents 1 else s).setBoot 2)

/-- An entry of the selected image applied, or skipped (R419). -/
def State.applyEntry (s : State) (e : Nat × Nat) : State :=
  match findRow (keyIndex e.1) (keySub e.1) with
  | none => s
  | some r =>
    if r.persist ∧ e.2 < 2 ^ (8 * typeBytes r.type) ∧ (r.type ≠ .bool ∨ e.2 ≤ 1) ∧ rangeOk e.1 e.2 then s.setReg e.1 e.2 else s

/-- NV_BANK (R373, R418, R419): the settings bank is selected and its entries take effect; ROLE and LOCATION become live. -/
def execNvBank (s : State) : Host.Outcome State Fault Refusal :=
  .next (
    if s.reg Reg.bootStage ≠ 2 then s
    else
      let sel := s.nv.selected
      let s := match sel with
        | none => (s.setReg Reg.nvBank 0xFF).setReg Reg.nvDefaults 1
        | some i => ((s.nv.bank i).entries.foldl State.applyEntry s).setReg Reg.nvBank i
      let loc := s.reg Reg.location / 4 * 4 + s.package.devId
      let s := (s.setReg Reg.location loc).setReg Reg.locationActive loc
      let s := { s with manager := { s.manager with roleLive := s.reg Reg.role } }
      s.setBoot 3)

/-- FIRMWARE (R423, R424): the first image that passes its checks runs; with none, recovery. -/
def execFirmware (s : State) : Host.Outcome State Fault Refusal :=
  .next (
    if s.reg Reg.bootStage ≠ 3 then s
    else match s.nv.fwPick with
      | none => (s.setReg Reg.fwRunning 2).setBoot 0xE1
      | some i => ((s.setReg Reg.fwRunning i).setReg Reg.fwBuild (s.nv.fw i).build).setBoot 4)

/-! ### Stages 4 to 9 -/

/-- HBM (R449, R450): training and margining end; a failure is kept until the end of stage 5. The fast tier is all zero. -/
def execHbm (recs : List DiagRec) (trained : Bool) (s : State) : Host.Outcome State Fault Refusal :=
  .next (
    if s.reg Reg.bootStage ≠ 4 then s
    else
      let recs := recs.filter (fun r => decide (r.idx < 256))
      let s := s.putRecords 1 recs
      let s := { s with package := { s.package with failHbm := !trained || decide (0 < failedRecs 1 recs) },
                        tiers := { s.tiers with hbm := [], hbmBad := [] } }
      s.setBoot 5)

/-- Every fabric port DISABLED (R449). -/
def State.disablePorts (s : State) : State := (List.range 60).foldl (fun (s : State) p => s.setReg (Reg.portState p) 5) s

/-- What enumeration leaves of a far port: ABSENT where CXL_EN does not enable it. -/
def State.enumerate (s : State) (port st ext : Nat) : State :=
  let on := (s.reg Reg.cxlEn).testBit port && decide (st < 4)
  let t := s.tiers
  { s with tiers := { t with cxlState := mapSet port (if on then st else 0) t.cxlState,
                             cxlExt := mapSet port (if on ∧ 2 ≤ st then min ext 2097152 else 0) t.cxlExt } }

/-- FLASH (R302, R423, R449, R451): the flash stacks are mounted, the extents and images of tenants unmapped, and the CXL
ports enumerated. Then the dictionary is ready, or boot stops at 0xE2 or 0xE3. -/
def execFlash (recs : List DiagRec) (cxl0 cxl1 ext0 ext1 : Nat) (s : State) : Host.Outcome State Fault Refusal :=
  .next (
    if s.reg Reg.bootStage ≠ 5 then s
    else
      let recs := recs.filter (fun r => decide (r.idx < 4))
      let s := s.putRecords 3 recs
      let s := { s with tiers := { s.tiers with slow := [], slowBad := [] } }
      let s := (s.enumerate 0 cxl0 ext0).enumerate 1 cxl1 ext1
      if s.package.failHbm then s.disablePorts.setBoot 0xE2
      else if 0 < failedRecs 3 recs then
        ({ s with package := { s.package with failFlash := true } }).disablePorts.setBoot 0xE3
      else
        let svn := (s.nv.fw (s.reg Reg.fwRunning)).svn
        let s := (s.count Reg.securityEvents s.nv.fwFailed).setReg Reg.vddCoreSet (650 + 5 * s.package.vid)
        ({ s with nv := { s.nv with floor := max s.nv.floor svn } }).setBoot 6)

/-- Whether every enabled port has settled (R452). -/
def State.portsSettled (s : State) : Bool :=
  (List.range 60).all (fun p => s.reg (Reg.portState p) != 1 && s.reg (Reg.portState p) != 3)

/-- Stage 7 starts (R221, R452): every enabled port trains. Hall time is ACQUIRING from the first exchange on (R31, R353). -/
def State.startLinks (s : State) : State :=
  let s := (List.range 60).foldl (fun (s : State) p =>
    s.setReg (Reg.portState p) (if (s.reg (Reg.portCfg p)).testBit 0 then 1 else 5)) s
  s.setBoot 7

/-- A worker's HELLO leaves on every UP port (R353). -/
def State.sendHellos (s : State) : State :=
  if s.manager.roleLive ≠ 1 ∧ s.manager.roleLive ≠ 3 then s
  else
    let up := (List.range 60).filter (fun p => s.reg (Reg.portState p) == 2)
    up.foldl (fun (s : State) p => s.sendMgmt (field (s.reg (Reg.peer p)) 0 14)
      (.hello s.here s.nv.factory.grade s.nv.factory.stepping (s.reg Reg.domainId))) s

/-- LINKS (R452): the stage starts at DICT_READY, and ends when the ports are settled and, with a manager, time is
LOCKED. A lane's training record goes to EYE_SCAN. -/
def execLinks (recs : List DiagRec) (s : State) : Host.Outcome State Fault Refusal :=
  .next (
    if s.reg Reg.bootStage = 6 then s.startLinks
    else if s.reg Reg.bootStage ≠ 7 ∨ !s.portsSettled then s
    else
      let s := s.putRecords 2 (recs.filter (fun r => decide (r.idx < 540)))
      if s.manager.roleLive = 0 then s.setBoot 9
      else if s.reg Reg.timeState = 2 then s.sendHellos.setBoot 8
      else s)

/-- DISCOVERY (R453): a worker is ADMITTED and has a committed route table; a manager has committed its own. -/
def execDiscovery (s : State) : Host.Outcome State Fault Refusal :=
  .next (
    if s.reg Reg.bootStage ≠ 8 ∨ s.reg Reg.routeCommits = 0 then s
    else if s.manager.roleLive = 2 ∨ s.reg Reg.mgrState = 1 then s.setBoot 9
    else s)

/-- I3C_TARGET_READY (R391, R447): 50 ms after the release of reset the target answers at 0x30 plus DEVICE. -/
def execI3cTargetReady (s : State) : Host.Outcome State Fault Refusal :=
  .next (
    if s.reg Reg.bootStage = 0 then s
    else
      let c := { s.host.i3c with answering := true, staticAddr := 0x30 + s.here % 4 }
      { s with host := { s.host with i3c := c } })

/-! ### Temperature and power (R469 to R471) -/

/-- The warning (R469): state 1, counted, event 1, and a message to the manager, whose form the manual does not state. -/
def State.thermalWarn (s : State) : State :=
  let s := ((s.setReg Reg.thermalState 1).count Reg.thermalWarnings 1).ibi 1
  if s.reg Reg.mgrState = 1 then s.sendMgmt (s.reg Reg.managerLoc) (.report 0 0 0) else s

/-- The hold (R470): state 2, counted, event 2, device fault cause 2. -/
def State.thermalHold (s : State) : State :=
  (((s.setReg Reg.thermalState 2).count Reg.thermalHolds 1).ibi 2).deviceFatal 2

/-- THERMAL_SAMPLE (R468, R469, R470): the hottest sensor in m°C and the package power. -/
def execThermalSample (milliC : Int) (powerMw : Nat) (s : State) : Host.Outcome State Fault Refusal :=
  .next (
    if s.reg Reg.bootStage = 0 then s
    else
      let s := (s.setReg Reg.tjMax (codeOf 32 milliC)).setReg Reg.pkgPower (powerMw % 2 ^ 32)
      let st := s.reg Reg.thermalState
      if 105000 ≤ milliC then (if st = 2 then s else s.thermalHold)
      else if milliC < 97000 then s.setReg Reg.thermalState 0
      else if 100000 ≤ milliC ∧ st = 0 then s.thermalWarn
      else s)

/-- THERMAL_TRIP (R471): every clock stops and the device is held in reset until PWR_OK falls; THERMTRIP_N is low. -/
def execThermalTrip (s : State) : Host.Outcome State Fault Refusal :=
  .next (s.resetWith { s.package.resetPins with tripped := true })

/-- BREF_LOSS (R34, R464): the board reference shows no edge for 1 µs, or a frequency out of range. -/
def execBrefLoss (s : State) : Host.Outcome State Fault Refusal :=
  .next { s with package := { s.package with brefLost := true } }

/-- BREF_VALID (R464): 10 ms of valid input. -/
def execBrefValid (s : State) : Host.Outcome State Fault Refusal :=
  .next { s with package := { s.package with brefLost := false } }

/-- One step of the VID code towards a target (R461). -/
def vidToward (v target : Nat) : Nat := if v < target then v + 1 else if target < v then v - 1 else v

/-- VID_STEP (R461): from stage 6 on the code moves by one step towards the setpoint the firmware takes from its trims and
the temperature. -/
def execVidStep (target : Nat) (s : State) : Host.Outcome State Fault Refusal :=
  .next (
    if s.reg Reg.bootStage < 6 ∨ 9 < s.reg Reg.bootStage then s
    else
      let v := vidToward s.package.vid (min target 40)
      ({ s with package := { s.package with vid := v } }).setReg Reg.vddCoreSet (650 + 5 * v))

end Sys2Proof.Machine
end

