-- ==== Sys2Proof/Machine/Streams.lean ====
section
/-! DEFINITION. The entry device's streams (R20, R21, R105, R109, R387 to R390): STREAM_IN records and their refusals,
batches and lanes, entry stages, sampled tokens, STREAM_OUT records, and the cancel of a batch. -/

namespace Sys2Proof.Machine

/-- Records each stream holds (R396). -/
def streamRecords : Nat := 65536

/-! ### Output -/

/-- A STREAM_OUT record; one that finds the stream full is discarded and counted (R389). -/
def State.emitOut (s : State) (r : OutRec) : State :=
  if streamRecords ≤ s.streams.out.length then
    ({ s with streams := { s.streams with discarded := (s.streams.discarded + 1) % 2 ^ 32 } }).count Reg.streamOutDiscarded 1
  else ({ s with streams := { s.streams with out := s.streams.out ++ [r] } }).count Reg.streamOutWritten 1

/-- The 16 B of a STREAM_OUT record (R389). -/
def outBytes (r : OutRec) : List Byte :=
  leBytes 16 (r.kind % 16 + r.cause % 16 * 2 ^ 4 + r.lane % 256 * 2 ^ 8 + r.batch % 65536 * 2 ^ 16 + r.flags.toNat * 2 ^ 32 +
    r.position % 2 ^ 24 * 2 ^ 40 + r.token % 2 ^ 32 * 2 ^ 64 + r.gen % 65536 * 2 ^ 96)

/-- An event record of a batch: no token, no flags. -/
def eventRec (kind cause lane batch position gen : Nat) : OutRec := ⟨kind, cause, lane, batch, 0, position, 0, gen⟩

/-- A record refused or discarded, counted (R388, R381). -/
def State.countRefused (s : State) : State :=
  ({ s with streams := { s.streams with refused := (s.streams.refused + 1) % 2 ^ 32 } }).count Reg.streamInRefused 1

/-! ### Batches -/

/-- An open batch by number. -/
def State.batchNum (s : State) (n : Nat) : Option Batch := s.streams.batches.find? (fun b => b.num == n)

/-- The state with an open batch changed. -/
def State.setBatch (s : State) (b : Batch) : State :=
  { s with streams := { s.streams with batches := s.streams.batches.map (fun x => if x.num == b.num then b else x) } }

/-- The tag of a batch of this device (R387). -/
def State.tagOf (s : State) (n : Nat) : Nat := s.myRank % 65536 * 65536 + n % 65536

/-- The open batch a tag names here. -/
def State.batchTag (s : State) (tag : Nat) : Option Batch := s.streams.batches.find? (fun b => s.tagOf b.num == tag)

/-- The state with the reading of input set. -/
def State.setParse (s : State) (p : InParse) : State := { s with streams := { s.streams with parse := p } }

/-- STREAM_IN records held changed. -/
def State.setUsed (s : State) (n : Nat) : State := { s with streams := { s.streams with used := n } }

/-- The idle lane. -/
def idleLane (last : Option Nat) : Lane := ⟨true, 0, [], [], 0, 0, 0, 0xFFFFFFFF, last, none, none, none, false⟩

/-- A lane becomes idle: its prompt is discarded, its records and its sampled token's cell are released. -/
def State.idleLaneAt (s : State) (b : Batch) (i : Nat) : State :=
  let l := b.lanes.getD i (idleLane none)
  let s := s.setUsed (s.streams.used - l.chunks.length)
  let cells := s.pools.chains.filter (fun c => c.pkt.hdr.kind == 7 && c.pkt.hdr.batchTag == s.tagOf b.num && c.pkt.hdr.lane == i)
  let s := cells.foldl State.freeChain s
  s.setBatch { b with lanes := b.lanes.set i (idleLane l.last) }

/-! ### Input records (R387, R388) -/

/-- The fields of a STREAM_IN record. -/
structure InRec where
  kind  : Nat
  count : Nat
  lane  : Nat
  batch : Nat
  bits  : Nat
deriving DecidableEq, Repr

/-- A record's fields. -/
def inRec (r : BitVec 128) : InRec :=
  let w := r.toNat
  ⟨field w 0 4, field w 4 2, field w 8 8, field w 16 16, w⟩

/-- Whether a record's kind, fields and reserved bits are as R387 states (cause 6 otherwise). -/
def inFormOk (r : InRec) : Bool :=
  let w := r.bits
  field w 6 2 == 0 && (match r.kind with
    | 1 => r.count == 0 && r.lane == 0 && field w 41 87 == 0
    | 2 => r.count == 0 && field w 33 7 == 0 && (!w.testBit 32 || field w 40 88 == 0)
    | 3 => decide (1 ≤ r.count) && (r.count == 3 || field w (32 + 32 * r.count) (96 - 32 * r.count) == 0)
    | 4 => r.count == 0 && r.lane == 0 && field w 32 96 == 0
    | _ => false)

/-- Whether the device takes input now (cause 7 otherwise): RUNNING, with a rank, and HIDDEN_WIDTH not 0 (R388). -/
def State.takesInput (s : State) : Bool := s.part == 3 && s.myRankOpt.isSome && s.reg Reg.hiddenWidth != 0

/-- The lane a LANE record describes (R387). -/
def laneOf (r : InRec) : Lane :=
  let w := r.bits
  if w.testBit 32 then idleLane none
  else ⟨false, field w 40 24, [], [], field w 64 16, field w 80 16, field w 80 16, field w 96 32, none, none, none, none, false⟩

/-- The token IDs of a TOKENS record. -/
def tokensOf (r : InRec) : List Nat := (List.range r.count).map (fun i => field r.bits (32 + 32 * i) 32)

/-- A REFUSED record, counted. -/
def State.refuseRec (s : State) (cause lane batch gen : Nat) : State :=
  (s.countRefused).emitOut (eventRec 6 cause lane batch 0 gen)

/-- The input being read is refused: a batch whole, after which records are discarded until the next BATCH; or the new
input of a lane, whose TOKENS are then discarded. -/
def State.failParse (s : State) (cause : Nat) : State :=
  let p := s.streams.parse
  let s := s.setUsed (s.streams.used - p.held)
  match p.batch, p.later with
  | some b, _ =>
    (s.refuseRec cause (if (b.lanes.getLast?.map (fun l => l.missing)).getD 0 = 0 then b.lanes.length else b.lanes.length - 1) b.num 0).setParse
      ⟨none, 0, none, 0, true, none⟩
  | none, some (n, i, _) =>
    (s.refuseRec cause i n (((s.batchNum n).map (fun b => b.gen)).getD 0)).setParse ⟨none, 0, none, 0, false, some (n, i)⟩
  | none, none => s

/-- A record refused on its own: a BATCH starts the discard, a LANE the discard of its TOKENS. -/
def State.refuseAlone (s : State) (r : InRec) (cause : Nat) : State :=
  let gen := match s.batchNum r.batch with
    | some b => b.gen
    | none => 0
  let s := s.refuseRec cause r.lane r.batch gen
  let p := s.streams.parse
  s.setParse { p with discard := r.kind == 1, dropLane := if r.kind = 2 then some (r.batch, r.lane) else none }

/-- A record accepted. -/
def State.accepted (s : State) : State := s.count Reg.streamInTaken 1

/-- The batch being read opens when its last record has arrived: OPENED, and its lanes start. -/
def State.openIfWhole (s : State) : State :=
  match s.streams.parse.batch with
  | none => s
  | some b =>
    if s.streams.parse.lanesDue = 0 ∧ b.lanes.all (fun l => l.missing == 0) then
      let s := { s with streams := { s.streams with batches := s.streams.batches ++ [b] } }
      (s.setParse ⟨none, 0, none, 0, false, none⟩).emitOut (eventRec 7 0 0 b.num 0 b.gen)
    else s

/-- A BATCH record: cause 2 for a number 0 or open, 1 for a wrong length. -/
def State.takeBatch (s : State) (r : InRec) : State :=
  let n := field r.bits 32 9
  if r.batch = 0 ∨ (s.batchNum r.batch).isSome then s.refuseAlone r 2
  else if n ≠ s.reg Reg.batchSize then s.refuseAlone r 1
  else (s.accepted.setParse ⟨some ⟨r.batch, 0, 0, [], []⟩, n, none, 0, false, none⟩).openIfWhole

/-- A LANE record of the batch being read: the next lane in ascending order, with a prompt or idle. -/
def State.takeBatchLane (s : State) (r : InRec) (b : Batch) : State :=
  let l := laneOf r
  let p := s.streams.parse
  if r.batch ≠ b.num ∨ r.lane ≠ b.lanes.length ∨ p.lanesDue = 0 ∨ b.lanes.any (fun x => x.missing != 0) ∨
      (!l.idle ∧ l.missing = 0) then s.failParse 1
  else (s.accepted.setParse { p with batch := some { b with lanes := b.lanes ++ [l] }, lanesDue := p.lanesDue - 1 }).openIfWhole

/-- A LANE record for an open batch: new input for an idle lane, or the continuation from its last sampled token. -/
def State.takeLane (s : State) (r : InRec) : State :=
  match s.batchNum r.batch with
  | none => s.refuseAlone r 2
  | some b =>
    let l := laneOf r
    let old := b.lanes.getD r.lane (idleLane none)
    if b.lanes.length ≤ r.lane ∨ (!l.idle ∧ l.missing = 0 ∧ old.last = none) then s.refuseAlone r 1
    else if b.cancels ≠ [] ∨ !old.idle then s.refuseAlone r 3
    else if l.idle then s.accepted
    else if l.missing = 0 then
      s.accepted.setBatch { b with lanes := b.lanes.set r.lane { l with last := old.last, first := old.last } }
    else s.accepted.setParse { s.streams.parse with later := some (r.batch, r.lane, { l with last := old.last }) }

/-- A lane with the tokens of a record added. -/
def laneTokens (l : Lane) (ts : List Nat) : Lane :=
  { l with prompt := l.prompt ++ ts, chunks := l.chunks ++ [ts.length], missing := l.missing - ts.length }

/-- A TOKENS record: the tokens of the lane being read. -/
def State.takeTokens (s : State) (r : InRec) : State :=
  let ts := tokensOf r
  let p := s.streams.parse
  let bad := ts.any (fun t => decide (s.reg Reg.vocabSize ≤ t))
  let held := s.setUsed (s.streams.used + 1)
  match p.batch, p.later with
  | some b, _ =>
    let l := b.lanes.getLast?.getD (idleLane none)
    if r.batch ≠ b.num ∨ r.lane + 1 ≠ b.lanes.length ∨ l.missing < ts.length then s.failParse 1
    else if bad then s.failParse 4
    else
      (held.accepted.setParse { p with batch := some { b with lanes := b.lanes.set r.lane (laneTokens l ts) }, held := p.held + 1 }).openIfWhole
  | none, some (n, i, l) =>
    let pendingCancel := match s.batchNum n with
      | some b => b.cancels != []
      | none => true
    if r.batch ≠ n ∨ r.lane ≠ i ∨ l.missing < ts.length then s.failParse 1
    else if pendingCancel then s.failParse 3
    else if bad then s.failParse 4
    else
      let l := laneTokens l ts
      if l.missing ≠ 0 then held.accepted.setParse { p with later := some (n, i, l), held := p.held + 1 }
      else match s.batchNum n with
        | none => s
        | some b => (held.accepted.setParse ⟨none, 0, none, 0, false, none⟩).setBatch { b with lanes := b.lanes.set i l }
  | none, none => s.refuseAlone r 1

/-- A CLOSE record: the batch's lanes all idle and no cancel pending. -/
def State.takeClose (s : State) (r : InRec) : State :=
  match s.batchNum r.batch with
  | none => s.refuseAlone r 2
  | some b =>
    if b.cancels ≠ [] ∨ b.lanes.any (fun l => !l.idle) then s.refuseAlone r 3
    else
      ({ s.accepted with streams := { s.accepted.streams with
          batches := s.accepted.streams.batches.filter (fun x => x.num != b.num) } }).emitOut (eventRec 8 0 0 b.num 0 b.gen)

/-- A well-formed record taken by its kind. -/
def State.takeRec (s : State) (r : InRec) : State :=
  match r.kind with
  | 1 => s.takeBatch r
  | 2 => match s.streams.parse.batch with
    | some b => s.takeBatchLane r b
    | none => s.takeLane r
  | 3 => s.takeTokens r
  | _ => s.takeClose r

/-- The first cause of a record that breaks a batch being read, in the order of R388: 6, 7, 2, 1. -/
def State.breakCause (s : State) (b : Batch) (r : InRec) : Nat :=
  if !inFormOk r then 6 else if !s.takesInput then 7
  else if (r.kind = 2 ∨ r.kind = 4) ∧ r.batch ≠ b.num ∧ (s.batchNum r.batch).isNone then 2 else 1

/-- A record of no input being read, or that goes on with the input being read: FORMAT, NO_JOB, then its kind's checks. -/
def State.takeChecked (s : State) (r : InRec) : State :=
  let c := if !inFormOk r then 6 else if !s.takesInput then 7 else 0
  let reading := s.streams.parse.batch.isSome || s.streams.parse.later.isSome
  if c ≠ 0 then (if reading then s.failParse c else s.refuseAlone r c)
  else s.takeRec r

/-- A record that finds no free record in STREAM_IN: its words are discarded, so what its REFUSED record names is a free
value where no input is being read (cause 5). -/
def State.takeFull (s : State) : State :=
  if s.streams.parse.discard then s.countRefused
  else if s.streams.parse.batch.isSome ∨ s.streams.parse.later.isSome then s.failParse 5
  else
    let f := s.fresh
    let x := Config.fullRecord f.1
    f.2.refuseRec 5 (x.2 % 256) (x.1 % 65536) 0

/-- A record of STREAM_IN (R388). -/
def State.putRecord (s : State) (r : InRec) : State :=
  let p := s.streams.parse
  if streamRecords ≤ s.streams.used then s.takeFull
  else if p.discard ∧ r.kind ≠ 1 then s.countRefused
  else if r.kind = 3 ∧ p.dropLane = some (r.batch, r.lane) then s.countRefused
  else
    let s := s.setParse { p with discard := false, dropLane := none }
    match p.batch, p.later with
    | some b, _ =>
      if (r.kind = 2 ∨ r.kind = 3) ∧ r.batch = b.num then s.takeChecked r
      else if r.kind = 1 then
        let t := s.failParse 1
        (t.setParse { t.streams.parse with discard := false }).takeChecked r
      else s.failParse (s.breakCause b r)
    | none, some (n, i, _) =>
      if r.kind = 3 ∧ r.batch = n ∧ r.lane = i then s.takeChecked r
      else
        let t := s.failParse 1
        (t.setParse { t.streams.parse with dropLane := none }).takeChecked r
    | none, none => s.takeChecked r

/-! ### Who may use the streams (R335, R380) -/

/-- Whether a role's block answers: after a dead management core only the summary does (R434). -/
def State.streamAccess (s : State) (r : Role) (f : State → State) : State :=
  if s.manager.mgmtDead then s
  else match r with
    | .op => f s
    | .ten =>
      if s.reg Reg.sessionBind = s.slotNow ∧ s.slotNow ≠ 0xFF then f s
      else (s.count Reg.sessionRefused 1).setReg (Reg.lastAbort 3) (abortCode 7 0x80)
    | _ => s.count Reg.badAccess 1

/-- BATCH (R388). -/
def execBatch (r : Role) (rec : BitVec 128) (s : State) : Host.Outcome State Fault Refusal :=
  .next (s.streamAccess r (fun s => s.putRecord (inRec rec)))

/-- LANE (R388). -/
def execLane (r : Role) (rec : BitVec 128) (s : State) : Host.Outcome State Fault Refusal :=
  .next (s.streamAccess r (fun s => s.putRecord (inRec rec)))

/-- TOKENS (R388). -/
def execTokens (r : Role) (rec : BitVec 128) (s : State) : Host.Outcome State Fault Refusal :=
  .next (s.streamAccess r (fun s => s.putRecord (inRec rec)))

/-- CLOSE (R388). -/
def execClose (r : Role) (rec : BitVec 128) (s : State) : Host.Outcome State Fault Refusal :=
  .next (s.streamAccess r (fun s => s.putRecord (inRec rec)))

/-- A record of a reserved kind (R387, R388): cause 6 FORMAT. -/
def execReservedRecordKind (r : Role) (rec : BitVec 128) (s : State) : Host.Outcome State Fault Refusal :=
  .next (s.streamAccess r (fun s => s.putRecord (inRec rec)))

/-- STREAM_OUT_READ (R379, R389): n words of 16 B records, oldest first; with none left a read returns zeros. -/
def execStreamOutRead (r : Role) (n : Nat) (s : State) : Host.Outcome State Fault Refusal :=
  .next (s.streamAccess r (fun s =>
    if n = 0 ∨ 4 < n then ({ s with host := { s.host with reply := List.replicate (min n 512) 0 } }).count Reg.badAccess 1
    else
      let bytes := (s.streams.out.take n).flatMap outBytes
      let ws := toWords bytes
      { s with streams := { s.streams with out := s.streams.out.drop n },
               host := { s.host with reply := ws ++ List.replicate (2 * n - ws.length) 0 } }))

/-! ### Lanes: entry stages, sampled tokens, ends (R20, R21, R109, R389, R390) -/

/-- The entry stage of a token in beat n (R17, R19): the embedded vector, which leaves when the stage's work has run. -/
def State.embedToken (s : State) (tok : TokenId) (id n : Nat) : State :=
  let f := s.fresh
  let plan := Config.entryPlan f.1 tok.tag tok.lane
  let vec := (List.range (s.reg Reg.hiddenWidth)).map (Config.embedding f.1 id)
  let s := f.2
  let e : EntryOut := ⟨tok, n, plan.rank, plan.lslot % 256, plan.homeCluster % 16, plan.srcCluster % 16, 0, vec⟩
  { s with streams := { s.streams with entries := s.streams.entries ++ [e] } }

/-- The entry stage's output (R19): an input residual of the first layer where that layer is this device's, for the next
tick, and otherwise a Manifest without entries, marked ENTRY (R95). -/
def State.sendEntry (s : State) (e : EntryOut) : State :=
  if e.rank = s.myRank then
    { s with combine := { s.combine with
        residuals := s.combine.residuals ++ [⟨e.tok, e.homeCluster, e.lslot, true, e.flags, max (e.beat + 1) s.beatNow, e.vec⟩] } }
  else
    let h := { headerFor e.tok 3 e.lslot e.beat s.myRank e.rank (e.flags ||| flEntry) with homeCluster := e.homeCluster }
    s.sendRank e.rank e.homeCluster e.srcCluster 0 1 (.beat ⟨h, [], e.vec, [], 0, 0⟩)

/-- The entry stages whose work has run send their outputs. -/
def State.sendEntries (s : State) : State :=
  s.streams.entries.foldl State.sendEntry { s with streams := { s.streams with entries := [] } }

/-- At a tick an entry stage that has ended has sent its output; one that is unfinished goes on with its token marked OVERRUN
(R46, R48), and its own device takes its vector at this tick. -/
def State.entriesAtTick (s : State) (late : TokenId → Bool) : State :=
  let marked := s.streams.entries.map (fun e => if late e.tok then { e with flags := e.flags ||| flOverrun } else e)
  let stays := fun (e : EntryOut) => late e.tok && e.rank != s.myRank
  (marked.filter (fun e => !stays e)).foldl State.sendEntry
    { s with streams := { s.streams with entries := marked.filter stays } }

/-- The token a lane's entry stage embeds: the next prompt token, the token a continuation starts from, or the sample. -/
def nextToken (l : Lane) (fromPrompt : Bool) : Nat :=
  if fromPrompt then l.prompt.headD 0
  else match l.due with
    | none => l.first.getD 0
    | some _ => l.got.getD 0

/-- A lane's token embedded in beat n: the vector leaves, the next position is awaited, the token's record and cell are
released. -/
def State.embed (s : State) (b : Batch) (i : Nat) (l : Lane) (fromPrompt : Bool) (n : Nat) : State :=
  let tok : TokenId := ⟨s.tagOf b.num, i, l.position, b.run, s.myRank⟩
  let cells := s.pools.chains.filter (fun c => c.pkt.hdr.kind == 7 && c.pkt.hdr.batchTag == s.tagOf b.num && c.pkt.hdr.lane == i)
  let s := cells.foldl State.freeChain s
  let chunks := if !fromPrompt then l.chunks
    else match l.chunks with
      | [] => []
      | c :: cs => if c ≤ 1 then cs else (c - 1) :: cs
  let s := (s.setUsed (s.streams.used - (l.chunks.length - chunks.length))).embedToken tok (nextToken l fromPrompt) n
  let l := { l with prompt := if fromPrompt then l.prompt.drop 1 else l.prompt, chunks := chunks, first := none,
                    due := some l.position, got := none, skip := false, position := (l.position + 1) % 2 ^ 24 }
  s.setBatch { b with lanes := b.lanes.set i l }

/-- The entry stage of a lane at the tick of beat t: its first token, the next prompt token, its sampled token, or DONE where
MAX_NEW is 0. -/
def State.entryLane (t : Nat) (s : State) (n i : Nat) : State :=
  match s.batchNum n with
  | none => s
  | some b =>
    match b.lanes[i]? with
    | none => s
    | some l =>
      if l.idle then s
      else match l.due with
        | none => s.embed b i l (l.prompt != []) t
        | some p =>
          if l.got.isNone && !l.skip then s
          else if l.prompt ≠ [] then s.embed b i l true t
          else if l.left = 0 then (s.emitOut (eventRec 2 0 i b.num (p + 1) b.run)).idleLaneAt b i
          else if l.got.isSome then s.embed b i l false t
          else s

/-- The entry stages of the tick of beat t: every lane of every open batch, in order. -/
def State.entryStages (s : State) (t : Nat) : State :=
  s.streams.batches.foldl (fun s b => (List.range b.lanes.length).foldl (fun s i => State.entryLane t s b.num i) s) s

/-- TOKEN_LOST (R109, R389): a sampled token has not arrived by the tick that starts the next entry stage. A token whose
successor is a prompt token, or one of a lane with MAX_NEW = 0, is not needed; a cancelled batch has no LOST record. In either case a token that comes later goes to the Siding. -/
def execTokenLost (tag lane : Nat) (s : State) : Host.Outcome State Fault Refusal :=
  .next (match s.batchTag tag with
    | none => s
    | some b =>
      match b.lanes[lane]? with
      | none => s
      | some l =>
        match l.due with
        | none => s
        | some p =>
          if l.idle ∨ l.got.isSome ∨ l.skip then s
          else if l.prompt ≠ [] ∨ l.left = 0 ∨ b.cancels ≠ [] then
            s.setBatch { b with lanes := b.lanes.set lane { l with skip := true } }
          else
            ((s.emitOut (eventRec 3 0 lane b.num (p + 1) b.run)).count Reg.lostTokens 1).idleLaneAt b lane)

/-- A sampled token for its awaiting lane (R20, R21, R389): a TOKEN record where it is an output, DONE after the last. -/
def State.takeSample (s : State) (p : BeatPacket) (b : Batch) (l : Lane) : State :=
  let i := p.hdr.lane
  let pos := (p.hdr.position + 1) % 2 ^ 24
  let tok := p.token % 2 ^ 32
  let set := fun (t : State) (x : Lane) => t.setBatch { b with lanes := b.lanes.set i x }
  if l.prompt ≠ [] ∨ l.left = 0 then (set s { l with got := some tok, last := some tok }).freeChains p
  else
    let s := s.emitOut ⟨1, 0, i, b.num, p.tokFlags, pos, tok, p.hdr.gen⟩
    let l := { l with left := l.left - 1, last := some tok, got := some tok }
    if l.left ≠ 0 ∧ tok ≠ l.stopId then set s l
    else
      let b := { b with lanes := b.lanes.set i l }
      ((s.setBatch b).emitOut (eventRec 2 0 i b.num pos p.hdr.gen)).idleLaneAt b i

/-- SAMPLED_TOKEN_ARRIVAL (R20, R96, R109): taken by the lane that awaits it; stale or late ones go to the Siding. -/
def execSampledTokenArrival (p : BeatPacket) (s : State) : Host.Outcome State Fault Refusal :=
  .next (
    if p.hdr.kind ≠ 7 then s
    else
      let s := (s.takeLanding (.beat p)).decideChains p
      if s.landingFailed (p.hdr.homeCluster % 16) p then s.clearFailed p
      else if s.stale p.hdr.batchTag p.hdr.gen then s.siding p
      else match s.batchTag p.hdr.batchTag with
        | none => s.siding p
        | some b =>
          match b.lanes[p.hdr.lane]? with
          | none => s.siding p
          | some l =>
            if l.idle ∨ p.hdr.gen ≠ b.run ∨ l.due ≠ some p.hdr.position ∨ l.got.isSome ∨ l.skip then s.siding p
            else s.takeSample p b l)

/-- END_NOTICE_ARRIVAL (R313): an END record with the cause; no LOST record; the lane is idle. -/
def execEndNoticeArrival (tag lane position gen cause : Nat) (s : State) : Host.Outcome State Fault Refusal :=
  let s := s.takeLanding (.mgmt (.endNotice tag lane position gen cause))
  .next (match s.batchTag tag with
    | none => s
    | some b =>
      match b.lanes[lane]? with
      | none => s
      | some l =>
        if l.idle ∨ gen ≠ b.run then s
        else (s.emitOut (eventRec 4 cause lane b.num position gen)).idleLaneAt b lane)

/-! ### Cancelling a batch (R105, R390) -/

/-- A write of BATCH_CANCEL: the generation rises, CB is set, and the notice is broadcast. -/
def State.writeBatchCancel (s : State) (tag : Nat) : Result :=
  match s.batchTag tag with
  | none => (abortCode 1 0, s)
  | some b =>
    if 64 ≤ s.combine.cancels.length then (abortCode 6 0x40, s)
    else
      let gen := (b.gen + 1) % 65536
      let cb := s.beatNow + s.reg Reg.cancelLead
      (0, (s.setBatch { b with gen := gen, cancels := b.cancels ++ [(gen, cb)] }).broadcast (.cancel tag gen cb))

/-- The cancels of a batch whose CB has come take effect (R390): its lanes with input in progress are CANCELLED. -/
def State.cancelBatch (s : State) (b : Batch) (beat : Nat) : State :=
  let due := b.cancels.filter (fun c => decide (c.2 ≤ beat))
  if due = [] then s
  else
    let run := due.foldl (fun g c => if genNewer c.1 g then c.1 else g) b.run
    let b := { b with run := run, cancels := b.cancels.filter (fun c => !decide (c.2 ≤ beat)) }
    (List.range b.lanes.length).foldl (fun s i =>
      match s.batchNum b.num with
      | none => s
      | some x =>
        let l := x.lanes.getD i (idleLane none)
        if l.idle then s else (s.emitOut (eventRec 5 0 i x.num l.position run)).idleLaneAt x i) (s.setBatch b)

/-- CANCEL_TAKES_EFFECT (R390), at the tick that is about to fall. -/
def execCancelTakesEffect (tag : Nat) (s : State) : Host.Outcome State Fault Refusal :=
  .next (match s.batchTag tag with
    | none => s
    | some b => if s.noBeat then s else s.cancelBatch b (s.beatNow + 1))

end Sys2Proof.Machine
end

