-- ==== Sys2Proof/Machine/Dict.lean ====
section
/-! DEFINITION. Reads and writes of the object dictionary (R370 to R374, R383, R394, R400): what every object reads as, and
the checks and the effect of a completed write. -/

namespace Sys2Proof.Machine

open Sys2Proof

/-! ### Selections -/

/-- The live selection of an object reached through a selector, or the role for one value per role (R372, R473). -/
def State.selOf (s : State) (r : Role) (row : ObjRow) : Nat :=
  match row.sel with
  | .none => 0
  | .gate => s.reg Reg.gateSel
  | .map => s.reg Reg.mapSel
  | .grant => s.reg Reg.grantSel
  | .pred => s.reg Reg.predSel
  | .mcast => s.reg Reg.mcastSel
  | .coll => s.reg Reg.collSel
  | .quota => s.reg Reg.quotaSel
  | .role => roleNum r

/-- The key of the object an access of a role reaches. -/
def State.keyOf (s : State) (r : Role) (row : ObjRow) (index sub : Nat) : Nat := objKey index sub + s.selOf r row

/-- Whether an object is a byte string. -/
def ObjRow.isBytes (row : ObjRow) : Bool := row.type == .dom || row.type == .vstr

/-! ### What a number reads as -/

/-- AREA_STAGED (R84): the table bytes of the inactive half, which holds the owning role's tables, else a copy of the live
ones. -/
def State.areaStaged (s : State) : Nat :=
  match commitOrder.find? (fun r => roleNum r == s.reg Reg.gateOwner) with
  | some r => (s.overlay (s.shadow r)).areaBytes
  | none => s.areaBytes

/-- Numbers the device computes when they are read. -/
def State.computed (s : State) (r : Role) (index sub : Nat) : Option Nat :=
  match index, sub with
  | 0x1001, 3 => some s.nv.factory.stepping
  | 0x1001, 4 => some s.nv.factory.serial
  | 0x1002, 0 => some s.nv.factory.grade
  | 0x1003, 1 => some (s.nv.factory.coreMap % 2 ^ 64)
  | 0x1003, 2 => some (s.nv.factory.coreMap / 2 ^ 64 % 2 ^ 64)
  | 0x1012, 2 => some s.nv.bankA.seqNo
  | 0x1012, 3 => some s.nv.bankB.seqNo
  | 0x1012, 5 => some s.nv.storesA
  | 0x1012, 6 => some s.nv.storesB
  | 0x1014, 2 => some s.nv.fwA.seqNo
  | 0x1014, 3 => some s.nv.fwB.seqNo
  | 0x1400, 6 => some (((List.range 16).filter (fun i => (s.tslot i).key != [])).foldl (fun m i => m + 2 ^ i) 0)
  | 0x1030, b => if b = roleNum r + 1 then none else some 0
  | 0x2001, 8 => some (s.reg Reg.beatPeriod - maintLen (s.reg Reg.beatPeriod))
  | 0x2002, 1 => some s.time.hallTime
  | 0x2003, 2 => some ((s.boundNow + 999) / 1000)
  | 0x2003, 7 => some (if s.refMissing then 1 else 0)
  | 0x2011, 4 => some (match mapGet (roleNum r) s.commits with
    | some p => p.beat
    | none => 0)
  | 0x2011, 5 => some (s.shadow r).size
  | 0x2400, 3 => some s.myRank
  | 0x2800, 2 => some (s.tierFree 1 0)
  | 0x2810, 2 => some (s.tierFree 2 0)
  | 0x2840, 2 => some s.xlate.length
  | 0x2A01, 4 => some (((List.range 16).filter (fun k => (s.pool k).broken)).foldl (fun m k => m + 2 ^ k) 0)
  | 0x2A01, 5 => some s.pools.marks.length
  | 0x3010, 8 => some s.areaBytes
  | 0x3010, 9 => some s.areaStaged
  | 0x7000, 3 => some s.streams.batches.length
  | _, _ => none

/-- The live number under a row, latched for telemetry and counters (R59). -/
def State.readNum (s : State) (r : Role) (row : ObjRow) (index sub : Nat) : Nat :=
  if row.access = .fixed ∧ (s.computed r index sub).isNone then row.dflt
  else if row.latched then s.latched (s.keyOf r row index sub)
  else (s.computed r index sub).getD (s.reg (s.keyOf r row index sub))

/-! ### What a byte string reads as -/

/-- A byte string cut or padded with zeros to n bytes. -/
def padTo (n : Nat) (bs : List Byte) : List Byte := bytesAt bs 0 n

/-- The slot a role's TENANT_SEL names. -/
def State.selSlot (s : State) (r : Role) : Nat := s.reg (perRole Reg.tenantSel r)

/-- The 16 accounts: a tenant reads only its own record (R342). -/
def State.accounts (s : State) (r : Role) : List Byte :=
  (List.range 16).flatMap (fun i =>
    if r = .ten ∧ i ≠ s.reg Reg.sessionBind then List.replicate 64 0 else s.account i)

/-- The record of a collective slot (R283). -/
def collBytes (c : CollSlot) : List Byte :=
  leBytes 4 (c.state + c.cause * 256 + c.group * 65536) ++ leBytes 4 c.seqNo ++ leBytes 4 c.done ++ leBytes 4 c.endBeat

/-- The record of a core in BANK_STATUS (R210). -/
def State.bankRecord (s : State) (c : Nat) : List Byte :=
  let k := s.core c
  if !s.coreOn c then leBytes 8 0
  else
    leBytes 4 (k.bank0.state + 16 * k.bank1.state + 256 * s.reg (Reg.bankSelect c) + 512 * s.reg (Reg.mode c) +
      (if k.seq.running then 1024 else 0) + 2048 + 65536 * k.seg0.state + 1048576 * k.seg1.state) ++ leBytes 4 k.lastEnd

/-- A home command's status record (R311). -/
def homeStatusBytes (x : HomeStatus) : List Byte :=
  leBytes 4 (x.seqNo % 65536 + x.state * 65536 + x.cause * 524288) ++ leBytes 4 x.done

/-- A record of HOME_LOG (R311): source, destination, command, beat. -/
def homeLogBytes (l : List Nat) : List Byte :=
  leBytes 4 (l.getD 0 0) ++ leBytes 4 (l.getD 1 0) ++ leBytes 2 (l.getD 2 0) ++ leBytes 2 0 ++ leBytes 8 (l.getD 3 0) ++
    leBytes 12 0

/-- A record of RM_FAULT_LOG (R269). -/
def rmLogBytes (l : List Nat) : List Byte :=
  leBytes 2 (l.getD 0 0 % 16 + l.getD 1 0 % 16 * 16 + l.getD 2 0 % 128 * 256) ++ leBytes 2 (l.getD 3 0) ++
    leBytes 8 (l.getD 4 0) ++ leBytes 4 (l.getD 5 0)

/-- A record of FAULT_LOG (R368, R432). -/
def faultBytes (l : List Nat) : List Byte :=
  leBytes 1 (l.getD 0 0) ++ leBytes 2 (l.getD 1 0) ++ leBytes 1 (l.getD 2 0) ++ leBytes 8 (l.getD 3 0) ++ leBytes 4 0

/-- A device's word of DOMAIN_TABLE (R368). -/
def domainBytes (d : DomainDev) : List Byte :=
  leBytes 4 (d.loc % 16384 + (if d.standby then 16384 else 0) + d.mgrState % 256 * 65536 + d.partState % 256 * 16777216)

/-- Mean and highest erase count of a flash stack, in units of 1/1,000 of 5,000 cycles (R299, R316). -/
def State.wear (s : State) (top : Bool) (stack : Nat) : Nat :=
  let l := (s.tiers.erases.filter (fun e => e.1 / 131072 == stack)).map (fun e => e.2)
  if top then l.foldl max 0 / 5 else sumOf l / 655360

/-- Extents of a tier that a tenant holds, directory frames and images included (R301, R316). -/
def State.homeUse (s : State) (tenant tier : Nat) : Nat :=
  (s.tiers.homes.filter (fun h => h.tenant == tenant && homeTier h.addr == tier)).length +
    (if tier = 1 then s.dirFrames
     else if tier = 2 then sumOf ((s.tiers.images.filter (fun i => i.tenant == tenant)).map (fun i => i.extents.length)) else 0)

/-- The stored content of REPLICA with the load state of every record in bits [39:32] (R364). -/
def State.replicaBytes (s : State) (b : Blob) : List Byte :=
  (List.range (b.len / 8)).flatMap (fun i =>
    b.slice (8 * i) 4 ++ leBytes 1 (s.replicaState (b.nat (8 * i) 2)) ++ b.slice (8 * i + 5) 3)

/-- The 64 B header a bank reads as, where it holds an object (R209). -/
def bankHeader (b : Bank) : List Byte := if b.obj.len = 0 then [] else b.obj.slice 0 64

/-- Byte strings the device computes when they are read. -/
def State.computedBytes (s : State) (r : Role) (index sub : Nat) : Option (List Byte) :=
  let tenant := s.tenantNow
  let core := s.core (index - 0x4000)
  let perCore := decide (0x4000 ≤ index) && decide (index < 0x4080)
  match index, sub with
  | 0x1001, 1 => some [0x56, 0x61, 0x72, 0x6D, 0x75, 0x6E, 0x64]
  | 0x1001, 2 => some s.nv.factory.part
  | 0x1005, 1 => some s.nv.factory.bytes
  | 0x1400, 1 => some (Config.mldsaPublic s.security.seed)
  | 0x1400, 2 => some s.nv.factory.cert
  | 0x1400, 4 => some (s.attest r).report
  | 0x2100, 6 => some (if s.manager.roleLive = 2 then s.manager.domain.flatMap domainBytes else [])
  | 0x2100, 0x15 => some (s.replicaBytes (s.dom Reg.replica))
  | 0x2100, 0x16 => some (padTo 1024 (s.manager.faultLog.flatMap faultBytes))
  | 0x2200, 2 => some (s.tenantRecord (if r = .ten then s.reg Reg.sessionBind else s.selSlot r))
  | 0x2201, 7 => some (s.swap.times.flatMap (leBytes 4))
  | 0x2210, 1 => some (s.accounts r)
  | 0x2220, 1 => some (padTo 512 ((s.tslot (s.selSlot r)).records.flatMap minuteBytes))
  | 0x2600, 4 => some ((List.range 8).flatMap (fun i => collBytes (s.coll i)))
  | 0x2810, 4 => some ((List.range 4).flatMap (fun k => leBytes 2 (s.wear false k)))
  | 0x2810, 5 => some ((List.range 4).flatMap (fun k => leBytes 2 (s.wear true k)))
  | 0x2810, 8 => some ((s.tiers.images.filter (fun i => i.tenant == tenant)).flatMap (fun i => leBytes 2 i.id))
  | 0x2820, 1 => some (leBytes 1 (s.cxl 0) ++ leBytes 1 (s.cxl 1))
  | 0x2820, 2 => some (leBytes 4 (s.farExtents 0) ++ leBytes 4 (s.farExtents 1))
  | 0x2820, 3 => some (leBytes 4 (s.tierFree 3 0) ++ leBytes 4 (s.tierFree 3 1))
  | 0x2830, 2 => some ((List.range 16).flatMap (fun i =>
      homeStatusBytes (mapGetD ⟨0, 0, 0, 0⟩ (tenant * 16 + i) s.tiers.status)))
  | 0x2830, 3 => some ((mapGetD [] tenant s.tiers.result).flatMap (leBytes 4))
  | 0x2830, 4 => some (padTo 8192 (s.tiers.log.flatMap homeLogBytes))
  | 0x2830, 5 => some (leBytes 4 (s.homeUse tenant 1) ++ leBytes 4 (s.homeUse tenant 2) ++ leBytes 4 (s.homeUse tenant 3))
  | 0x2840, 7 => some (padTo 256 (s.rmem.faults.flatMap rmLogBytes))
  | 0x2A01, 1 => some ((List.range 16).flatMap (fun k => leBytes 2 (s.pool k).free))
  | 0x2A01, 2 => some (if (s.dom Reg.poolLow).cells = [] ∧ !s.time.ticked then (List.range 16).flatMap (fun _ => leBytes 2 16384)
                       else (s.dom Reg.poolLow).bytes)
  | 0x2A01, 3 => some ((List.range 256).flatMap (fun q => leBytes 2 (mapGetD 0 q (s.pool (s.reg Reg.quotaSel)).held)))
  | 0x3040, 4 => some ((List.range 256).flatMap (fun p => leBytes 1 (s.imageSlot p).state))
  | 0x4080, 1 => some ((List.range 128).flatMap s.bankRecord)
  | 0x50FF, 2 => some (padTo 64 s.security.repro)
  | _, 1 => if perCore then some (bankHeader core.bank0) else none
  | _, 2 => if perCore then some (bankHeader core.bank1) else none
  | _, 5 => if perCore then some (padTo 32 core.bank0.digest) else none
  | _, 6 => if perCore then some (padTo 32 core.bank1.digest) else none
  | _, _ => none

/-- The content of a byte string as a role reads it. -/
def State.readBytesOf (s : State) (r : Role) (row : ObjRow) (index sub : Nat) : List Byte :=
  (s.computedBytes r index sub).getD
    (if row.latched then s.latchedDom (s.keyOf r row index sub) else s.dom (s.keyOf r row index sub)).bytes

/-- A read of an object by a role, with SHADOW or without (R373, R382): an abort code and the content. An attestation report
that is not READY is refused (R403). -/
def State.readObject (s : State) (r : Role) (index sub : Nat) (shadow : Bool) : Nat × List Byte :=
  let code := s.accessCode r index sub false
  if code ≠ 0 then (code, [])
  else match rowOf index sub with
    | none => (abortCode 1 0xA1, [])
    | some row =>
      let k := s.keyOf r row index sub
      let h := s.shadow r
      if index = 0x1400 ∧ sub = 4 ∧ s.reg (perRole Reg.attestState r) ≠ 2 then (abortCode 7 0, [])
      else if row.isBytes then
        match (if shadow && row.staged then mapGet k h.doms else none) with
        | some b => (0, b.bytes)
        | none => (0, s.readBytesOf r row index sub)
      else
        match (if shadow && row.staged then mapGet k h.regs else none) with
        | some v => (0, leBytes (typeBytes row.type) v)
        | none => (0, leBytes (typeBytes row.type) (s.readNum r row index sub))

/-! ### Checks of a completed write (R9, R371, R374, R395, R400) -/

/-- The length check of a WRITE of n bytes. -/
def lengthCode (row : ObjRow) (n : Nat) : Nat :=
  let bad :=
    if !row.isBytes then n != typeBytes row.type
    else if n = 0 then !row.empties
    else decide (row.maxLen < n) || (row.fixed && n != row.maxLen) || n % row.item != 0
  if bad then abortCode 3 0xA0 else 0

/-- Reserved bits of the records of a table: bytes of a record, and its reserved fields as first bit and width. -/
def rsvdFields (index sub : Nat) : Nat × List (Nat × Nat) :=
  match index, sub with
  | 0x3010, 1 => (16, [(25, 7), (36, 4), (45, 3), (55, 9), (79, 1), (87, 1), (91, 5)])
  | 0x3020, 2 => (4, [(24, 7)])
  | 0x3030, 3 => (8, [(24, 8), (43, 21)])
  | 0x3040, 1 => (8, [(8, 8), (30, 2), (43, 5), (55, 8)])
  | 0x3040, 3 => (16, [(3, 5)])
  | 0x3100, 1 => (16, [(1, 7), (24, 8), (96, 32)])
  | 0x2840, 1 => (16, [(27, 5), (50, 10), (64, 63)])
  | 0x2400, 1 => (4, [(0, 6), (20, 11)])
  | 0x2401, 1 => (16, [(60, 4), (124, 4)])
  | 0x2500, 2 => (136, [(16, 48)])
  | 0x2600, 2 => (16384, [(16, 48)])
  | 0x2A00, 2 => (8, [(15, 1), (35, 29)])
  | 0x2100, 0x15 => (8, [(40, 24)])
  | _, _ => (1, [])

/-- The reserved bits of byte j of a record. -/
def rsvdByte (fs : List (Nat × Nat)) (j : Nat) : Nat :=
  sumOf (fs.map (fun f => sumOf (((List.range 8).filter (fun i => decide (f.1 ≤ 8 * j + i) && decide (8 * j + i < f.1 + f.2))).map
    (fun i => 2 ^ i))))

/-- Whether a byte string sets no reserved bit. -/
def reservedClear (index sub : Nat) (b : Blob) : Bool :=
  let f := rsvdFields index sub
  b.cells.all (fun c => c.2.toNat &&& rsvdByte f.2 (c.1 % f.1) == 0)

/-- The reserved bits of PORT_CFG and RM_COMBINE. -/
def reservedNum (index sub v : Nat) : Bool :=
  if 0x2300 ≤ index ∧ index < 0x233C ∧ sub = 1 then field v 4 4 == 0 && field v 13 19 == 0
  else if index = 0x2840 ∧ sub = 4 then field v 3 5 == 0
  else true

/-- The check of a number's value by its type (R371) and of its reserved bits. -/
def valueCode (row : ObjRow) (index sub v : Nat) : Nat :=
  firstFail [
    (row.type == .bool && decide (1 < v), abortCode 4 0),
    (row.type == .f32 && !fIsFin (BitVec.ofNat 32 v), abortCode 4 0),
    (!reservedNum index sub v, abortCode 4 0)]

/-! ### Commands the dictionary carries -/

/-- A write of HALL_TIME_SET (R35). The rule gives it no refusal for a value below the running hall time, which R28 lets never run
backwards: any value is taken (DESIGN CHOICE, assumption 144). -/
def State.writeHallTime (s : State) (t : Nat) : Result :=
  if s.manager.roleLive ≠ 0 ∨ s.time.hallTimeSet ∨ s.time.anchored then (abortCode 7 4, s)
  else (0, { s with time := { s.time with hallTime := t % 2 ^ 64, hallTimeSet := true } })

/-- A write of SESSION_BIND (R378): a change ends any transfer in the tenant block. -/
def State.writeBind (s : State) (v : Nat) : Result :=
  if v ≠ 0xFF ∧ (15 < v ∨ (s.tslot v).state = 0) then (abortCode 4 0, s)
  else if v = s.reg Reg.sessionBind then (0, s)
  else (0, s.endTenantTransfer.setReg Reg.sessionBind v)

/-- A write of TENANT_SEL (R350): a tenant selects only its own slot. -/
def State.writeTenantSel (s : State) (r : Role) (v : Nat) : Result :=
  if 15 < v then (abortCode 4 0, s)
  else if r = .ten ∧ v ≠ s.reg Reg.sessionBind then (abortCode 2 0, s)
  else (0, s.setReg (perRole Reg.tenantSel r) v)

/-- A whole transfer to a bank; one of length 0 leaves it EMPTY (R200, R395). -/
def State.writeBankObj (s : State) (core bank : Nat) (bs : List Byte) : Result :=
  if bs = [] then
    let code := s.bankCheck core bank
    if code ≠ 0 then (code, s) else (0, s.updCore core (fun k => k.setBank bank Bank.empty))
  else s.writeBank core bank bs

/-- A completed write to an object that is a command: a number. -/
def State.numCommand (s : State) (r : Role) (index sub v : Nat) : Option Result :=
  match index, sub with
  | 0x1010, 1 => some (s.writeStore false v)
  | 0x1011, 1 => some (s.writeStore true v)
  | 0x1020, 1 => some (s.writeBind v)
  | 0x2002, 2 => some (s.writeHallTime v)
  | 0x2010, 1 => some (s.writeCommit r v)
  | 0x2100, 0x10 => some (s.writePartCmd v)
  | 0x2100, 0x17 => some (s.writeAdmit v)
  | 0x2200, 1 => some (s.writeTenantSel r v)
  | 0x2201, 4 => some (s.writeSwapCmd v)
  | 0x2402, 4 => some (s.writeDrainCmd v)
  | 0x2810, 7 => some (s.writeImageDelete r v)
  | 0x2840, 5 => some (s.writeRecall v)
  | 0x3040, 5 => some (s.writeImageLoad v)
  | 0x6500, 7 => some (s.writeAlarm v)
  | 0x7000, 0x20 => some (s.writeBatchCancel v)
  | 0x8000, 1 => some (s.writeDiag v)
  | 0x2400, 5 => some (if 16383 < v then (abortCode 4 0, s) else (0, s.setReg Reg.location (v / 4 * 4 + s.package.devId)))
  | _, _ => none

/-- A completed write to an object that is a command: a byte string. A firmware image written whole goes on to be
verified. -/
def State.bytesCommand (s : State) (r : Role) (index sub : Nat) (bs : List Byte) : Option Result :=
  match index, sub with
  | 0x1014, 5 =>
    let x := s.startFw
    some (if x.1 = 0 then (0, x.2.verifyFw bs) else x)
  | 0x1400, 3 => some (s.writeNonce r bs)
  | 0x2200, 2 => some (s.writeTenantReg (s.selSlot r) bs)
  | 0x2600, 3 => some (s.writeCollStart bs)
  | 0x2810, 6 => some (s.writeImage r bs)
  | 0x2830, 1 => some (s.writeHomeCmd r bs)
  | 0x6400, 4 => some (s.writeClipFlags bs)
  | i, 1 => if 0x4000 ≤ i ∧ i < 0x4080 then some (s.writeBankObj (i - 0x4000) 0 bs) else none
  | i, 2 => if 0x4000 ≤ i ∧ i < 0x4080 then some (s.writeBankObj (i - 0x4000) 1 bs) else none
  | _, _ => none

/-! ### Staging (R50, R52, R68) -/

/-- Whether an object is one of the gate tables the inactive half holds (R68). -/
def isGateTable (index sub : Nat) : Bool := index == 0x3010 && decide (3 ≤ sub) && decide (sub ≤ 6)

/-- The state checks of a write to an object flagged S. -/
def State.stageCode (s : State) (r : Role) (index sub : Nat) (bs : List Byte) : Nat :=
  let owner := s.reg Reg.gateOwner
  firstFail [
    ((mapGet (roleNum r) s.commits).isSome, abortCode 5 4),
    (isGateTable index sub && s.reg Reg.gateCopyBusy == 1, abortCode 7 0x30),
    (isGateTable index sub && owner != 0xFF && owner != roleNum r, abortCode 5 0x32),
    (decide (0x4000 ≤ index) && decide (index < 0x4080) && sub == 8 && bs != [] && s.loaderCheck (index - 0x4000) 2 bs != 0,
      s.loaderCheck (index - 0x4000) 2 bs)]

/-- The first table write of a role claims the inactive half (R68). A refused template object is kept in LOAD_ABORT
(R209). -/
def State.claim (s : State) (r : Role) (index sub : Nat) : State :=
  if isGateTable index sub then s.setReg Reg.gateOwner (roleNum r) else s

/-- A refused KIND 2 object in LOAD_ABORT (R209). -/
def State.noteLoad (s : State) (index sub code : Nat) : State :=
  if 0x4000 ≤ index ∧ index < 0x4080 ∧ sub = 8 ∧ code ≠ abortCode 5 4 then s.setReg (Reg.loadAbort (index - 0x4000)) code else s

/-- A number joins a role's shadow set. -/
def State.stageNum (s : State) (r : Role) (index sub k v : Nat) : Result :=
  let code := s.stageCode r index sub []
  if code ≠ 0 then (code, s)
  else
    let h := s.shadow r
    (0, s.setShadow r { h with regs := mapSet k v h.regs })

/-- A byte string joins a role's shadow set. -/
def State.stageBytes (s : State) (r : Role) (index sub k : Nat) (b : Blob) (whole : List Byte) : Result :=
  let code := s.stageCode r index sub whole
  if code ≠ 0 then (code, s.noteLoad index sub code)
  else
    let s := s.claim r index sub
    let h := s.shadow r
    (0, s.setShadow r { h with doms := mapSet k b h.doms })

/-! ### A completed write (R374, R383) -/

/-- A completed WRITE of a number. -/
def State.writeNum (s : State) (r : Role) (row : ObjRow) (index sub v : Nat) : Result :=
  let k := s.keyOf r row index sub
  let code := valueCode row index sub v
  if code ≠ 0 then (code, s)
  else if row.staged then s.stageNum r index sub k v
  else match s.numCommand r index sub v with
    | some x => x
    | none => if rangeOk (objKey index sub) v then (0, s.setReg k v) else (abortCode 4 0, s)

/-- A completed WRITE of a byte string. -/
def State.writeDom (s : State) (r : Role) (row : ObjRow) (index sub : Nat) (bs : List Byte) : Result :=
  let b := Blob.ofBytes bs
  if !reservedClear index sub b then (abortCode 4 0, s)
  else if row.staged then s.stageBytes r index sub (s.keyOf r row index sub) b bs
  else match s.bytesCommand r index sub bs with
    | some x => x
    | none => (0, s.setDom (s.keyOf r row index sub) b)

/-- A completed WRITE by a role (R374): address, access and role, type and length, reserved bits, then range and state. -/
def State.writeObject (s : State) (r : Role) (index sub : Nat) (bs : List Byte) : Result :=
  let code := s.accessCode r index sub true
  if code ≠ 0 then (code, s)
  else match rowOf index sub with
    | none => (abortCode 1 0xA1, s)
    | some row =>
      if lengthCode row bs.length ≠ 0 then (lengthCode row bs.length, s)
      else if row.isBytes then s.writeDom r row index sub bs
      else s.writeNum r row index sub (leNat bs)

/-- The base of a PATCH (R383): the role's shadow, or the live content where none is staged. -/
def State.patchBase (s : State) (r : Role) (row : ObjRow) (index sub : Nat) : Blob :=
  let k := s.keyOf r row index sub
  (mapGet k (s.shadow r).doms).getD (s.dom k)

/-- The check of a PATCH of n bytes at an offset. -/
def State.patchCode (s : State) (r : Role) (index sub off n : Nat) : Nat :=
  let code := s.accessCode r index sub true
  if code ≠ 0 then code
  else match rowOf index sub with
    | none => abortCode 1 0xA1
    | some row =>
      if row.type ≠ .dom ∨ !row.staged then abortCode 3 0xA3
      else if n ≠ 0 ∧ (s.patchBase r row index sub).len < off + n then abortCode 3 0xA3
      else 0

/-- A completed PATCH by a role; one of length 0 has no effect (R395). -/
def State.patchObject (s : State) (r : Role) (index sub off : Nat) (bs : List Byte) : Result :=
  let code := s.patchCode r index sub off bs.length
  if code ≠ 0 then (code, s)
  else if bs = [] then (0, s)
  else match rowOf index sub with
    | none => (abortCode 1 0xA1, s)
    | some row =>
      let b := (s.patchBase r row index sub).patch off bs
      if !reservedClear index sub b then (abortCode 4 0, s)
      else s.stageBytes r index sub (s.keyOf r row index sub) b (if sub = 8 ∧ 0x4000 ≤ index then b.bytes else [])

/-! ### Commands with rows of their own -/

/-- COMMIT_NEXT_TICK (R51 value 1, R55). -/
def execCommitNextTick (r : Role) (s : State) : Host.Outcome State Fault Refusal :=
  .next (s.command r Reg.commitCmd (fun t => t.writeCommit r 1))

/-- COMMIT_AT_BEAT (R51 value 2, R55): the beat is the role's COMMIT_BEAT. -/
def execCommitAtBeat (r : Role) (s : State) : Host.Outcome State Fault Refusal :=
  .next (s.command r Reg.commitCmd (fun t => t.writeCommit r 2))

/-- COMMIT_CANCEL (R51 value 3). -/
def execCommitCancel (r : Role) (s : State) : Host.Outcome State Fault Refusal :=
  .next (s.command r Reg.commitCmd (fun t => t.writeCommit r 3))

/-- COMMIT_DISCARD (R51 value 4). -/
def execCommitDiscard (r : Role) (s : State) : Host.Outcome State Fault Refusal :=
  .next (s.command r Reg.commitCmd (fun t => t.writeCommit r 4))

/-- HALL_TIME_SET (R35). -/
def execHallTimeSet (r : Role) (t : Nat) (s : State) : Host.Outcome State Fault Refusal :=
  .next (s.command r Reg.hallTimeSet (fun u => u.writeHallTime t))

/-- DICTIONARY_WRITE (R374): a completed write to any object. -/
def execDictionaryWrite (r : Role) (index sub : Nat) (value : List Byte) (s : State) : Host.Outcome State Fault Refusal :=
  .next (s.command r (objKey (index % 65536) (sub % 256)) (fun t => t.writeObject r (index % 65536) (sub % 256) value))

/-- BATCH_CANCEL (R105). -/
def execBatchCancel (r : Role) (tag : Nat) (s : State) : Host.Outcome State Fault Refusal :=
  .next (s.command r Reg.batchCancel (fun t => t.writeBatchCancel tag))

/-- BANK_WRITE (R200, R207): a whole loader object for a bank. -/
def execBankWrite (r : Role) (core bank : Nat) (obj : List Byte) (s : State) : Host.Outcome State Fault Refusal :=
  .next (s.command r (objKey (0x4000 + core % 128) (1 + bank % 2)) (fun t => t.writeObject r (0x4000 + core % 128) (1 + bank % 2) obj))

/-- SEG_TEMPLATES_WRITE (R208): a KIND 2 object is checked and staged. -/
def execSegTemplatesWrite (r : Role) (core : Nat) (obj : List Byte) (s : State) : Host.Outcome State Fault Refusal :=
  .next (s.command r (objKey (0x4000 + core % 128) 8) (fun t => t.writeObject r (0x4000 + core % 128) 8 obj))

/-- DRAIN_START (R241). -/
def execDrainStart (r : Role) (s : State) : Host.Outcome State Fault Refusal :=
  .next (s.command r Reg.drainCmd (fun t => t.writeDrainCmd 1))

/-- DRAIN_RELEASE (R241). -/
def execDrainRelease (r : Role) (s : State) : Host.Outcome State Fault Refusal :=
  .next (s.command r Reg.drainCmd (fun t => t.writeDrainCmd 2))

/-- RM_RECALL (R256). -/
def execRmRecall (r : Role) (jpn : Nat) (s : State) : Host.Outcome State Fault Refusal :=
  .next (s.command r Reg.rmRecall (fun t => t.writeRecall jpn))

/-- COLL_START (R277): a write of a descriptor by a role, or a mover slot of a core that names a descriptor in its scratchpad. -/
def execCollStart (src : CollSource) (s : State) : Host.Outcome State Fault Refusal :=
  .next (match src with
    | .host r descr => s.command r Reg.collStart (fun t => t.writeObject r 0x2600 3 descr)
    | .slot core place => s.slotCollStart core place)

/-- ALLOC (R307). -/
def execAlloc (r : Role) (tier : Nat) (spread : Bool) (port cluster count : Nat) (s : State) :
    Host.Outcome State Fault Refusal :=
  .next (s.command r Reg.homeCmd (fun t => t.writeHomeCmd r (homeCmdBytes 1 tier spread port cluster 0 count 0 0)))

/-- FREE (R307). -/
def execFree (r : Role) (home tier : Nat) (s : State) : Host.Outcome State Fault Refusal :=
  .next (s.command r Reg.homeCmd (fun t => t.writeHomeCmd r (homeCmdBytes 2 tier false 0 0 home 0 0 0)))

/-- MOVE (R307, R308). -/
def execMove (r : Role) (home tier : Nat) (spread : Bool) (port cluster : Nat) (s : State) :
    Host.Outcome State Fault Refusal :=
  .next (s.command r Reg.homeCmd (fun t => t.writeHomeCmd r (homeCmdBytes 3 tier spread port cluster home 0 0 0)))

/-- PARK (R307, R314). -/
def execPark (r : Role) (tag lane tier port : Nat) (s : State) : Host.Outcome State Fault Refusal :=
  .next (s.command r Reg.homeCmd (fun t => t.writeHomeCmd r (homeCmdBytes 4 tier false port 0 0 0 tag lane)))

/-- UNPARK (R307, R314). -/
def execUnpark (r : Role) (tag lane : Nat) (s : State) : Host.Outcome State Fault Refusal :=
  .next (s.command r Reg.homeCmd (fun t => t.writeHomeCmd r (homeCmdBytes 5 1 false 0 0 0 0 tag lane)))

/-- IMAGE_STORE (R301). -/
def execImageStore (r : Role) (bytes : List Byte) (s : State) : Host.Outcome State Fault Refusal :=
  .next (s.command r Reg.imageStore (fun t => t.writeObject r 0x2810 6 bytes))

/-- IMAGE_DELETE (R301). -/
def execImageDelete (r : Role) (id : Nat) (s : State) : Host.Outcome State Fault Refusal :=
  .next (s.command r Reg.imageDelete (fun t => t.writeImageDelete r (id % 65536)))

/-- IMAGE_LOAD (R119). -/
def execImageLoad (r : Role) (pslot : Nat) (s : State) : Host.Outcome State Fault Refusal :=
  .next (s.command r Reg.imageLoad (fun t => t.writeImageLoad (pslot % 256)))

/-- SESSION_BIND (R378). -/
def execSessionBind (r : Role) (slot : Nat) (s : State) : Host.Outcome State Fault Refusal :=
  .next (s.command r Reg.sessionBind (fun t => t.writeBind (slot % 256)))

end Sys2Proof.Machine
end

