-- ==== Sys2Proof/Machine/Host.lean ====
section
/-! DEFINITION. The transports of the dictionary (R375 to R392): transfers of the host window's session blocks, transfers
forwarded to a worker, the I3C target, and the summary. -/

namespace Sys2Proof.Machine

open Sys2Proof

/-! ### Selection (R381) -/

/-- The fields of DX_SEL. -/
def selSub (v : Nat) : Nat := field v 0 8

/-- The index of DX_SEL. -/
def selIndex (v : Nat) : Nat := field v 8 16

/-- SHADOW of DX_SEL. -/
def selShadow (v : Nat) : Bool := v.testBit 24

/-- TARGET of DX_SEL. -/
def selTarget (v : Nat) : Nat := field v 32 14

/-- REMOTE of DX_SEL. -/
def selRemote (v : Nat) : Bool := v.testBit 46

/-- Whether DX_SEL sets a reserved bit; TARGET is one outside the manager-proxy block. -/
def selReserved (r : Role) (v : Nat) : Bool :=
  field v 25 7 != 0 || field v 47 17 != 0 || (r != .mgr && selTarget v != 0)

/-- 64-bit words of n bytes. -/
def wordCount (n : Nat) : Nat := (n + 7) / 8

/-- Words of a segment and of the session buffer (R384). -/
def segWords : Nat := 512

/-- Words of the session buffer. -/
def bufWords : Nat := 2048

/-- Whether an object is a bank of a core. -/
def isBankObj (index sub : Nat) : Bool := decide (0x4000 ≤ index) && decide (index < 0x4080) && (sub == 1 || sub == 2)

/-- FW_UPDATE. -/
def isFwObj (index sub : Nat) : Bool := index == 0x1014 && sub == 5

/-- A diagnostics object, whose records are rewritten whole (R408). -/
def isDiagObj (index : Nat) : Bool := decide (0x8001 ≤ index) && decide (index ≤ 0x8004)

/-! ### Forwarding (R386) -/

/-- A DX request of the manager-proxy session leaves for its target. -/
def State.sendDx (s : State) (x : Session) (seqNo off len : Nat) (final : Bool) (payload : List Byte) : State :=
  let h : DxHdr := { cmd := x.cmd, shadow := selShadow x.sel, final := final, sub := x.sub, index := x.index,
                     seqNo := seqNo, offset := off, len := len, abort := 0 }
  s.sendMgmt x.target (.dxRequest h payload)

/-- The forwarded transfer's next request: the next segment of a write as soon as it is whole, or of a read as soon as the
buffer has room; never before the response to the one before. -/
def State.pumpRemote (s : State) : State :=
  let x := s.session 1
  match x.remote with
  | none => s
  | some q =>
    if x.asked ∨ !x.busy then s
    else if x.cmd = 1 then
      let got := x.offset
      if got < x.total ∧ x.data.length + 4096 ≤ 16384 then
        (s.setSession 1 { x with asked := true, lastMove := s.time.hallTime }).sendDx x q (x.len / 2 ^ 32 + got) x.total false []
      else s
    else if x.data.length < 4096 ∧ 0 < x.left then s
    else
      let seg := x.data.take 4096
      let rest := x.data.drop 4096
      let final := decide (x.left = 0) && rest.isEmpty
      let y := { x with asked := true, data := rest, offset := x.offset + seg.length, lastMove := s.time.hallTime,
                        words := min (bufWords - wordCount rest.length) (wordCount x.left) }
      (s.setSession 1 y).sendDx x q x.offset x.total final seg

/-- The checks on REMOTE (R386). -/
def State.remoteCode (s : State) (r : Role) (sel : Nat) : Nat :=
  firstFail [
    (r != .mgr || s.manager.roleLive != 2, abortCode 2 0xA0),
    (!s.manager.domain.any (fun d => d.loc == selTarget sel && d.mgrState == 1), abortCode 1 0xA3),
    (selReserved r sel, abortCode 4 0)]

/-- A forwarded transfer starts: a read asks for its first segment, a write waits for words. -/
def State.startRemote (s : State) (x : Session) : State :=
  let q := s.host.nextSeq
  let s := { s with host := { s.host with nextSeq := (q + 1) % 65536 } }
  let x := { x with remote := some q, target := selTarget x.sel }
  let len := x.len % 2 ^ 32
  let off := x.len / 2 ^ 32
  if x.cmd = 1 then
    (s.setSession 1 { x with state := 1, asked := true, total := len, left := 0, offset := 0, data := [] }).sendDx x q off len false []
  else
    let y := { x with state := if len = 0 then 1 else 2, total := len, left := len, data := [],
                      offset := if x.cmd = 3 then off else 0, words := min bufWords (wordCount len) }
    (s.setSession 1 y).pumpRemote

/-! ### Commands (R381 to R385) -/

/-- The end of a write transfer whose last word has arrived (R383). A firmware image stays BUSY until it is verified. -/
def State.finishWrite (s : State) (r : Role) (x : Session) (bs : List Byte) : State :=
  let b := roleNum r
  if isFwObj x.index x.sub then (s.setSession b { x with state := 1, words := 0, left := 0, data := [] }).verifyFw bs
  else
    let res :=
      if x.cmd = 3 then s.patchObject r x.index x.sub x.offset bs
      else if isBankObj x.index x.sub ∧ bs ≠ [] then s.loadBank (x.index - 0x4000) (x.sub - 1) bs
      else if isBankObj x.index x.sub then
        (0, s.updCore (x.index - 0x4000) (fun k => k.setBank (x.sub - 1) Bank.empty))
      else s.writeObject r x.index x.sub bs
    res.2.endTransfer b res.1

/-- A local READ (R382). -/
def State.startRead (s : State) (r : Role) (x : Session) : State :=
  let b := roleNum r
  let c := s.readObject r x.index x.sub (selShadow x.sel)
  let off := x.len / 2 ^ 32
  let len := x.len % 2 ^ 32
  let code := firstFail [
    (c.1 != 0, c.1),
    (selReserved r x.sel, abortCode 4 0),
    (decide (c.2.length < off), abortCode 1 0xA2)]
  if code ≠ 0 then (s.countRefusal code).endTransfer b code
  else
    let n := if len = 0xFFFFFFFF then c.2.length - off else min len (c.2.length - off)
    if n = 0 then s.endTransfer b 0
    else s.setSession b { x with state := 2, data := c.2, offset := off, total := n, left := n,
                                 words := if c.2.length ≤ 16384 then wordCount n else 0 }

/-- The check of a bank or a firmware update before its words arrive, and the state it leaves (R199, R200, R425). -/
def State.openWrite (s : State) (index sub : Nat) : Result :=
  if isBankObj index sub then
    let code := s.bankCheck (index - 0x4000) (sub - 1)
    if code ≠ 0 then (code, s) else (0, s.bankState (index - 0x4000) (sub - 1) 1)
  else if isFwObj index sub then s.startFw
  else (0, s)

/-- A local WRITE or PATCH (R383). -/
def State.startWrite (s : State) (r : Role) (x : Session) : State :=
  let b := roleNum r
  let len := x.len % 2 ^ 32
  let off := x.len / 2 ^ 32
  let form :=
    if x.cmd = 3 then s.patchCode r x.index x.sub off len
    else firstFail [
      (s.accessCode r x.index x.sub true != 0, s.accessCode r x.index x.sub true),
      (match rowOf x.index x.sub with
       | some row => lengthCode row len != 0
       | none => true, abortCode 3 0xA0)]
  let code := firstFail [(form != 0, form), (selReserved r x.sel, abortCode 4 0)]
  if code ≠ 0 then (s.countRefusal code).endTransfer b code
  else
    let x := { x with offset := if x.cmd = 3 then off else 0, total := len, left := len, data := [] }
    let o := if x.cmd = 2 then s.openWrite x.index x.sub else (0, s)
    if o.1 ≠ 0 then o.2.endTransfer b o.1
    else if len = 0 then (o.2.setSession b x).finishWrite r x []
    else o.2.setSession b { x with state := 2, words := min bufWords (wordCount len) }

/-- A write of READ (1), WRITE (2) or PATCH (3) to DX_CMD, with DX_SEL and DX_LEN latched; during a transfer it ends that
transfer and does not start (R385). -/
def State.dxCommand (s : State) (r : Role) (cmd sel len : Nat) : State :=
  if s.manager.mgmtDead then s
  else
    let b := roleNum r
    if (s.session b).busy then s.failTransfer b (abortCode 7 0xA0)
    else
      let x : Session := { Session.idle with sel := sel, len := len, cmd := cmd, index := selIndex sel, sub := selSub sel,
                                             lastMove := s.time.hallTime }
      let s := (s.setSession b x).count Reg.dxTransfers 1
      if selRemote sel then
        let code := if s.answers r 0x1004 2 then s.remoteCode r sel else abortCode 7 0xA2
        if code ≠ 0 then s.endTransfer b code else s.startRemote x
      else if cmd = 1 then s.startRead r x
      else s.startWrite r x

/-- READ (R382). -/
def execRead (r : Role) (sel len : Word64) (s : State) : Host.Outcome State Fault Refusal :=
  .next (s.dxCommand r 1 sel.toNat len.toNat)

/-- WRITE (R383). -/
def execWrite (r : Role) (sel len : Word64) (s : State) : Host.Outcome State Fault Refusal :=
  .next (s.dxCommand r 2 sel.toNat len.toNat)

/-- PATCH (R383). -/
def execPatch (r : Role) (sel len : Word64) (s : State) : Host.Outcome State Fault Refusal :=
  .next (s.dxCommand r 3 sel.toNat len.toNat)

/-- CANCEL (R385): ends the running transfer; with none it has no effect. A forwarded transfer is cancelled at its worker
too. -/
def execCancel (r : Role) (s : State) : Host.Outcome State Fault Refusal :=
  let b := roleNum r
  let x := s.session b
  .next (
    if s.manager.mgmtDead ∨ !x.busy then s
    else
      let s := match x.remote with
        | some q => s.sendDx { x with cmd := 4 } q 0 0 false []
        | none => s
      s.failTransfer b (abortCode 7 0xA3))

/-! ### Data words (R379, R382 to R385) -/

/-- A request that R379 does not allow: counted; a read returns zeros. -/
def State.badRequest (s : State) (isRead : Bool) (n : Nat) : State :=
  let s := if isRead then { s with host := { s.host with reply := List.replicate (min n 512) 0 } } else s
  s.count Reg.badAccess 1

/-- A tenant's transfer ends where its slot no longer runs (R385). -/
def State.checkTenant (s : State) (r : Role) : State := if r = .ten ∧ !s.tenantOpen then s.endTenantTransfer else s

/-- DX_DATA_WRITE (R384, R385): 1 to 8 words. More words than WORDS end the transfer; outside a write transfer they are
discarded. -/
def execDxDataWrite (r : Role) (words : List Word64) (s : State) : Host.Outcome State Fault Refusal :=
  let b := roleNum r
  let s := if s.manager.mgmtDead then s else s.checkTenant r
  let x := s.session b
  let n := words.length
  .next (
    if s.manager.mgmtDead then s
    else if n = 0 ∨ 8 < n then s.badRequest false n
    else if !x.busy ∨ x.cmd = 1 then s
    else if x.state = 1 ∨ x.words < n then s.failTransfer b (abortCode 3 0xA1)
    else
      let bs := (ofWords words).take x.left
      let y := { x with data := x.data ++ bs, left := x.left - bs.length, words := x.words - n, lastMove := s.time.hallTime }
      if x.remote.isSome then (s.setSession b { y with state := if y.left = 0 then 1 else 2 }).pumpRemote
      else if y.left = 0 then (s.setSession b y).finishWrite r y y.data
      else s.setSession b y)

/-- The next n bytes of a read: from the buffer of a forwarded one, else from the object's copied content. -/
def Session.nextBytes (x : Session) (n : Nat) : List Byte :=
  if x.remote.isSome then x.data.take n else bytesAt x.data (x.offset + (x.total - x.left)) n

/-- Whether the object a read copies has changed since its command (R382, R408). -/
def State.readChanged (s : State) (r : Role) (x : Session) : Bool :=
  x.remote.isNone && (s.readObject r x.index x.sub (selShadow x.sel)).2 != x.data

/-- DX_DATA_READ (R382, R385): n words, the last padded with zeros; a read past WORDS ends the transfer; outside DATA and BUSY
it returns zeros, and in BUSY words the manual does not state. -/
def execDxDataRead (r : Role) (n : Nat) (s : State) : Host.Outcome State Fault Refusal :=
  let b := roleNum r
  let s := if s.manager.mgmtDead then s else s.checkTenant r
  let x := s.session b
  let put := fun (s : State) (ws : List Word64) => { s with host := { s.host with reply := ws } }
  .next (
    if s.manager.mgmtDead then s
    else if n = 0 ∨ 8 < n then s.badRequest true n
    else if x.state = 1 then (let f := s.fresh; put f.2 ((List.range n).map (Config.busyWord f.1)))
    else if x.state ≠ 2 ∨ x.cmd ≠ 1 then put s (List.replicate n 0)
    else if isDiagObj x.index ∧ s.readChanged r x then put (s.failTransfer b (abortCode 7 0xA4)) (List.replicate n 0)
    else
      let m := min n x.words
      let k := min (8 * m) x.left
      let ws := toWords (x.nextBytes k)
      let s := put s (ws ++ List.replicate (n - ws.length) 0)
      let moved := if m = 0 then x.lastMove else s.time.hallTime
      let rest := if x.remote.isSome then x.data.drop k else x.data
      let y : Session := { x with left := x.left - k, words := x.words - m, lastMove := moved, data := rest }
      if y.left = 0 then s.endTransfer b 0
      else if x.words < n then s.failTransfer b (abortCode 3 0xA2)
      else if x.remote.isSome then (s.setSession b y).pumpRemote
      else s.setSession b y)

/-- DX_SEGMENT_MOVE (R382, R384): the device copies the next 4,096 B of a long read, or drains 4,096 B of a write. -/
def execDxSegmentMove (r : Role) (s : State) : Host.Outcome State Fault Refusal :=
  let b := roleNum r
  let x := s.session b
  .next (
    if s.manager.mgmtDead ∨ x.state ≠ 2 then s
    else if x.remote.isSome then s.pumpRemote
    else if x.cmd = 1 then
      if wordCount x.left ≤ x.words ∨ bufWords < x.words + segWords then s
      else if s.readChanged r x then s.failTransfer b (abortCode 7 0xA4)
      else s.setSession b { x with words := min (x.words + segWords) (wordCount x.left) }
    else s.setSession b { x with words := min (x.words + segWords) (min bufWords (wordCount x.left)) })

/-- DX_IDLE_TIMEOUT (R385). -/
def execDxIdleTimeout (r : Role) (s : State) : Host.Outcome State Fault Refusal :=
  let b := roleNum r
  let x := s.session b
  .next (
    if s.manager.mgmtDead ∨ x.state ≠ 2 then s
    else (s.advanceTo (x.lastMove + s.reg Reg.dxIdleTimeout)).failTransfer b (abortCode 7 0xA5))

/-- BAD_WINDOW_ACCESS (R379): len bytes at an offset or of a shape that R379 does not allow. -/
def execBadWindowAccess (isRead : Bool) (len : Nat) (s : State) : Host.Outcome State Fault Refusal :=
  .next (if s.manager.mgmtDead then s else s.badRequest isRead (wordCount len))

/-- FW_UPDATE_DONE (R425): the verification ends, and with it the transfer that brought the image. -/
def execFwUpdateDone (readBackOk : Bool) (s : State) : Host.Outcome State Fault Refusal :=
  let x := s.session 0
  .next (
    if s.reg Reg.fwUpdateState ≠ 2 then s
    else
      let e := s.endFw readBackOk
      if x.state = 1 ∧ x.cmd = 2 ∧ isFwObj x.index x.sub then e.2.endTransfer 0 e.1 else answer .op e)

/-! ### A worker's side of a forwarded transfer (R386) -/

/-- The worker's transfers without one. -/
def State.dropXfer (s : State) (seqNo : Nat) : State :=
  { s with host := { s.host with fabric := s.host.fabric.filter (fun f => f.seqNo != seqNo) } }

/-- The worker's transfers with one put. -/
def State.putXfer (s : State) (f : FabricXfer) : State :=
  let t := s.dropXfer f.seqNo
  { t with host := { t.host with fabric := t.host.fabric ++ [f] } }

/-- A response to a request: success or an abort code, the bytes of the whole transfer, and a payload. -/
def State.dxAnswer (s : State) (src : Nat) (h : DxHdr) (code len : Nat) (payload : List Byte) : State :=
  s.sendMgmt src (.dxResponse { h with abort := code, len := len } payload)

/-- A write of a bank that does not complete leaves the bank INVALID (R199). -/
def State.spoilBank (s : State) (h : DxHdr) : State :=
  if h.cmd = 2 ∧ isBankObj h.index h.sub then s.bankState (h.index - 0x4000) (h.sub - 1) 3 else s

/-- A transfer of the worker that is refused or cancelled is abandoned (R199, R385). -/
def State.cancelXfer (s : State) (seqNo : Nat) : State :=
  match s.host.fabric.find? (fun f => f.seqNo == seqNo) with
  | some f => (s.dropXfer seqNo).spoilBank f.hdr
  | none => s

/-- A request that fails: the transfer is abandoned. -/
def State.dxFail (s : State) (src : Nat) (h : DxHdr) (code : Nat) : State := (s.cancelXfer h.seqNo).dxAnswer src h code 0 []

/-- A read segment: the object is copied at the first one; a later one of an object longer than 16 KiB finds it changed or
not. -/
def State.serveDxRead (s : State) (src : Nat) (h : DxHdr) (held : Option FabricXfer) : State :=
  let now := s.readObject .mgr h.index h.sub h.shadow
  let bs := match held with
    | some f => if f.data.length ≤ 16384 then f.data else now.2
    | none => now.2
  let changed := match held with
    | some f => bs != f.data
    | none => false
  let start := (held.map (fun f => f.hdr.offset)).getD h.offset
  let whole := if h.len = 0xFFFFFFFF then bs.length - start else min h.len (bs.length - start)
  let left := start + whole - h.offset
  let code := firstFail [
    (held.isNone && now.1 != 0, now.1),
    (decide (bs.length < h.offset), abortCode 1 0xA2),
    (changed, abortCode 7 0xA4)]
  if code ≠ 0 then s.dxFail src h code
  else
    let seg := bytesAt bs h.offset (min 4096 left)
    let s := if left ≤ 4096 then s.dropXfer h.seqNo else s.putXfer ⟨h.seqNo, { h with offset := start }, bs⟩
    s.dxAnswer src h 0 whole seg

/-- A segment of a write or patch: checked at the first one, applied at the one that carries FINAL. -/
def State.serveDxWrite (s : State) (src : Nat) (h : DxHdr) (payload : List Byte) (held : Option FabricXfer) : State :=
  let start := (held.map (fun f => f.hdr.offset)).getD h.offset
  let first := held.isNone
  let form :=
    if h.cmd = 3 then s.patchCode .mgr h.index h.sub start h.len
    else firstFail [
      (s.accessCode .mgr h.index h.sub true != 0, s.accessCode .mgr h.index h.sub true),
      (match rowOf h.index h.sub with
       | some row => lengthCode row h.len != 0
       | none => true, abortCode 3 0xA0)]
  let open' := if first ∧ h.cmd = 2 ∧ form = 0 then s.openWrite h.index h.sub else (0, s)
  if form ≠ 0 then s.dxFail src h form
  else if open'.1 ≠ 0 then s.dxFail src h open'.1
  else
    let s := open'.2
    let bs := ((held.map (fun f => f.data)).getD []) ++ payload
    if !h.final then (s.putXfer ⟨h.seqNo, { h with offset := start }, bs⟩).dxAnswer src h 0 h.len []
    else
      let s := s.dropXfer h.seqNo
      let x :=
        if bs.length ≠ h.len then (abortCode 3 0xA0, s.spoilBank h)
        else if h.cmd = 3 then s.patchObject .mgr h.index h.sub start bs
        else if isBankObj h.index h.sub ∧ bs ≠ [] then s.loadBank (h.index - 0x4000) (h.sub - 1) bs
        else if isBankObj h.index h.sub then (0, s.updCore (h.index - 0x4000) (fun k => k.setBank (h.sub - 1) Bank.empty))
        else s.writeObject .mgr h.index h.sub bs
      x.2.dxAnswer src h x.1 h.len []

/-- A request that begins a transfer of the fabric session is counted (R397). -/
def State.countXfer (s : State) (held : Option FabricXfer) : State := if held.isNone then s.count Reg.dxTransfers 1 else s

/-- DX_REQUEST (R386): a worker serves DX packets of its manager only, up to 16 transfers at once; it discards others under
R246. -/
def execDxRequest (src : Nat) (h : DxHdr) (payload : List Byte) (s : State) : Host.Outcome State Fault Refusal :=
  let s := s.takeMsg (.dxRequest h payload)
  let held := s.host.fabric.find? (fun f => f.seqNo == h.seqNo)
  .next (
    if s.manager.mgmtDead then s
    else if s.reg Reg.mgrState ≠ 1 ∨ src ≠ s.reg Reg.managerLoc then s.count Reg.foreignDiscard 1
    else if h.cmd = 4 then s.cancelXfer h.seqNo
    else if held.isNone ∧ 16 ≤ s.host.fabric.length then s.dxAnswer src h (abortCode 6 0xA0) 0 []
    else if h.cmd = 1 then (s.countXfer held).serveDxRead src h held
    else if h.cmd = 2 ∨ h.cmd = 3 then (s.countXfer held).serveDxWrite src h payload held
    else s)

/-- DX_RESPONSE (R386): the response to the outstanding request advances the forwarded transfer. -/
def execDxResponse (h : DxHdr) (payload : List Byte) (s : State) : Host.Outcome State Fault Refusal :=
  let s := s.takeMsg (.dxResponse h payload)
  let x := s.session 1
  .next (
    if s.manager.mgmtDead ∨ x.remote ≠ some h.seqNo ∨ !x.asked ∨ !x.busy then s
    else if h.abort ≠ 0 then s.endTransfer 1 h.abort
    else if x.cmd = 1 then
      let total := if x.offset = 0 then h.len else x.total
      let left := if x.offset = 0 then h.len else x.left
      if total = 0 then s.endTransfer 1 0
      else
        let data := x.data ++ payload
        let y := { x with state := 2, asked := false, data := data, total := total, left := left,
                          offset := x.offset + payload.length, words := wordCount data.length }
        (s.setSession 1 y).pumpRemote
    else if x.left = 0 ∧ x.data = [] then s.endTransfer 1 0
    else (s.setSession 1 { x with asked := false }).pumpRemote)

/-- DX_REMOTE_TIMEOUT (R386): no response within 1 ms. -/
def execDxRemoteTimeout (seqNo : Nat) (s : State) : Host.Outcome State Fault Refusal :=
  let x := s.session 1
  .next (
    if s.manager.mgmtDead ∨ x.remote ≠ some seqNo ∨ !x.asked ∨ !x.busy then s
    else (s.advanceTo (x.lastMove + 1000000)).endTransfer 1 (abortCode 7 0xA1))

/-! ### The I3C target (R391) -/

/-- Whether the target answers. -/
def State.i3cOn (s : State) : Bool := s.host.i3c.answering && s.reg Reg.i3cEn == 1

/-- The target's next private read: a status byte 0 DONE or 2 ERROR, and the bytes after it. -/
def State.i3cSet (s : State) (status : Nat) (out : List Byte) : State :=
  { s with host := { s.host with i3c := { s.host.i3c with status := status, out := out } } }

/-- Whether an object is longer than 8 B: a byte string by its maximum (R400), a VSTRING by what it holds (assumption 100). -/
def State.longObject (s : State) (index sub : Nat) : Bool :=
  match rowOf index sub with
  | none => true
  | some row =>
    if row.type = .vstr then decide (8 < (s.readBytesOf .brd row index sub).length) else row.isBytes && decide (8 < row.maxLen)

/-- The code of an I3C access: before boot stage 6 only BOOT_STAGE can be read; objects longer than 8 B are refused. -/
def State.i3cCode (s : State) (index sub : Nat) (write : Bool) : Nat :=
  if isBootStage index sub ∧ !write then 0
  else if s.manager.mgmtDead then abortCode 7 0xA2
  else firstFail [
    (s.accessCode .brd index sub write != 0, s.accessCode .brd index sub write),
    (s.longObject index sub, abortCode 3 0xA0)]

/-- An access of the target's session is counted (R397). -/
def State.countI3c (s : State) : State := if s.manager.mgmtDead then s else s.count Reg.dxTransfers 1

/-- I3C_READ: a private write that selects an object to read. -/
def execI3cRead (index sub : Nat) (s : State) : Host.Outcome State Fault Refusal :=
  let index := index % 65536
  let sub := sub % 256
  let code := s.i3cCode index sub false
  .next (
    if !s.i3cOn then s
    else let s := s.countI3c
    if code ≠ 0 then s.i3cSet 2 (leBytes 4 code)
    else if isBootStage index sub then s.i3cSet 0 (leBytes 1 (s.reg Reg.bootStage))
    else
      let c := s.readObject .brd index sub false
      if c.1 = 0 then s.i3cSet 0 c.2 else s.i3cSet 2 (leBytes 4 c.1))

/-- I3C_WRITE: a private write of an object's value, exactly as long as its type. -/
def execI3cWrite (index sub : Nat) (value : List Byte) (s : State) : Host.Outcome State Fault Refusal :=
  let index := index % 65536
  let sub := sub % 256
  let code := s.i3cCode index sub true
  .next (
    if !s.i3cOn then s
    else let s := s.countI3c
    if code ≠ 0 then s.i3cSet 2 (leBytes 4 code)
    else
      let x := s.writeObject .brd index sub value
      if x.1 = 0 then x.2.i3cSet 0 [] else x.2.i3cSet 2 (leBytes 4 x.1))

/-- I3C_STATUS_READ: a private read returns the status byte and what follows it. -/
def execI3cStatusRead (s : State) : Host.Outcome State Fault Refusal :=
  let c := s.host.i3c
  .next (
    if !s.i3cOn then s
    else { s with host := { s.host with reply := toWords (BitVec.ofNat 8 c.status :: c.out) } })

/-- SETDASA: a target without a dynamic address takes one at its static address. -/
def execSetdasa (static dyn : Nat) (s : State) : Host.Outcome State Fault Refusal :=
  let c := s.host.i3c
  .next (
    if !s.i3cOn ∨ static ≠ c.staticAddr ∨ c.dynAddr.isSome then s
    else { s with host := { s.host with i3c := { c with dynAddr := some (dyn % 128) } } })

/-- ENTDAA: a target without a dynamic address takes the one assigned to it. -/
def execEntdaa (dyn : Nat) (s : State) : Host.Outcome State Fault Refusal :=
  let c := s.host.i3c
  .next (
    if !s.i3cOn ∨ c.dynAddr.isSome then s
    else { s with host := { s.host with i3c := { c with dynAddr := some (dyn % 128) } } })

/-! ### The summary (R392) -/

/-- The latest FAULT_LOG record's report and cause. -/
def State.lastFault (s : State) : Nat :=
  match s.manager.faultLog.getLast? with
  | some l => l.getD 0 0 % 256 + l.getD 2 0 % 256 * 256
  | none => 0

/-- The words the summary latches at a tick: hall time, beat, states, blocks, last fault. -/
def State.summaryWords (s : State) : List Nat :=
  let busy := ((List.range 4).filter (fun b => (s.session b).busy)).foldl (fun m b => m + 2 ^ b) 0
  [s.time.hallTime, s.beatNow,
   s.reg Reg.timeState + 256 * s.part + 65536 * s.slotNow + 16777216 * s.reg Reg.swapState +
     4294967296 * s.reg Reg.thermalState,
   busy + 256 * s.reg Reg.sessionBind, s.lastFault]

/-- Word i of the summary, of 8 B each from 0x8000 on: the identity, BOOT_STAGE live, then the words of the latest tick. -/
def State.summaryWord (s : State) (i : Nat) : Nat :=
  if i = 0 then s.nv.factory.stepping + 65536 * s.nv.factory.grade + 16777216 * 3
  else if i = 1 then s.reg Reg.bootStage
  else if s.host.summary = [] then
    (if i = 4 then 0xFF0000 else if i = 5 then 0xFF00 else 0)
  else if i < 7 then s.host.summary.getD (i - 2) 0 else 0

end Sys2Proof.Machine
end

