-- ==== Sys2Proof/Machine/Beat.lean ====
section
/-! DEFINITION. The beat and hall time (R28 to R60): the steps of a tick in the order of R45, overruns and cuts, the
maintenance slot, and the exchanges that discipline hall time. -/

namespace Sys2Proof.Machine

open Sys2Proof

/-! ### Overruns at the tick (R46, R48, R49, R120, R267) -/

/-- The cause of a mover's wait on a request: its home's level, or the memory tier for a far one. -/
def State.rmWaitCause (s : State) (r : RmReq) : Nat :=
  if r.far.isSome then 6 else pathCause s.here ((s.rankDev r.rank).getD s.here)

/-- Unfinished mover slots: cores whose running invocation waits on remote responses (R267). -/
def State.moverItems (s : State) : List Unfinished :=
  s.cores.flatMap (fun (e : Nat × Core) =>
    if e.2.seq.running then (e.2.rmOut ++ e.2.rmWait).map (fun r => ⟨12, s.rmWaitCause r, none⟩) else [])

/-- Segments that the ending beat leaves unsealed on cores that run (R120). -/
def State.segmentItems (s : State) : List Unfinished :=
  (s.cores.filter (fun (e : Nat × Core) => s.runs e.1 && (e.2.seg s.beatNow).state == 1)).map (fun _ => ⟨7, 0, none⟩)

/-- A beat-class packet of this device and of the ending beat that its Junction still holds, with the cause of what it is held
for (R49): unit 5 for the dispatch class, 9 for the return class. -/
def State.heldItem (s : State) (cause : Nat) (x : Packet) : Option Unfinished :=
  if s.ownBeatPacket x.route.cls x ∧ x.route.cls ≤ 1 ∧ s.bodyAge x = 0 then
    some ⟨if x.route.cls = 0 then 5 else 9, cause, none⟩
  else none

/-- The unfinished items of units 5 and 9 (R49): packets held for the network-on-chip (cause 1) or for a port of a level. -/
def State.queuedItems (s : State) : List Unfinished :=
  (s.fabric.inject ++ s.fabric.landing).filterMap (s.heldItem 1) ++
    s.fabric.held.filterMap (fun x => s.heldItem (pathCause s.here (physDev x.route.dst)) x) ++
    s.fabric.ports.flatMap (fun (e : Nat × Port) => e.2.packets.filterMap (s.heldItem (s.portRole e.1 + 1)))

/-- A unit with unfinished items overruns once, with the highest cause among them (R46, R49), and goes on with the beat. -/
def State.unitOverruns (items : List Unfinished) (s : State) (u : Nat) : State :=
  match items.filter (fun x => x.unit == u) with
  | [] => s
  | xs =>
    let s := s.overrun u ((xs.map (fun x => x.cause % 8)).foldl max 0)
    { s with beat := { s.beat with late := s.beat.late ++ [(u, s.beatNow)] } }

/-- The units whose items set a token's flag (R48). -/
def flagUnits : List Nat := [1, 2, 3, 4, 10, 11, 12]

/-- Whether an item sets a token's flag (R48): one of its own, or a mover slot of its stage, which a list does not tie to one
of the stage's tokens. -/
def flagsToken (t : TokenId) (x : Unfinished) : Bool :=
  flagUnits.contains x.unit && (x.token == some (t.tag, t.lane) || (x.unit == 12 && x.token.isNone))

/-- Tokens with an unfinished item carry OVERRUN for the rest of their step (R48). -/
def State.flagTokens (s : State) (items : List Unfinished) : State :=
  let hit := fun (t : TokenId) => items.any (flagsToken t)
  let rs := s.combine.residuals.map (fun (r : Residual) => if hit r.tok then { r with flags := r.flags ||| flOverrun } else r)
  let es := s.exits.map (fun (x : ExitToken) => if hit x.tok then { x with flags := x.flags ||| flOverrun } else x)
  let entry := fun (t : TokenId) => items.any (fun x => x.unit == 10 && x.token == some (t.tag, t.lane))
  ({ s with combine := { s.combine with residuals := rs }, exits := es }).entriesAtTick entry

/-- Step 2 of R45 at tick n: the operand's unfinished items and those the state shows. From tick E + 2 of a swap to its
resume there is no overrun (R340). -/
def State.overrunsAt (s : State) (n : Nat) (unfinished : List Unfinished) : State :=
  if 2 ≤ s.swap.phase ∧ s.swap.epoch + 2 ≤ n then s.entriesAtTick (fun _ => false)
  else
    let items := unfinished ++ s.moverItems ++ s.segmentItems ++ s.yardItems ++ s.queuedItems
    ((List.range 13).foldl (State.unitOverruns items) s).flagTokens items

/-! ### Asking for the time (R29, R32) -/

/-- Whether the device takes time exchanges: from boot step 7 on, with its manager, or as a manager with the hall reference it
follows (R29, R32, R452). Once discovery is over an UNMANAGED worker's hall time stays FREE (R353). -/
def State.takesTime (s : State) : Bool :=
  s.manager.roleLive != 0 && decide (7 ≤ s.reg Reg.bootStage) && decide (s.reg Reg.bootStage ≤ 9) &&
    (s.reg Reg.bootStage != 9 || s.manager.roleLive == 2 || s.reg Reg.mgrState == 1)

/-- A worker or standby begins an exchange with its manager in each EXCH_INTERVAL (R29, R32). -/
def State.askTime (s : State) : State :=
  let due := decide (s.time.lastAsked + s.reg Reg.exchInterval ≤ s.time.hallTime)
  if s.takesTime ∧ s.manager.roleLive ≠ 2 ∧ s.reg Reg.mgrState = 1 ∧ due then
    { s with time := { s.time with lastAsked := s.time.hallTime } }.sendMgmt (s.reg Reg.managerLoc)
      (.exchange (s.reg Reg.domainId) s.here s.time.hallTime 0)
  else s

/-! ### Scrubbing (R287) -/

/-- 64 B units that a core's scrubbers read of each of its stores in some ns: one per engine cycle of 20/17 ns. -/
def coreUnits (ns : Nat) : Nat := ns * 17 / 20

/-- 64 B units that a cluster's scrubber reads in some ns: one per fast cycle of 10/17 ns. -/
def cacheUnits (ns : Nat) : Nat := ns * 34 / 20

/-- 64 B units of the scratchpad, accumulator store, Timetable memory and cluster shared SRAM. -/
def scrubSizes : List Nat := [49152, 4096, 9216, 131072]

/-- The unit that a pass over a store of n units has reached when its scrubber has read a number of units. -/
def scrubPos (n units : Nat) : Nat := units % n

/-- The scrubbers of a core's stores work for some ns. -/
def State.scrubCore (s : State) (c ns : Nat) : State :=
  { s with tiers := { s.tiers with coreScrub := mapSet c (mapGetD 0 c s.tiers.coreScrub + coreUnits ns) s.tiers.coreScrub } }

/-- The scrubber of a cluster works for some ns. -/
def State.scrubCache (s : State) (k ns : Nat) : State :=
  { s with tiers := { s.tiers with cacheScrub := mapSet k (mapGetD 0 k s.tiers.cacheScrub + cacheUnits ns) s.tiers.cacheScrub } }

/-- The ns of the ending beat, up to MAINT_START, in which a core has nothing to do but wait for the tick (R56): from the end of its
list on, all of them where it ran none. -/
def State.idleNs (s : State) (c : Nat) : Nat :=
  let k := s.core c
  let open' := s.reg Reg.beatPeriod - maintLen (s.reg Reg.beatPeriod)
  if k.seq.running then 0 else if s.beat.accepts ∧ s.runs c then open' - k.lastEnd else open'

/-- Idle time of the ending beat shortens the passes (R287): of a core by its own, of a cluster by the time in which all its cores
are idle. -/
def State.scrubIdle (s : State) : State :=
  let on := (List.range 128).filter s.coreOn
  let s := on.foldl (fun t c => t.scrubCore c (s.idleNs c)) s
  (List.range 16).foldl (fun t k => t.scrubCache k
    ((((List.range 8).map (8 * k + ·)).filter s.coreOn).foldl (fun m c => min m (s.idleNs c))
      (s.reg Reg.beatPeriod - maintLen (s.reg Reg.beatPeriod)))) s

/-! ### The end of a beat (R24, R45 steps 1 to 4, R89, R126, R342, R343) -/

/-- The busy cycles, block bytes and low-water marks of the ending beat become readable (R84, R132, R155, R172, R185,
R330). -/
def State.beatTotals (s : State) : State :=
  let b := s.beat
  let s := ((s.setReg Reg.aeBusy b.busyAe).setReg Reg.seBusy b.busySe).setReg Reg.veBusy b.busyVe
  let s := ((s.setReg Reg.ttBusy b.busyTt).setReg Reg.mvBusy b.busyMv).setReg Reg.scorerBusy b.busyYard
  let s := s.setReg Reg.kvBytesRead (s.platforms.kvBytes / 1024)
  s.setDom Reg.poolLow (Blob.ofBytes ((List.range 16).flatMap (fun k => leBytes 2 (s.pool k).low)))

/-- Unused sender credits expire (R89). -/
def State.expireCredits (s : State) : State :=
  let n := (s.platforms.credits.map (fun e => e.2)).foldl (· + ·) 0
  ({ s with platforms := { s.platforms with credits := [] } }).count64 Reg.creditsExpired n

/-- Cells of Consists of past beats are released (R24). -/
def State.releaseConsists (s : State) : State :=
  (s.pools.chains.filter (fun c => c.pkt.hdr.kind == 1 && s.age c.pkt.hdr.beat != 0)).foldl State.freeChain s

/-- Audits not made by the tick are abandoned and counted (R126). -/
def State.dropAudits (s : State) : State :=
  let n := (s.cores.map (fun (e : Nat × Core) => e.2.audits.length)).foldl (· + ·) 0
  ({ s with cores := s.cores.map (fun (e : Nat × Core) => (e.1, { e.2 with audits := [] })) }).count Reg.auditsAbandoned n

/-- Whether a cluster's pool keeps its identities (R327): free and held cells are 16,384, and the held ones are those its entries are
charged with. A poisoned word of its link table breaks them (R435). -/
def State.poolSound (s : State) (k : Nat) : Bool :=
  let p := s.pool k
  let held := ((s.pools.chains.filter (fun c => c.cluster == k)).map (fun c => c.cells.length)).foldl (· + ·) 0
  p.free + held == 16384 && held == p.inUse && !p.linkBad

/-- Step 4 of R45 in one cluster: a breach sets POOL_BROKEN, is counted once and reported as TENANT_ERROR with cause 7. -/
def State.checkPool (s : State) (k : Nat) : State :=
  let p := s.pool k
  if p.broken ∨ s.poolSound k then s
  else ((s.setPool k { p with broken := true }).count Reg.invariantFails 1).tenantFault (128 + k) 7

/-- A failed identity is reported once per tenancy: TENANT_ERROR with unit 144 (R439). -/
def State.reportIdentity (s : State) (i cause : Nat) : State :=
  if s.combine.reported.contains i then s
  else ({ s with combine := { s.combine with reported := s.combine.reported ++ [i] } }).tenantFault 144 cause

/-- The ledger identity and both credit identities (R438, R439). -/
def State.checkLedger (s : State) : State :=
  let outcomes := [Reg.combined, Reg.droppedCapacity, Reg.refusedPool, Reg.lateDiscarded, Reg.cancelledDiscarded, Reg.lostFault]
  let sum := (outcomes.map s.reg).foldl (· + ·) 0
  let s := if s.reg Reg.creditsGranted = s.reg Reg.creditsSpent + s.reg Reg.creditsExpired then s else s.reportIdentity 0 8
  let s := if s.reg Reg.choicesReceived = s.reg Reg.choicesAccepted + s.reg Reg.creditsReturned then s
    else s.reportIdentity 1 8
  if s.reg Reg.dispatched = sum then s else s.reportIdentity 2 9

/-- The engine time and the port counts of the ending beat are charged to the running slot (R342, R343); nothing is in the
swap's steps 2 to 4 (R340). -/
def State.charge (s : State) : State :=
  let ports := s.fabric.ports
  let sum := fun (f : Port → Nat) => (ports.map (fun (e : Nat × Port) => f e.2)).foldl (· + ·) 0
  let add := [1, sum (fun p => p.ownFlits), sum (fun p => p.waitFlits), sum (fun p => p.ownBeat), sum (fun p => p.waitBeat)]
  let b := s.beat
  let busy := [b.busyAe, b.busySe, b.busyVe, b.busyTt, b.busyMv, b.busyYard]
  let clear := ports.map (fun (e : Nat × Port) => (e.1, { e.2 with ownFlits := 0, waitFlits := 0, ownBeat := 0, waitBeat := 0 }))
  let s := { s with fabric := { s.fabric with ports := clear } }
  let i := s.slotNow
  if i = 0xFF ∨ (3 ≤ s.swap.phase ∧ s.swap.phase ≤ 5) then s
  else
    let t := s.tslot i
    let m := t.minute.getD 0 0 :: List.zipWith (· + ·) (t.minute.drop 1) (if b.accepts then add else 0 :: add.drop 1)
    let t := { t with cycles := List.zipWith (· + ·) t.cycles busy, minute := m,
                      beatsRun := t.beatsRun + (if b.accepts then 1 else 0) }
    (s.setTslot i t).closeMinuteAt s.time.hallTime

/-- Stacks whose relocation waits one beat more (R58). -/
def State.deferRelocation (s : State) : State :=
  (List.range 4).foldl (fun s k => if s.blocksDue k != [] then
    { s with tiers := { s.tiers with deferred := mapSet k (mapGetD 0 k s.tiers.deferred + 1) s.tiers.deferred } } else s) s

/-! ### What the tick settles and cuts (R47, R106, R107, R111, R187, R390) -/

/-- Manifests that are stale at their combine tick settle as cancelled_discarded (R107, R111). -/
def State.settleStale (s : State) : State :=
  (s.combine.manifests.filter (fun h => s.stale h.pkt.hdr.batchTag h.pkt.hdr.gen && s.age h.pkt.hdr.beat == 1)).foldl
    (fun s h => s.cancelToken h.pkt) s

/-- Manifests that a fault hold has kept past ATTN_END of the beat after theirs go to the Siding (R103). -/
def State.dropOldManifests (s : State) : State :=
  (s.combine.manifests.filter (fun h => decide (2 ≤ s.age h.pkt.hdr.beat) && decide (s.age h.pkt.hdr.beat < 2 ^ 31))).foldl
    (fun s h =>
      let s := { s with combine := { s.combine with manifests := s.combine.manifests.filter (fun x => x.pkt != h.pkt) } }
      (s.settleHeld h.pkt Reg.droppedCapacity (fun e => s.sidingOutcome h.pkt e)).siding h.pkt) s

/-- The units whose work is the list of a core (R49). -/
def listUnits : List Nat := [1, 2, 3, 8, 10, 11, 12]

/-- Invocations that began before the last tick are cut at tick n; what they were to start next is the new beat's (R187). -/
def State.cutInvocations (s : State) (n : Nat) : State :=
  s.cores.foldl (fun s (e : Nat × Core) =>
    if e.2.seq.running ∧ e.2.seq.beat + 2 ≤ n then
      (s.setCore e.1 { e.2 with seq := { e.2.seq with nextDue := false } }).cutInvocation e.1
    else s) s

/-- A unit abandons what is left of its work of beat b and before (R47): lists of the cores, selections of the Yards, or
packets the Junction still holds. -/
def State.abandonUnit (s : State) (unit b : Nat) : State :=
  if listUnits.contains unit then s.cutInvocations (b + 2)
  else if unit = 4 then s.dropScoring b
  else if unit = 5 then s.dropOwnPackets 0 b
  else if unit = 9 then s.dropOwnPackets 1 b
  else s

/-- Whether the state shows a unit still at work at tick n on a beat before the last (R47): 8 by its lists, 12 by requests of
such a list, 4 by its selections, 5 and 9 by their packets. -/
def State.stillWorks (s : State) (n unit : Nat) : Bool :=
  let runs := s.cores.filter (fun (e : Nat × Core) => e.2.seq.running && decide (e.2.seq.beat + 2 ≤ n))
  match unit with
  | 4 => s.scores (n - 2)
  | 5 => s.holdsOwn 0 (n - 2)
  | 8 => runs != []
  | 9 => s.holdsOwn 1 (n - 2)
  | 12 => runs.any (fun (e : Nat × Core) => e.2.rmOut != [] || e.2.rmWait != [])
  | _ => false

/-- The cuts of tick n (R47): each unit that the state shows at work on beat n - 2 abandons it and is counted once. -/
def State.cutsAt (s : State) (n : Nat) : State :=
  if n < 2 then s
  else
    let us := [4, 5, 8, 9, 12].filter (s.stillWorks n)
    us.foldl (fun s u =>
      (({ s with beat := { s.beat with late := s.beat.late.filter (fun x => !(x.1 == u && decide (x.2 + 2 ≤ n))) } }).abandonUnit u
        (n - 2)).count Reg.cutCount 1) s

/-- What belongs to beats before the last goes: queued choices, tokens of the exit stage, residuals that no attention took,
and units that have finished or been cut. -/
def State.dropOld (s : State) (n : Nat) : State :=
  let old := fun (b : Nat) => decide (2 ≤ s.age b) && decide (s.age b < 2 ^ 31)
  let qs := s.platforms.queues.map (fun (e : Nat × List QueuedChoice) => (e.1, e.2.filter (fun q => !old q.beat)))
  let rs := if 2 ≤ s.swap.phase ∨ s.manager.causes ≠ [] then s.combine.residuals
    else s.combine.residuals.filter (fun r => !old r.beat)
  { s with platforms := { s.platforms with queues := qs }, exits := s.exits.filter (fun x => !old x.beat),
           prior := s.prior.filter (fun p => decide (n < p.beat + 2)),
           combine := { s.combine with residuals := rs },
           beat := { s.beat with late := s.beat.late.filter (fun x => decide (n < x.2 + 3)) } }

/-! ### The new beat (R45 steps 5 to 7, R89, R186, R193, R197, R202) -/

/-- Sender and receiver counters reload from the live grants and capacities (R89). -/
def State.reloadCredits (s : State) : State :=
  let sends := s.activeSlots.flatMap (fun i =>
    let b := s.dom (slotKey Reg.sendGrants i)
    (List.range (b.len / 2)).filterMap (fun e => let v := b.nat (2 * e) 2; if v = 0 then none else some (creditKey i e, v)))
  let recvs := (grantRecs (s.dom Reg.recvGrants)).foldl (fun m g => mapSet (g.pslot * 65536 + g.sender) g.credits m) []
  let caps := ((List.range 256).filter (fun p => (s.plat p).en)).map (fun p => (p, (s.plat p).capacity))
  ({ s with platforms := { s.platforms with credits := sends, recvLeft := recvs, capLeft := caps } }).count64
    Reg.creditsGranted ((sends.map (fun (e : Nat × Nat) => e.2)).foldl (· + ·) 0)

/-- PER_BEAT counters and segment n mod 2 of an enabled core start empty, and no tile of the SE holds across the tick (R180, R193,
R202). -/
def Core.newBeat (k : Core) (n : Nat) : Core :=
  { k.setSeg n ⟨1, []⟩ with seTile := none, ctrs := k.ctrs.filter (fun e => k.isPersist (e.1 / 2) || e.1 % 2 != n % 2),
                            ttBad := k.ttBad.filter (fun w => w.1 != 2 + n % 2) }

/-- Parity n mod 2 of every counter, line and segment is cleared (R193, R197, R202). -/
def State.clearParity (s : State) (n : Nat) : State :=
  let s := { s with lines := s.lines.filter (fun (e : Nat × Line) => e.1 % 2 != n % 2) }
  ((List.range 128).filter s.coreOn).foldl (fun s c => s.updCore c (fun k => k.newBeat n)) s

/-- The flags and totals of the new beat; whether it accepts beat work (R340, R366, R434, R470); a manager
or standby manager runs none (R352). -/
def State.openBeat (s : State) : State :=
  let works := s.manager.roleLive != 2 && s.manager.roleLive != 3
  let ok := works && s.time.anchored && s.part == 3 && !s.beat.holdNext && s.manager.causes.isEmpty && decide (s.swap.phase ≤ 1)
  let ps := s.pools.pools.map (fun (e : Nat × Pool) => (e.1, { e.2 with low := e.2.free }))
  let s := { s with
    beat := { intakeClosed := false, attnEnded := false, maintOpen := false, accepts := ok, counted := false, holdNext := s.beat.holdNext,
              late := s.beat.late, busyAe := 0, busySe := 0, busyVe := 0, busyTt := 0, busyMv := 0, busyYard := 0 },
    pools := { s.pools with pools := ps }, platforms := { s.platforms with kvBytes := 0 } }
  (s.setReg Reg.overrunUnits 0).setReg Reg.sealWaitNs 0

/-- A RUN core's invocation starts, or is due when the one that runs ends (R186, R187). -/
def State.invoke (s : State) (n c : Nat) : State :=
  if (s.core c).seq.running then s.updCore c (fun k => { k with seq := { k.seq with nextDue := true } })
  else s.startInvocation c n

/-- The invocations of the new beat. -/
def State.invokeAll (s : State) (n : Nat) : State :=
  if s.beat.accepts then ((List.range 128).filter s.runs).foldl (fun s c => s.invoke n c) s else s

/-- A combined token's stage starts (R17): its exit stage where the placement puts it here, else attention. The output of an
entry stage is the input of a layer. -/
def State.startStage (s : State) (r : Residual) : State :=
  let f := s.fresh
  let plan := Config.stagePlan f.1 r.lslot r.tok.tag r.tok.lane
  if !r.first && plan.exit then f.2.startExit r plan.shares else f.2.reachAttention r.tok

/-- A combined token reaches its stage (R312, R364, R365); `lost` are the tokens whose Manifests came for a lost rank. -/
def State.attend (lost : List (TokenId × Nat)) (s : State) (r : Residual) : State :=
  let s := match lost.find? (fun e => e.1 == r.tok) with
    | some e => s.standInToken e.2 r.tok
    | none => s
  if s.combine.residuals.any (fun x => x.tok == r.tok) then s.startStage r else s

/-- MANIFEST_ARRIVAL (R103): what has landed is held for its tick, combined on arrival where it is late, or turned away; a
late combine's attention starts after it, where the device accepts beat work (R312, R313, R340, R365). -/
def execManifestArrival (p : BeatPacket) (s : State) : Host.Outcome State Fault Refusal :=
  .next (
    if p.hdr.kind ≠ 3 then s
    else
      let s := (s.takeLanding (.beat p)).decideChains p
      if s.landingFailed 16 p then s.clearFailed p
      else
        let lost := ((s.lostRankOf p).map (fun r => (idOf p.hdr, r))).toList
        let t := s.manifestLands p
        if t.beat.accepts then (t.combine.residuals.drop s.combine.residuals.length).foldl (State.attend lost) t else t)

/-- The combine window, then attention for the tokens of this beat and the entry stages where the device accepts beat work
(R19, R102, R339, R340). In FAULT_HOLD nothing is combined (R366). -/
def State.combineAndEnter (s : State) (n : Nat) : State :=
  if s.noBeat ∨ s.part = 5 ∨ s.manager.causes ≠ [] then s
  else
    let lost := s.combine.manifests.filterMap (fun h => (s.lostRankOf h.pkt).map (fun r => (idOf h.pkt.hdr, r)))
    let s := s.combineWindow
    if !s.beat.accepts then s
    else ((s.combine.residuals.filter (fun r => r.beat == n)).foldl (State.attend lost) s).entryStages n

/-- A device with a device-fatal cause leaves its partition at the tick (R366). -/
def State.enterHold (s : State) : State :=
  if s.beat.holdNext ∧ s.manager.causes ≠ [] ∧ s.part = 3 then s.setReg Reg.partState 5 else s

/-- What the ending beat leaves: overruns, expired credits, released cells, charges (R45 steps 1 to 3). -/
def State.endBeat (s : State) (n : Nat) (unfinished : List Unfinished) : State :=
  if !s.time.ticked ∨ s.noBeat then s
  else ((((s.overrunsAt n unfinished).dropAudits).charge).windowBeats).deferRelocation.scrubIdle

/-- The tick falls: BEAT_NUMBER is n, old work is cut, choices that the tick settles are settled, the pools and the ledger
are checked, and the latch closes (R45 step 4). -/
def State.fall (s : State) (n : Nat) : State :=
  let s := (s.beatTotals).expireCredits
  let s := { s.setReg Reg.beatNumber n with time := { s.time with ticked := true } }
  let s := (s.cutsAt n).releaseConsists
  let s := s.streams.batches.foldl (fun s b => s.cancelBatch b n) s
  let s := ((s.settleStale).expirePending 0).dropOldManifests
  let s := s.dropNotices (fun c => decide (c.cb + 4 ≤ n))
  let s := ((List.range 16).foldl State.checkPool s).checkLedger
  let s := (s.dropOld n).takeLatch
  { s with host := { s.host with summary := s.summaryWords } }

/-- Steps 5 to 7 of R45 and the new beat's start. -/
def State.startBeat (s : State) (n : Nat) : State :=
  let s := ((((s.startAt n).rejoinAt n).resumeAt n).epochAt n).teardownAt n
  let s := s.enterHold.applyDue n
  let s := ((s.reloadCredits).clearParity n).openBeat
  (s.combineAndEnter n).invokeAll n

/-- TICK (R45): ticks fall from the anchor on, whatever PART_STATE reads (R36, R340). -/
def execTick (unfinished : List Unfinished) (s : State) : Host.Outcome State Fault Refusal :=
  .next (
    if !s.time.anchored then s
    else
      let n := s.nextBeat
      ((((s.advanceTo (s.tickTime n)).endBeat n unfinished).fall n).startBeat n).askTime)

/-- CUT (R47, R187): at the second tick after its beat a unit abandons what is left of it, and is counted. -/
def execCut (unit : Nat) (s : State) : Host.Outcome State Fault Refusal :=
  .next (match s.beat.late.find? (fun x => x.1 == unit && decide (x.2 < s.beatNow)) with
    | none => s
    | some x =>
      let s := { s with beat := { s.beat with late := s.beat.late.filter (fun y => !(y.1 == unit && decide (y.2 ≤ x.2))) } }
      (s.abandonUnit unit x.2).count Reg.cutCount 1)

/-! ### The maintenance slot (R56, R126, R216, R287, R295) -/

/-- Lines of an HBM channel (R295). -/
def channelLines : Nat := 25165824

/-- Every channel patrols one line; a pass that ends is counted (R295). -/
def State.patrolStep (s : State) : State :=
  let n := s.tiers.patrol + 1
  if channelLines ≤ n then ({ s with tiers := { s.tiers with patrol := 0 } }).count Reg.patrolPasses 1
  else { s with tiers := { s.tiers with patrol := n } }

/-- MAINTENANCE_SLOT (R56): the scrubbers correct words, each channel patrols, audits are made, and spoiled replicas are
rewritten. -/
def execMaintenanceSlot (corrected : Nat) (audited : List Nat) (s : State) :
    Host.Outcome State Fault Refusal :=
  .next (
    if s.beat.maintOpen then s
    else
      let ns := maintLen (s.reg Reg.beatPeriod)
      let s := { s with beat := { s.beat with maintOpen := true } }
      let s := ((List.range 128).filter s.coreOn).foldl (fun s c => s.scrubCore c ns) s
      let s := (List.range 16).foldl (fun s k => s.scrubCache k ns) s
      (audited.foldl State.auditRow ((s.count Reg.sramCe corrected).patrolStep)).repairReplicas)

/-! ### Hall time (R28 to R33) -/

/-- The projected bound has passed 10 ns, or too large a correction was called for: TIME_HOLD, a device fault of cause 1
(R31, R33). -/
def State.enterTimeHold (s : State) : State :=
  (({ s with time := { s.time with goodRun := 0 } }).setReg Reg.timeState 4).deviceFatal 1

/-- The first valid exchange before the device joins a partition steps hall time, never backwards; from then on the
correction is slewed (R28, R32). -/
def State.correctTime (s : State) (managerTime : Nat) (offset : Int) : State :=
  let t := s.time
  if !t.stepped ∧ !t.joined then
    { s with time := { t with hallTime := max t.hallTime managerTime, stepped := true,
                              slew := if managerTime < t.hallTime then (managerTime : Int) - t.hallTime else 0 } }
  else { s with time := { t with stepped := true, slew := offset } }

/-- The state a good run of exchanges leads to (R31, R33): LOCKED after 16, or after 4 from HOLDOVER. -/
def State.timeNext (s : State) : State :=
  let st := s.reg Reg.timeState
  let good := s.time.goodRun
  if st = 3 then (if 4 ≤ good then s.setReg Reg.timeState 2 else s)
  else if st = 4 then (if 16 ≤ good then s.setReg Reg.timeState 2 else s)
  else if st = 2 ∧ 0 < good then s
  else s.setReg Reg.timeState (if 16 ≤ good then 2 else 1)

/-- A 32-bit two's-complement number. -/
def signed32 (v : Nat) : Int := if v < 2 ^ 31 then (v : Int) else (v : Int) - 2 ^ 32

/-- The offset that an exchange through a port measured, in ns, with the port's cable asymmetry correction (R29, R247). -/
def State.offsetNs (s : State) (port : Nat) (offsetPs : Int) : Int :=
  (offsetPs + (if port < 60 then signed32 (s.reg (Reg.asymCorr port)) else 0)).ediv 1000

/-- The answer to the device's exchange has been used, and the delay of the link it came by is kept (R29, R247). -/
def State.exchangeEnds (s : State) (port delayPs : Nat) : State :=
  let answer := fun (p : Packet) => match p.body with
    | .mgmt (.exchangeAnswer ..) => true
    | _ => false
  let s := { s with fabric := { s.fabric with landing := s.fabric.landing.filter (fun p => !answer p) } }
  if port < 60 then s.setReg (Reg.linkDelay port) (delayPs % 2 ^ 32) else s

/-- TIME_EXCHANGE (R29, R31 to R33): valid from the device's own domain. A correction above 100 ns in HOLDOVER or in a
partition is a TIME_HOLD, which re-acquires by later exchanges. The bound is the manager's own plus the device's. -/
def execTimeExchange (port domain managerTime : Nat) (offsetPs : Int) (delayPs boundPs managerBoundPs : Nat) (s : State) :
    Host.Outcome State Fault Refusal :=
  .next (
    if !s.ownDomain domain ∨ !s.takesTime then s
    else
      let offset := s.offsetNs port offsetPs
      let s := s.exchangeEnds port delayPs
      let st := s.reg Reg.timeState
      let bound := boundPs + managerBoundPs
      let big := decide (100 < offset.natAbs) && (st == 3 || (st != 4 && s.time.joined && !s.noBeat))
      let s := (s.setReg Reg.lastOffset (codeOf 32 offset)).correctTime managerTime offset
      let t := { s.time with boundPs := bound, measuredAt := s.time.hallTime, lastExchange := s.time.hallTime,
                             goodRun := if bound ≤ 10000 then s.time.goodRun + 1 else 0 }
      let s := { s with time := t }
      if big then s.enterTimeHold else s.timeNext)

/-- HOLDOVER_ENTRY (R31, R32): four exchange intervals have passed without a valid exchange. -/
def execHoldoverEntry (s : State) : Host.Outcome State Fault Refusal :=
  .next (
    let st := s.reg Reg.timeState
    if st = 1 ∨ st = 2 then
      (s.advanceTo (s.time.lastExchange + 4 * s.reg Reg.exchInterval)).enterHoldover
    else s)

/-- The hall time at which the projected bound of HOLDOVER exceeds 10 ns (R33). -/
def State.holdAt (s : State) : Nat :=
  s.time.measuredAt + s.driftNs * (10000 - s.time.boundPs) + 1

/-- TIME_HOLD_ENTRY (R33): the projected bound exceeds 10 ns. -/
def execTimeHoldEntry (s : State) : Host.Outcome State Fault Refusal :=
  .next (if s.reg Reg.timeState = 3 then (s.advanceTo s.holdAt).enterTimeHold else s)

end Sys2Proof.Machine
end

