-- ==== Sys2Proof/Machine/Engines.lean ====
section
/-! DEFINITION. The engines of a core: the array engine (R133 to R155), the sparse engine (R173 to R185), the Turntable
(R156 to R172) and the vector engine (R170, R171). -/

namespace Sys2Proof.Machine

/-! ### What the engines share -/

/-- The modes of an engine's work: those live at the tick that began its beat (R153). -/
def State.subnormMode (s : State) (c : Nat) : Nat :=
  if (s.core c).seq.running then (s.core c).seq.subnorm else s.reg Reg.readoutSubnorm

/-- SAT_READOUT of an engine's work (R153). -/
def State.satMode (s : State) (c : Nat) : Nat :=
  if (s.core c).seq.running then (s.core c).seq.satRead else s.reg Reg.satReadout

/-- Accumulator entry i of a core. -/
def Core.entry (k : Core) (i : Nat) : AccEntry := mapGetD AccEntry.zero i k.acc

/-- Entries of a core's accumulator store (R147). -/
def accEntries : Nat := 16384

/-- A core with entry i set. An entry of all zeros is not listed. A pass or a read-out that reaches past the last entry meets no
entry there: nothing is written and it reads as zero; the manual names neither a wrap nor a refusal (DESIGN CHOICE, assumption
131). -/
def Core.setEntry (k : Core) (i : Nat) (e : AccEntry) : Core :=
  if accEntries ≤ i then k else { k with acc := if e = AccEntry.zero then mapDel i k.acc else mapSet i e k.acc }

/-- Counts an engine command adds to: ACC_SAT, ACC_INEXACT, ACC_NAN and BAD_CODE. -/
structure AccCounts where
  sat  : Nat
  inex : Nat
  nan  : Nat
  bad  : Nat
deriving DecidableEq, Repr, Inhabited

/-- The state with an engine command's counts added (R155). -/
def State.addAcc (s : State) (n : AccCounts) : State :=
  (((s.count64 Reg.accSat n.sat).count64 Reg.accInexact n.inex).count Reg.accNan n.nan).count Reg.badCode n.bad

/-- The length of a run of R149. -/
def runLen (w a : EltFmt) : Nat :=
  if w = .int4 ∨ w = .int2 ∨ a = .int4 ∨ a = .int2 then 16 else 32

/-- One contribution (R149): the elements of a run with the scales that hold over it; none when any is a NaN. -/
def runValue (ws as : List (Option Dy)) (sw sa : Option Dy) : Option Dy :=
  match sw, sa with
  | some x, some y =>
    if ws.any (·.isNone) || as.any (·.isNone) then none
    else some (dyMul (dySum (List.zipWith (fun w a => dyMul (w.getD dyZero) (a.getD dyZero)) ws as)) (dyMul x y))
  | _, _ => none

/-- An activation vector in the scratchpad: elements and scales, a poisoned one a NaN. -/
def Core.activation (k : Core) (f : EltFmt) (a sa n : Nat) : List (Option Dy) × List (Option Dy) :=
  let bs := k.spRead a (packedBytes f n + 8)
  let blocks := (n + eltBlock f - 1) / eltBlock f
  ((List.range n).map (fun i =>
     if k.scratchBad.contains ((a + i * eltBits f / 8) / 8) then none else eltVal f (packedAt f bs 0 i)),
   if f = .bf16 then [] else (List.range blocks).map (fun b =>
     if k.scratchBad.contains ((sa + b) / 8) then none else scaleVal f (leNat (k.spRead (sa + b) 1))))

/-! ### Array engine -/

/-- Outputs of a tile: columns over its fold (R134). -/
def tileOuts (t : TileDesc) : Nat := t.cols / t.fold

/-- Depth of a tile's dot products (R134). -/
def tileDep (t : TileDesc) : Nat := t.depth * t.fold

/-- Scale bytes of a tile (R135, R144, R145): one for each column of a ternary tile, else one for each block or group. -/
def tileScales (t : TileDesc) : Nat :=
  if t.wfmt = .bf16 then 0 else if t.wfmt = .ternary then tileOuts t else tileOuts t * tileDep t / eltBlock t.wfmt

/-- The place in its tile's scale array of the scale of column j at depth d. The table of R135 gives every MX tile 16,384 / 32 scales
(INT4 and INT2: one per 16 elements) whatever its arrangement: where a column is shorter than a block, consecutive columns share
their block's scale (DESIGN CHOICE, assumption 128). -/
def scaleIndex (t : TileDesc) (j d : Nat) : Nat := if t.wfmt = .ternary then j else (j * tileDep t + d) / eltBlock t.wfmt

/-- Element bytes of one column (R145). -/
def tileColBytes (t : TileDesc) : Nat := packedBytes t.wfmt (tileDep t)

/-- The load time L of a tile in engine cycles (R135). -/
def tileLoadCycles (t : TileDesc) : Nat :=
  max ((tileOuts t * (tileColBytes t) + 8191) / 8192) ((tileScales t + 1023) / 1024)

/-- A 64 B boundary at or below an address: a tile's elements and scales start on one (R145). -/
def align64 (a : Nat) : Nat := a / 64 * 64

/-- AE_TILE_LOAD (R133, R138, R142, R145): the tile's elements and scales are read from the scratchpad into the standby registers. The
loader lets no other operand pair or arrangement pass (R207): such a tile loads nothing (assumption 120). -/
def execAeTileLoad (core : Nat) (t : TileDesc) (s : State) : Host.Outcome State Fault Refusal :=
  let k := s.core core
  let a := align64 (k.addr .ae t.elems)
  let b := align64 (k.addr .ae t.scales)
  let ne := (tileOuts t) * (tileColBytes t)
  let ns := tileScales t
  let bad := fun (at_ n : Nat) => (wordsOf at_ n).filter (fun w => k.scratchBad.contains w)
  let tile : LoadedTile :=
    ⟨t, k.spRead a ne, k.spRead b ns, (bad a ne).map (fun w => w - a / 8), (bad b ns).map (fun w => w - b / 8), 0⟩
  .next (s.onCore core (if tileFits t then s.setCore core { k with standby := tile } else s))

/-- WEIGHT_SWAP (R139): active and standby registers exchange at one cycle boundary; the cycles it had to hold are
counted in SWAP_WAIT. -/
def execWeightSwap (core waited : Nat) (s : State) : Host.Outcome State Fault Refusal :=
  let k := s.core core
  .next (s.onCore core ((s.setCore core { k with active := k.standby, standby := k.active }).count Reg.swapWait waited))

/-- The weight elements of column j, depth [d, d + n): a NaN where a word was poisoned; and the reserved ternary codes
met (R144). -/
def LoadedTile.weights (t : LoadedTile) (j d n : Nat) : List (Option Dy) × Nat :=
  let f := t.desc.wfmt
  let off := j * (tileColBytes t.desc)
  let codes := (List.range n).map (fun i => packedAt f t.elems off (d + i))
  ((List.range n).map (fun i =>
     if t.badE.contains ((off + (d + i) * eltBits f / 8) / 8) then none else eltVal f (codes.getD i 0)),
   if f = .ternary then codes.countP (fun c => c == 2) else 0)

/-- The weight scale of column j at depth d. -/
def LoadedTile.scale (t : LoadedTile) (j d : Nat) : Option Dy :=
  let i := scaleIndex t.desc j d
  if t.badS.contains (i / 8) then none else scaleVal t.desc.wfmt (natAt t.scales i 1)

/-- The contributions of column j of a narrow tile for an activation vector, in depth order. -/
def LoadedTile.contributions (t : LoadedTile) (act : List (Option Dy) × List (Option Dy)) (j : Nat) :
    List (Option Dy) × Nat :=
  let r := runLen t.desc.wfmt t.desc.afmt
  let dep := (tileDep t.desc)
  let runs := (List.range ((dep + r - 1) / r)).map (fun i =>
    let d := i * r
    let n := min r (dep - d)
    let w := t.weights j d n
    (runValue w.1 ((act.1.drop d).take n) (t.scale j d) ((act.2.getD (d / eltBlock t.desc.afmt) none)), w.2))
  (runs.map (·.1), (runs.map (·.2)).sum)

/-- Contributions added to an entry under R149: the entry and the counts. -/
def AccEntry.addAll (e : AccEntry) (cs : List (Option Dy)) : AccEntry × AccCounts :=
  cs.foldl (fun st c =>
    match c with
    | none => (st.1.nanned, { st.2 with nan := st.2.nan + 1 })
    | some v =>
      let q := st.1.quot v
      let r := st.1.addInt q.1
      (r.1, { st.2 with inex := st.2.inex + (if q.2 then 1 else 0), sat := st.2.sat + (if r.2 then 1 else 0) }))
    (e, ⟨0, 0, 0, 0⟩)

/-- The sum of counts. -/
def AccCounts.plus (a b : AccCounts) : AccCounts := ⟨a.sat + b.sat, a.inex + b.inex, a.nan + b.nan, a.bad + b.bad⟩

/-- The column sum of a BF16 pass: products exact in FP32, added in ascending depth order (R146). -/
def bf16Column (ws as : List FP32) : FP32 :=
  match List.zipWith fMul ws as with
  | [] => 0
  | p :: ps => ps.foldl fAdd p

/-- One column of a pass: the entry it feeds and the counts (R146, R148, R149). Where a pass that does not start a column meets an
entry of the other kind, on which R148 is silent, a BF16 pass takes the low bits of ACC as the FP32 value and sets FP32, and a
narrow pass adds its integers to ACC as it stands (DESIGN CHOICE, assumption 130). -/
def passColumn (k : Core) (t : LoadedTile) (p : AePass) (act : List (Option Dy) × List (Option Dy)) (actF : List FP32)
    (j : Nat) : AccEntry × AccCounts :=
  let i := p.entry0 + j
  let fp := decide (t.desc.wfmt = .bf16)
  let e := if p.start then AccEntry.start (baseField p.base) fp else k.entry i
  if fp then
    let ws := (List.range (tileDep t.desc)).map (fun d =>
      if t.badE.contains ((j * (tileColBytes t.desc) + 2 * d) / 8) then fNaN
      else fOfB (BitVec.ofNat 16 (packedAt .bf16 t.elems (j * (tileColBytes t.desc)) d)))
    ({ e with acc := ((fAdd (BitVec.ofNat 32 e.acc.toNat) (bf16Column ws actF)).toNat : Int), fp32 := true },
      ⟨0, 0, 0, 0⟩)
  else
    let cs := t.contributions act j
    let r := e.addAll cs.1
    (r.1, { r.2 with bad := r.2.bad + cs.2 })

/-- Issue cycles that a pass adds for its tile: max(m, L) over the tile's m passes (R135). -/
def LoadedTile.passCycles (t : LoadedTile) : Nat :=
  if t.passes = 0 then max 1 (tileLoadCycles t.desc) else if t.passes < (tileLoadCycles t.desc) then 0 else 1

/-- AE_PASS (R135): one activation vector through the active tile; each output's contributions enter its accumulator
entry. A pass that starts a column clears the entry and sets BASE (R148). -/
def execAePass (core : Nat) (p : AePass) (s : State) : Host.Outcome State Fault Refusal :=
  let k := s.core core
  let t := k.active
  let a := k.addr .ae p.act
  let act := k.activation t.desc.afmt a (k.addr .ae p.actScale) (tileDep t.desc)
  let actF := if t.desc.wfmt = .bf16 then (k.spB16 a (tileDep t.desc)).map fOfB else []
  let outs := (List.range (tileOuts t.desc)).map (fun j => (p.entry0 + j, passColumn k t p act actF j))
  let k1 := outs.foldl (fun k o => k.setEntry o.1 o.2.1) k
  let k1 := { k1 with active := { t with passes := t.passes + 1 },
                      accBad := if p.start then k.accBad.filter (fun i => !(outs.any (fun o => o.1 == i))) else k.accBad }
  let s1 := (s.setCore core k1).addAcc (outs.foldl (fun n o => n.plus o.2.2) ⟨0, 0, 0, 0⟩)
  .next (s.onCore core ({ s1 with beat := { s1.beat with busyAe := s1.beat.busyAe + t.passCycles } }.repeatDone core .ae))

/-- What entry i of a core reads out as with the factor of its column, and whether SAT_COLUMNS counts it. -/
def State.readEntry (s : State) (core i : Nat) (factor : Option Nat) (col : Nat) : RVal × Bool :=
  let k := s.core core
  let f : FP32 := match factor with
    | none => 0x3F800000
    | some a => (k.spF32 (a + 4 * col) 1).getD 0 0
  (k.entry i).readOut (k.accBad.contains i) (s.satMode core) f

/-- READOUT (R71, R152): entries converted in one rounding to FP32, BF16 or bare E4M3 and written to the scratchpad, or to the input
queue of a Yard. -/
def execReadout (core : Nat) (d : ReadOut) (s : State) : Host.Outcome State Fault Refusal :=
  let k := s.core core
  let f := d.factor.map (k.addr .ae)
  let vals := (List.range d.count).map (fun j => s.readEntry core (d.entry0 + j) f j)
  let sub := s.subnormMode core
  let bytes := vals.flatMap (fun v => match d.target with
    | .fp32 => leBytes 4 (v.1.toF32 sub).toNat
    | .bf16 => leBytes 2 (v.1.toB16 sub).toNat
    | .e4m3 => leBytes 1 v.1.toE4m3.1)
  let clamps := if d.target = .e4m3 then vals.countP (fun v => v.1.toE4m3.2) else 0
  let t := match d.dst with
    | .scratch a => s.setCore core (k.spWrite (k.addr .ae a) bytes)
    | .yard cluster lslot tok first => s.yardShare tok lslot (cluster % 16) (s.syncBeat core) first bytes
  .next (s.onCore core
    (((t.count Reg.satColumns (vals.countP (·.2))).count
      Reg.stage1Clamp clamps).repeatDone core .ae))

/-! ### Sparse engine -/

/-- A number rounded up to a multiple of 64. -/
def ceil64 (n : Nat) : Nat := (n + 63) / 64 * 64

/-- The value of FMT in a tile header (R175). -/
def seFmtCode : EltFmt → Nat
  | .fp4 => 0
  | .int4 => 1
  | .int2 => 2
  | .ternary => 3
  | .e2m3 => 4
  | .e3m2 => 5
  | .e4m3 => 6
  | .e5m2 => 7
  | .mxint8 => 8
  | _ => 9

/-- A tile header's fields (R174), and whether a reserved field or value is set. -/
structure SeHeader where
  nnz    : Nat
  dense  : Bool
  fmt    : Nat
  rows   : Nat
  cols   : Nat
  idxOff : Nat
  valOff : Nat
  rsvd   : Bool
deriving DecidableEq, Repr, Inhabited

/-- The header at the start of a tile body. -/
def seHeaderOf (bs : List Byte) : SeHeader :=
  let w := natAt bs 0 64
  { nnz := field w 0 16, dense := w.testBit 16, fmt := field w 20 4, rows := field w 24 8 + 1, cols := field w 32 8 + 1,
    idxOff := field w 64 24, valOff := field w 88 24,
    rsvd := field w 17 3 != 0 || decide (9 < field w 20 4) || decide (4 < field w 40 3) || field w 43 21 != 0 ||
      field w 112 400 != 0 }

/-- Whether two byte ranges share a byte. -/
def overlaps (a n b m : Nat) : Bool := decide (a < b + m) && decide (b < a + n) && decide (0 < n) && decide (0 < m)

/-- Whether a tile is malformed (R176). -/
def seMalformed (h : SeHeader) (ptrs : List Nat) (wfmt : EltFmt) (len : Nat) : Bool :=
  let pn := ceil64 (2 * h.rows)
  let xn := ceil64 h.nnz
  let vn := ceil64 ((h.nnz * eltBits wfmt + 7) / 8)
  h.rsvd || h.dense || h.fmt != seFmtCode wfmt || decide (9 ≤ h.fmt) || ptrs.getD 0 0 != 0 ||
  (List.zipWith (fun a b => decide (b < a)) ptrs ptrs.tail).any (fun x => x) ||
  ptrs.any (fun p => decide (h.nnz < p)) ||
  overlaps 0 (64 + pn) h.idxOff xn || overlaps 0 (64 + pn) h.valOff vn || overlaps h.idxOff xn h.valOff vn ||
  decide (len < 64 + pn) || decide (len < h.idxOff + xn) || decide (len < h.valOff + vn)

/-- One row of a compressed tile: its non-zeros as column (none where the index is poisoned) and value. -/
def seRow (k : Core) (base : Nat) (h : SeHeader) (f : EltFmt) (first last : Nat) : List (Option Nat × Option Dy × Nat) :=
  (List.range (last - first)).map (fun i =>
    let n := first + i
    let ia := base + h.idxOff + n
    let va := base + h.valOff + n * eltBits f / 8
    let code := packedAt f (k.spRead (base + h.valOff) ((h.nnz * eltBits f + 7) / 8 + 8)) 0 n
    (if k.scratchBad.contains (ia / 8) then none else some (leNat (k.spRead ia 1)),
     if k.scratchBad.contains (va / 8) then none else eltVal f code, code))

/-- The contributions of one row (R181, R182): one for every run of the row, as the AE would form it on the dense row, and
one NaN for every bad column index. Answers them with the bad indices counted in SE_BAD_TILE and the reserved ternary
codes. -/
def seRowRuns (h : SeHeader) (w a : EltFmt) (row : List (Option Nat × Option Dy × Nat)) (scales : List (Option Dy))
    (act : List (Option Dy) × List (Option Dy)) : List (Option Dy) × Nat × Nat :=
  let r := runLen w a
  let runs := (List.range ((h.cols + r - 1) / r)).map (fun i =>
    let d := i * r
    let n := min r (h.cols - d)
    let here := row.filter (fun x => match x.1 with
      | some c => decide (d ≤ c) && decide (c < d + n)
      | none => false)
    let as := here.map (fun x => act.1.getD (x.1.getD 0) none)
    let sw := scales.getD (if w = .ternary then 0 else d / eltBlock w) none
    let sa := act.2.getD (d / eltBlock a) none
    if ((act.1.drop d).take n).any (·.isNone) then none else runValue (here.map (fun x => x.2.1)) as sw sa)
  let bad := row.countP (fun x => match x.1 with
    | some c => decide (h.cols ≤ c)
    | none => false)
  let lost := row.countP (fun x => x.1.isNone)
  (runs ++ List.replicate (bad + lost) none, bad, if w = .ternary then row.countP (fun x => x.2.2 == 2) else 0)

/-- A row's contributions in the 80-bit saturating lane register, then added to its entry; a clamp counts once per row per
tile (R181). -/
def AccEntry.addRow (e : AccEntry) (cs : List (Option Dy)) : AccEntry × AccCounts :=
  let lane := cs.foldl (fun (st : Int × Bool × Bool × Nat × Nat) c =>
    match c with
    | none => (st.1, st.2.1, st.2.2.1, st.2.2.2.1, st.2.2.2.2 + 1)
    | some v =>
      let q := e.quot v
      let r := accClamp (st.1 + q.1)
      (r.1, st.2.1 || r.2.1, if r.2.1 then r.2.2 else st.2.2.1, st.2.2.2.1 + (if q.2 then 1 else 0), st.2.2.2.2))
    ((0 : Int), false, false, 0, 0)
  let e := if 0 < lane.2.2.2.2 then e.nanned else e
  let e := if lane.2.1 then { e with sat := true, satNeg := lane.2.2.1 } else e
  let r := e.addInt lane.1
  (r.1, ⟨if lane.2.1 || r.2 then 1 else 0, lane.2.2.2.1, lane.2.2.2.2, 0⟩)

/-- Issue cycles of m passes through a tile (R180); one a pass where it holds no non-zero. -/
def seCycles (h : SeHeader) (w a : EltFmt) (scaleBytes t m : Nat) : Nat :=
  let bm := scaleBytes + 64 + ceil64 (2 * h.rows)
  let ba := packedBytes a h.cols + (h.cols + eltBlock a - 1) / eltBlock a
  let bp := ceil64 h.nnz + ceil64 ((h.nnz * eltBits w + 7) / 8) + ba
  if h.nnz = 0 then m else max (m * t) ((bm + m * bp + 2047) / 2048)

/-- The passes made through the tile at an address of a core's scratchpad in the beat: none where it holds other bytes than at the
last pass, which are a new tile's (R176, R180). -/
def Core.sePasses (k : Core) (base : Nat) (bytes : List Byte) : Nat :=
  match k.seTile with
  | none => 0
  | some t => if t.base = base ∧ t.bytes = bytes then t.passes else 0

/-- SE_PASS (R180): one activation vector through a compressed tile. A malformed tile gives every entry it targets a NaN
contribution; it, and each column index of COLS or more, is counted once for the tile (R176). The loader lets no operand pair
outside R142 and no BF16 tile pass (R175, R207): such a pass does nothing (assumption 120). -/
def execSePass (core : Nat) (p : SePass) (s : State) : Host.Outcome State Fault Refusal :=
  let k := s.core core
  let base := k.addr .se p.tile
  let h := seHeaderOf (k.spRead base 64)
  let ptrs := (List.range h.rows).map (fun r => leNat (k.spRead (base + 64 + 2 * r) 2))
  let bad := seMalformed h ptrs p.wfmt p.tileLen || k.spBad base (64 + ceil64 (2 * h.rows))
  let bytes := k.spRead base p.tileLen
  let m := k.sePasses base bytes
  let start := fun (i : Nat) => if p.start then AccEntry.start (baseField p.base) false else k.entry i
  let colScales := if p.wfmt = .ternary then 1 else (h.cols + eltBlock p.wfmt - 1) / eltBlock p.wfmt
  let sa := k.addr .se p.scales
  let act := k.activation p.afmt (k.addr .se p.act) (k.addr .se p.actScale) h.cols
  let rows := (List.range h.rows).map (fun r =>
    let i := p.entry0 + r
    if bad then (i, (start i).nanned, AccCounts.mk 0 0 1 0, 0)
    else
      let row := seRow k base h p.wfmt (ptrs.getD r 0) (ptrs.getD (r + 1) h.nnz)
      let scales := (List.range colScales).map (fun b =>
        let a := sa + r * colScales + b
        if k.scratchBad.contains (a / 8) then none else scaleVal p.wfmt (leNat (k.spRead a 1)))
      let cs := seRowRuns h p.wfmt p.afmt row scales act
      let e := (start i).addRow cs.1
      (i, e.1, { e.2 with bad := cs.2.2 }, cs.2.1))
  let lanes := (List.range 16).map (fun l =>
    ((List.range h.rows).filter (fun r => r % 16 == l)).foldl
      (fun n r => n + (ptrs.getD (r + 1) h.nnz - ptrs.getD r 0)) 0)
  let t := lanes.foldl (fun x n => max x ((n + 63) / 64)) 1
  let idle := lanes.foldl (fun x n => x + (t - (n + 63) / 64)) 0
  let k := rows.foldl (fun k r => k.setEntry r.1 r.2.1) k
  let k := { k with seTile := some ⟨base, bytes, m + 1⟩,
                    accBad := if p.start then k.accBad.filter (fun i => !(rows.any (fun o => o.1 == i))) else k.accBad }
  let badTiles := if m = 0 then (if bad then 1 else 0) + (rows.map (fun r => r.2.2.2)).sum else 0
  let cyc := if bad then 1
    else seCycles h p.wfmt p.afmt (h.rows * colScales) t (m + 1) - (if m = 0 then 0 else
      seCycles h p.wfmt p.afmt (h.rows * colScales) t m)
  let s1 := ((s.setCore core k).addAcc (rows.foldl (fun n r => n.plus r.2.2.1) ⟨0, 0, 0, 0⟩)).count Reg.seBadTile badTiles
  let s1 := if bad then s1 else (s1.count64 Reg.seNnz h.nnz).count64 Reg.seLaneIdle idle
  .next (s.onCore core (if sePairOk p.wfmt p.afmt then
    { s1 with beat := { s1.beat with busySe := s1.beat.busySe + cyc } }.repeatDone core .se else s))

/-! ### Vector engine -/

/-- The constant 0.7978846 of GELU as FP32 (R171). -/
def geluC : FP32 := fRound false 7978846 10000000 0

/-- The constant 0.044715 of GELU as FP32 (R171). -/
def geluK : FP32 := fRound false 44715 1000000 0

/-- SiLU (R171). -/
def fSilu (x : FP32) : FP32 := fMul x (fSigmoid x)

/-- GELU (R171). -/
def fGelu (x : FP32) : FP32 :=
  fMul (fMul 0x3F000000 x)
    (fAdd 0x3F800000 (fTanh (fMul geluC (fAdd x (fMul geluK (fMul (fMul x x) x))))))

/-- ReLU (R171); a NaN stays a NaN. -/
def fRelu (x : FP32) : FP32 := fMax x 0

/-- RMSNorm (R171). -/
def rmsNorm (x g : List FP32) (eps : FP32) : List FP32 :=
  let r := fRsqrt (fAdd (fDiv (fSumReduce (x.map (fun v => fMul v v))) (fOfNat x.length)) eps)
  List.zipWith (fun v w => fMul (fMul v r) w) x g

/-- LayerNorm (R171). -/
def layerNorm (x g b : List FP32) (eps : FP32) : List FP32 :=
  let n := fOfNat x.length
  let mean := fDiv (fSumReduce x) n
  let d := x.map (fun v => fSub v mean)
  let r := fRsqrt (fAdd (fDiv (fSumReduce (d.map (fun v => fMul v v))) n) eps)
  List.zipWith fAdd (List.zipWith (fun v w => fMul (fMul v r) w) d g) b

/-- Softmax (R171). -/
def softmax (x : List FP32) : List FP32 :=
  let m := fMaxReduce x
  let e := x.map (fun v => fExp (fSub v m))
  let t := fSumReduce e
  e.map (fun v => fDiv v t)

/-- The results of a VE slot (R170, R171). -/
def veResult (o : VeOp) (a b g z : List FP32) : List FP32 :=
  match o.fn with
  | .add => List.zipWith fAdd a b
  | .sub => List.zipWith fSub a b
  | .mul => List.zipWith fMul a b
  | .maximum => List.zipWith fMax a b
  | .exp => a.map fExp
  | .sigmoid => a.map fSigmoid
  | .tanh => a.map fTanh
  | .rsqrt => a.map fRsqrt
  | .recip => a.map fRecip
  | .sum => [fSumReduce a]
  | .maxReduce => [fMaxReduce a]
  | .rmsNorm => rmsNorm a g o.eps
  | .layerNorm => layerNorm a g z o.eps
  | .softmax => softmax a
  | .silu => a.map fSilu
  | .gelu => a.map fGelu
  | .relu => a.map fRelu
  | .gatedProduct => List.zipWith (fun x y => fMul (fSilu x) y) a b

/-- VE_OPERATION (R170): an FP32 function or reduction of scratchpad vectors, written to the scratchpad. A poisoned word
is a NaN input (R435). -/
def execVeOperation (core : Nat) (o : VeOp) (s : State) : Host.Outcome State Fault Refusal :=
  let k := s.core core
  let rd := fun (a : Addr) => k.spF32 (k.addr .ve a) o.n
  let out := if o.n = 0 then [] else veResult o (rd o.srcA) (rd o.srcB) (rd o.gain) (rd o.bias)
  let s1 := s.setCore core (k.spWrite (k.addr .ve o.dst) (f32Bytes out))
  .next (s.onCore core
    ({ s1 with beat := { s1.beat with busyVe := s1.beat.busyVe + (o.n + 511) / 512 } }.repeatDone core .ve))

/-! ### Turntable -/

/-- The clipping statistic takes a vector's counts into its slot and the totals (R166, R172). -/
def State.countClip (s : State) (slot n clipped nans : Nat) : State :=
  let c := mapGetD ⟨0, 0⟩ slot s.clip.counts
  let s := { s with clip := { s.clip with counts := mapSet slot ⟨c.quantised + n, c.clipped + clipped⟩ s.clip.counts } }
  ((s.count64 Reg.quantElems n).count64 Reg.clippedElems clipped).count Reg.qnanBlocks nans

/-- Turntable issue cycles for n elements (R157). -/
def ttCycles (wide : Bool) (n : Nat) : Nat := if wide then (n + 511) / 512 else (n + 1023) / 1024

/-- The state with Turntable issue cycles added, and the slot's repeat complete. -/
def State.ttDone (s : State) (c n : Nat) : State :=
  { s with beat := { s.beat with busyTt := s.beat.busyTt + n } }.repeatDone c .tt

/-- A wide vector in the scratchpad as FP32, exact (R156). -/
def Core.wideVector (k : Core) (wide : Bool) (a n : Nat) : List FP32 :=
  if wide then k.spF32 a n else (k.spB16 a n).map fOfB

/-- A quantised vector written with its scale array (R145, R156, R161), and its counts. -/
def State.writeQuant (s : State) (core : Nat) (f : EltFmt) (sc dst dsc slot : Nat) (xs : List RVal) : State :=
  let k := s.core core
  let blk := scaleBlock f xs.length
  let scales := (List.range ((xs.length + blk - 1) / blk)).map (fun i =>
    if k.scratchBad.contains ((sc + i) / 8) then (if eltIsMx f then 0xFF else 0x7F) else leNat (k.spRead (sc + i) 1))
  let q := quantVector f scales xs
  (s.setCore core ((k.spWrite dst q.1).spWrite dsc q.2.1)).countClip slot xs.length q.2.2.1 q.2.2.2

/-- The vector a quantise reads (R24, R156): from the scratchpad, or the hidden vector of a choice from its cluster's cells, which
its last read releases; an element that the cells do not hold reads as a NaN. -/
def State.quantSource (s : State) (core : Nat) (d : QuantDesc) : List FP32 × State :=
  let k := s.core core
  match d.src with
  | .scratch a => (k.wideVector d.srcWide (k.addr .tt a) d.n, s)
  | .cell p tok choice last =>
    match s.readChoice p tok choice last with
    | none => ((List.range d.n).map (fun _ => fNaN), s)
    | some (v, t) => ((List.range d.n).map (fun i => if i < v.length then fOfB (v.getD i 0) else fNaN), t)

/-- QUANTISE (R24, R162): optional forward rotation, division by the learned scale, rounding and clipping. -/
def execQuantise (core : Nat) (d : QuantDesc) (s : State) : Host.Outcome State Fault Refusal :=
  let k := s.core core
  let r := s.quantSource core d
  let x := rotate d.rot r.1
  .next (s.onCore core ((r.2.writeQuant core d.fmt (k.addr .tt d.scales) (k.addr .tt d.dst) (k.addr .tt d.dstScale)
    d.clipSlot (x.map rOfF)).ttDone core (ttCycles d.srcWide d.n)))

/-- An element times its scale (R164): the FP32 value, and whether it saturated. R164 names products beyond the range and NaN codes
alone: the infinity code of E5M2 gives the largest finite value and counts as saturated (DESIGN CHOICE, assumption 132). It does not
state the sign of a zero product: the FP formats keep the element's sign, the integer formats give +0 (DESIGN CHOICE, assumption
133). -/
def dequant (f : EltFmt) (sv : Option Dy) (c : Nat) (bad : Bool) : FP32 × Bool :=
  if bad then (fNaN, false)
  else if f = .e5m2 ∧ c % 128 = 0x7C ∧ sv.isSome then
    (fMaxFin (c.testBit 7 != decide ((sv.getD dyZero).m < 0)), true)
  else match eltVal f c, sv with
    | some x, some v =>
      let p := dyMul x v
      if p.m = 0 then (fCode (c.testBit (eltBits f - 1) && (f == .fp4 || f == .e2m3 || f == .e3m2 || f == .e4m3 ||
        f == .e5m2)) 0, false)
      else if 0x7F7FFFFF < roundMag 24 (-149) p.m.natAbs 1 p.e then (fMaxFin (decide (p.m < 0)), true)
      else (fOfDy p, false)
    | _, _ => (fNaNOf 0 0, false)

/-- An FP32 result written under R164: it takes the largest finite value of its target beyond the range, and subnormal
results follow READOUT_SUBNORM. Answers the bytes and whether it saturated here. -/
def deqWrite (wide : Bool) (sub : Nat) (x : FP32) : List Byte × Bool :=
  if wide then
    if fIsInf x then (leBytes 4 (fMaxFin (fNeg x)).toNat, true)
    else (leBytes 4 (if sub = 1 ∧ fIsSub x then fCode (fNeg x) 0 else x).toNat, false)
  else
    let b := bOfF x
    if bIsInf b then (leBytes 2 (bMaxFin (bNeg b)).toNat, true)
    else (leBytes 2 (if sub = 1 ∧ bIsSub b then BitVec.ofNat 16 (if bNeg b then 2 ^ 15 else 0) else b).toNat, false)

/-- DEQUANTISE (R164): multiplication by the scale, optional inverse rotation, one rounding to FP32 or BF16. R157 gives a rate for
BF16 and FP32 input alone: a dequantise, and a read-out through the Turntable, takes the rate of FP32, 512 elements a cycle (DESIGN
CHOICE, assumption 134). -/
def execDequantise (core : Nat) (d : DequantDesc) (s : State) : Host.Outcome State Fault Refusal :=
  let k := s.core core
  let a := k.addr .tt d.src
  let sc := k.addr .tt d.scales
  let bs := k.spRead a (packedBytes d.fmt d.n + 8)
  let blk := scaleBlock d.fmt d.n
  let xs := (List.range d.n).map (fun i =>
    let bad := k.scratchBad.contains ((a + i * eltBits d.fmt / 8) / 8) || k.scratchBad.contains ((sc + i / blk) / 8)
    dequant d.fmt (scaleVal d.fmt (leNat (k.spRead (sc + i / blk) 1))) (packedAt d.fmt bs 0 i) bad)
  let rot := rotate d.rot (xs.map (·.1))
  let out := rot.map (deqWrite d.wide (s.subnormMode core))
  let sat := (List.zipWith (fun x o => x.2 || o.2) xs out).countP (fun b => b)
  .next (s.onCore core (((s.setCore core (k.spWrite (k.addr .tt d.dst) (out.flatMap (·.1)))).count Reg.deqSat sat).ttDone
    core (ttCycles true d.n)))

/-- FP32 values in a target, one rounding. -/
def wideBytes (wide : Bool) (xs : List FP32) : List Byte := if wide then f32Bytes xs else b16Bytes (xs.map bOfF)

/-- ROTATE (R159): a forward or inverse block rotation of a BF16 or FP32 vector, one rounding to the target. -/
def execRotate (core : Nat) (d : DequantDesc) (s : State) : Host.Outcome State Fault Refusal :=
  let k := s.core core
  let wide := decide (d.fmt = .fp32)
  let x := rotate d.rot (k.wideVector wide (k.addr .tt d.src) d.n)
  .next (s.onCore core ((s.setCore core (k.spWrite (k.addr .tt d.dst) (wideBytes d.wide x))).ttDone core
    (ttCycles wide d.n)))

/-- READ_OUT_TO_MX (R156): entries read out to exact values, divided by the learned scale, rounded and clipped. -/
def execReadOutToMx (core : Nat) (d : ReadMx) (s : State) : Host.Outcome State Fault Refusal :=
  let k := s.core core
  let f := d.factor.map (k.addr .tt)
  let vals := (List.range d.n).map (fun j => s.readEntry core (d.entry0 + j) f j)
  let s1 := s.writeQuant core d.fmt (k.addr .tt d.scales) (k.addr .tt d.dst) (k.addr .tt d.dstScale) d.clipSlot
    (vals.map (·.1))
  .next (s.onCore core ((s1.count Reg.satColumns (vals.countP (·.2))).ttDone core (ttCycles true d.n)))

/-- READ_OUT_WITH_INVERSE_ROTATION (R156): entries read out to FP32, inverse-rotated, rounded once more. -/
def execReadOutWithInverseRotation (core : Nat) (d : ReadMx) (s : State) : Host.Outcome State Fault Refusal :=
  let k := s.core core
  let f := d.factor.map (k.addr .tt)
  let vals := (List.range d.n).map (fun j => s.readEntry core (d.entry0 + j) f j)
  let x := rotate d.rot (vals.map (fun v => v.1.toF32 (s.subnormMode core)))
  .next (s.onCore core (((s.setCore core (k.spWrite (k.addr .tt d.dst) (wideBytes d.wide x))).count Reg.satColumns
    (vals.countP (·.2))).ttDone core (ttCycles true d.n)))

end Sys2Proof.Machine
end

