-- ==== Sys2Proof/Machine/Dispatch.lean ====
section
/-! DEFINITION. The dispatch of a command to its meaning: one arm per row of the opcode table. -/

namespace Sys2Proof.Machine

open Sys2Proof

/-- The effect of a command on everything but the queue. -/
def exec (i : Instr) (s : State) : Host.Outcome State Fault Refusal :=
  match i with
  | .tick unfinished => Sys2Proof.Machine.execTick unfinished s
  | .cut unit => Sys2Proof.Machine.execCut unit s
  | .commitApply r => Sys2Proof.Machine.execCommitApply r s
  | .tokenLost tag lane => Sys2Proof.Machine.execTokenLost tag lane s
  | .maintenanceSlot corrected audited => Sys2Proof.Machine.execMaintenanceSlot corrected audited s
  | .dramRefresh channel foreground => Sys2Proof.Machine.execDramRefresh channel foreground s
  | .timeExchange port domain managerTime offsetPs delayPs boundPs managerBoundPs => Sys2Proof.Machine.execTimeExchange port domain managerTime offsetPs delayPs boundPs managerBoundPs s
  | .holdoverEntry => Sys2Proof.Machine.execHoldoverEntry s
  | .timeHoldEntry => Sys2Proof.Machine.execTimeHoldEntry s
  | .hallTimeSet r t => Sys2Proof.Machine.execHallTimeSet r t s
  | .commitNextTick r => Sys2Proof.Machine.execCommitNextTick r s
  | .commitAtBeat r => Sys2Proof.Machine.execCommitAtBeat r s
  | .commitCancel r => Sys2Proof.Machine.execCommitCancel r s
  | .commitDiscard r => Sys2Proof.Machine.execCommitDiscard r s
  | .dictionaryWrite r index sub value => Sys2Proof.Machine.execDictionaryWrite r index sub value s
  | .stage2Result tok lslot nextRank nextCluster hidden residual => Sys2Proof.Machine.execStage2Result tok lslot nextRank nextCluster hidden residual s
  | .stripedGroupRequest lslot group tok hidden => Sys2Proof.Machine.execStripedGroupRequest lslot group tok hidden s
  | .kvBlockSelection core ctr lslot tok entry summary scores => Sys2Proof.Machine.execKvBlockSelection core ctr lslot tok entry summary scores s
  | .gateCopyDone => Sys2Proof.Machine.execGateCopyDone s
  | .consistHeaderArrival p => Sys2Proof.Machine.execConsistHeaderArrival p s
  | .chainAllocate cluster => Sys2Proof.Machine.execChainAllocate cluster s
  | .consistArrival cluster p => Sys2Proof.Machine.execConsistArrival cluster p s
  | .intakeClose => Sys2Proof.Machine.execIntakeClose s
  | .predictionComplete pslot tok choice => Sys2Proof.Machine.execPredictionComplete pslot tok choice s
  | .segmentSeal core => Sys2Proof.Machine.execSegmentSeal core s
  | .expertAnswerSend pslot tok choice overrun src => Sys2Proof.Machine.execExpertAnswerSend pslot tok choice overrun src s
  | .answerArrival p => Sys2Proof.Machine.execAnswerArrival p s
  | .refusalArrival p => Sys2Proof.Machine.execRefusalArrival p s
  | .manifestArrival p => Sys2Proof.Machine.execManifestArrival p s
  | .orphanSweep => Sys2Proof.Machine.execOrphanSweep s
  | .pendingExpiry => Sys2Proof.Machine.execPendingExpiry s
  | .batchCancel r tag => Sys2Proof.Machine.execBatchCancel r tag s
  | .cancelNoticeArrival tag gen cb => Sys2Proof.Machine.execCancelNoticeArrival tag gen cb s
  | .cancelTakesEffect tag => Sys2Proof.Machine.execCancelTakesEffect tag s
  | .cancelNoticeExpiry tag gen => Sys2Proof.Machine.execCancelNoticeExpiry tag gen s
  | .vocabularyRequestArrival p logits exitCluster => Sys2Proof.Machine.execVocabularyRequestArrival p logits exitCluster s
  | .candidateSetArrival p => Sys2Proof.Machine.execCandidateSetArrival p s
  | .vocabMerge tag lane entryCluster => Sys2Proof.Machine.execVocabMerge tag lane entryCluster s
  | .sampleEndExpiry entryCluster => Sys2Proof.Machine.execSampleEndExpiry entryCluster s
  | .sampledTokenArrival p => Sys2Proof.Machine.execSampledTokenArrival p s
  | .wordIssue core => Sys2Proof.Machine.execWordIssue core s
  | .fence core mask => Sys2Proof.Machine.execFence core mask s
  | .raise core line n => Sys2Proof.Machine.execRaise core line n s
  | .wait core line => Sys2Proof.Machine.execWait core line s
  | .barrier core line n => Sys2Proof.Machine.execBarrier core line n s
  | .waitOffset core t => Sys2Proof.Machine.execWaitOffset core t s
  | .hold core cp => Sys2Proof.Machine.execHold core cp s
  | .config core cp setting => Sys2Proof.Machine.execConfig core cp setting s
  | .splice core => Sys2Proof.Machine.execSplice core s
  | .aePass core p => Sys2Proof.Machine.execAePass core p s
  | .aeTileLoad core t => Sys2Proof.Machine.execAeTileLoad core t s
  | .weightSwap core waited => Sys2Proof.Machine.execWeightSwap core waited s
  | .readout core d => Sys2Proof.Machine.execReadout core d s
  | .sePass core p => Sys2Proof.Machine.execSePass core p s
  | .veOperation core o => Sys2Proof.Machine.execVeOperation core o s
  | .quantise core d => Sys2Proof.Machine.execQuantise core d s
  | .dequantise core d => Sys2Proof.Machine.execDequantise core d s
  | .rotate core d => Sys2Proof.Machine.execRotate core d s
  | .readOutToMx core d => Sys2Proof.Machine.execReadOutToMx core d s
  | .readOutWithInverseRotation core d => Sys2Proof.Machine.execReadOutWithInverseRotation core d s
  | .moverTransfer core add src dst len => Sys2Proof.Machine.execMoverTransfer core add src dst len s
  | .mvRemoteRead core rank jva len dst cache => Sys2Proof.Machine.execMvRemoteRead core rank jva len dst cache s
  | .mvRemoteWrite core rank jva len src => Sys2Proof.Machine.execMvRemoteWrite core rank jva len src s
  | .mvRemoteAdd core rank jva dtype src => Sys2Proof.Machine.execMvRemoteAdd core rank jva dtype src s
  | .mvInvalidate core rank jva len => Sys2Proof.Machine.execMvInvalidate core rank jva len s
  | .atomicAdd core cluster off wide v dst => Sys2Proof.Machine.execAtomicAdd core cluster off wide v dst s
  | .atomicMin core cluster off wide v dst => Sys2Proof.Machine.execAtomicMin core cluster off wide v dst s
  | .atomicMax core cluster off wide v dst => Sys2Proof.Machine.execAtomicMax core cluster off wide v dst s
  | .atomicSwap core cluster off wide v dst => Sys2Proof.Machine.execAtomicSwap core cluster off wide v dst s
  | .compareSwap core cluster off wide expected v dst => Sys2Proof.Machine.execCompareSwap core cluster off wide expected v dst s
  | .bankWrite r core bank obj => Sys2Proof.Machine.execBankWrite r core bank obj s
  | .segTemplatesWrite r core obj => Sys2Proof.Machine.execSegTemplatesWrite r core obj s
  | .flitReceive port flit fixed lost => Sys2Proof.Machine.execFlitReceive port flit fixed lost s
  | .retryRequest port seqNo => Sys2Proof.Machine.execRetryRequest port seqNo s
  | .laneFault port lane => Sys2Proof.Machine.execLaneFault port lane s
  | .laneRemapDone port => Sys2Proof.Machine.execLaneRemapDone port s
  | .portSilenceTimeout port => Sys2Proof.Machine.execPortSilenceTimeout port s
  | .portFail port => Sys2Proof.Machine.execPortFail port s
  | .portTrainingDone port up peer peerPort => Sys2Proof.Machine.execPortTrainingDone port up peer peerPort s
  | .packetRoute inPort p => Sys2Proof.Machine.execPacketRoute inPort p s
  | .truncatedPacketArrival p => Sys2Proof.Machine.execTruncatedPacketArrival p s
  | .multicastInject cls group mask srcCluster body => Sys2Proof.Machine.execMulticastInject cls group mask srcCluster body s
  | .undeliverableNoticeArrival cause copy => Sys2Proof.Machine.execUndeliverableNoticeArrival cause copy s
  | .endNoticeArrival tag lane position gen cause => Sys2Proof.Machine.execEndNoticeArrival tag lane position gen cause s
  | .drainStart r => Sys2Proof.Machine.execDrainStart r s
  | .drainRelease r => Sys2Proof.Machine.execDrainRelease r s
  | .drainDone => Sys2Proof.Machine.execDrainDone s
  | .drainTimeout => Sys2Proof.Machine.execDrainTimeout s
  | .rmRead p => Sys2Proof.Machine.execRmRead p s
  | .rmWrite p => Sys2Proof.Machine.execRmWrite p s
  | .rmAdd p => Sys2Proof.Machine.execRmAdd p s
  | .readData p => Sys2Proof.Machine.execReadData p s
  | .ack p => Sys2Proof.Machine.execAck p s
  | .nak p => Sys2Proof.Machine.execNak p s
  | .invalidate p => Sys2Proof.Machine.execInvalidate p s
  | .invAck p => Sys2Proof.Machine.execInvAck p s
  | .rmTimeout core tag => Sys2Proof.Machine.execRmTimeout core tag s
  | .rmRecall r jpn => Sys2Proof.Machine.execRmRecall r jpn s
  | .recallDone => Sys2Proof.Machine.execRecallDone s
  | .collStart src => Sys2Proof.Machine.execCollStart src s
  | .ready p => Sys2Proof.Machine.execReady p s
  | .data p => Sys2Proof.Machine.execData p s
  | .collAck p => Sys2Proof.Machine.execCollAck p s
  | .resend p => Sys2Proof.Machine.execResend p s
  | .abort p => Sys2Proof.Machine.execAbort p s
  | .collTimeout group seqNo => Sys2Proof.Machine.execCollTimeout group seqNo s
  | .alloc r tier spread port cluster count => Sys2Proof.Machine.execAlloc r tier spread port cluster count s
  | .free r home tier => Sys2Proof.Machine.execFree r home tier s
  | .move r home tier spread port cluster => Sys2Proof.Machine.execMove r home tier spread port cluster s
  | .park r tag lane tier port => Sys2Proof.Machine.execPark r tag lane tier port s
  | .unpark r tag lane => Sys2Proof.Machine.execUnpark r tag lane s
  | .moveDone home cause => Sys2Proof.Machine.execMoveDone home cause s
  | .imageStore r bytes => Sys2Proof.Machine.execImageStore r bytes s
  | .imageDelete r id => Sys2Proof.Machine.execImageDelete r id s
  | .imageLoad r pslot => Sys2Proof.Machine.execImageLoad r pslot s
  | .imageLoadDone pslot readOk => Sys2Proof.Machine.execImageLoadDone pslot readOk s
  | .sramUeDetect store corrected => Sys2Proof.Machine.execSramUeDetect store corrected s
  | .hbmUeDetect line patrol corrected reader => Sys2Proof.Machine.execHbmUeDetect line patrol corrected reader s
  | .forcedRelocation stack channel => Sys2Proof.Machine.execForcedRelocation stack channel s
  | .readDisturbRelocate stack block => Sys2Proof.Machine.execReadDisturbRelocate stack block s
  | .blockRetire stack block spare => Sys2Proof.Machine.execBlockRetire stack block spare s
  | .cxlTimeout core id => Sys2Proof.Machine.execCxlTimeout core id s
  | .cxlCompletion core id poisoned => Sys2Proof.Machine.execCxlCompletion core id poisoned s
  | .tenantRegister r slot tenant share => Sys2Proof.Machine.execTenantRegister r slot tenant share s
  | .tenantDeregister r slot => Sys2Proof.Machine.execTenantDeregister r slot s
  | .sessionBind r slot => Sys2Proof.Machine.execSessionBind r slot s
  | .swapArm r => Sys2Proof.Machine.execSwapArm r s
  | .swapDisarm r => Sys2Proof.Machine.execSwapDisarm r s
  | .swapEpoch => Sys2Proof.Machine.execSwapEpoch s
  | .swapSaveStart => Sys2Proof.Machine.execSwapSaveStart s
  | .swapSaveDone => Sys2Proof.Machine.execSwapSaveDone s
  | .swapScrubDone => Sys2Proof.Machine.execSwapScrubDone s
  | .swapRestoreDone readOk => Sys2Proof.Machine.execSwapRestoreDone readOk s
  | .swapResume => Sys2Proof.Machine.execSwapResume s
  | .interferenceMinuteClose => Sys2Proof.Machine.execInterferenceMinuteClose s
  | .reproKeyRecompute => Sys2Proof.Machine.execReproKeyRecompute s
  | .hello location grade stepping domain => Sys2Proof.Machine.execHello location grade stepping domain s
  | .admitReply manager domain => Sys2Proof.Machine.execAdmitReply manager domain s
  | .adopt standby domain => Sys2Proof.Machine.execAdopt standby domain s
  | .heartbeatSend => Sys2Proof.Machine.execHeartbeatSend s
  | .heartbeatReceive sender => Sys2Proof.Machine.execHeartbeatReceive sender s
  | .mgrSilenceExpiry => Sys2Proof.Machine.execMgrSilenceExpiry s
  | .heartbeatMissing dev => Sys2Proof.Machine.execHeartbeatMissing dev s
  | .portFailed port peer reporter => Sys2Proof.Machine.execPortFailed port peer reporter s
  | .laneRemapped port lane reporter => Sys2Proof.Machine.execLaneRemapped port lane reporter s
  | .deviceFault cause reporter => Sys2Proof.Machine.execDeviceFault cause reporter s
  | .tenantError unit cause reporter => Sys2Proof.Machine.execTenantError unit cause reporter s
  | .mgmtCoreMiss => Sys2Proof.Machine.execMgmtCoreMiss s
  | .start r => Sys2Proof.Machine.execStart r s
  | .partitionRun => Sys2Proof.Machine.execPartitionRun s
  | .teardown r => Sys2Proof.Machine.execTeardown r s
  | .teardownBeat => Sys2Proof.Machine.execTeardownBeat s
  | .readmit r beat => Sys2Proof.Machine.execReadmit r beat s
  | .rejoin => Sys2Proof.Machine.execRejoin s
  | .failover lost standin => Sys2Proof.Machine.execFailover lost standin s
  | .replicaLoadDone rank ok => Sys2Proof.Machine.execReplicaLoadDone rank ok s
  | .dxRequest src h payload => Sys2Proof.Machine.execDxRequest src h payload s
  | .dxResponse h payload => Sys2Proof.Machine.execDxResponse h payload s
  | .dxRemoteTimeout seqNo => Sys2Proof.Machine.execDxRemoteTimeout seqNo s
  | .read r sel len => Sys2Proof.Machine.execRead r sel len s
  | .write r sel len => Sys2Proof.Machine.execWrite r sel len s
  | .patch r sel len => Sys2Proof.Machine.execPatch r sel len s
  | .cancel r => Sys2Proof.Machine.execCancel r s
  | .dxDataWrite r words => Sys2Proof.Machine.execDxDataWrite r words s
  | .dxDataRead r n => Sys2Proof.Machine.execDxDataRead r n s
  | .dxSegmentMove r => Sys2Proof.Machine.execDxSegmentMove r s
  | .dxIdleTimeout r => Sys2Proof.Machine.execDxIdleTimeout r s
  | .badWindowAccess isRead len => Sys2Proof.Machine.execBadWindowAccess isRead len s
  | .batch r rec => Sys2Proof.Machine.execBatch r rec s
  | .lane r rec => Sys2Proof.Machine.execLane r rec s
  | .tokens r rec => Sys2Proof.Machine.execTokens r rec s
  | .close r rec => Sys2Proof.Machine.execClose r rec s
  | .streamOutRead r n => Sys2Proof.Machine.execStreamOutRead r n s
  | .i3cRead index sub => Sys2Proof.Machine.execI3cRead index sub s
  | .i3cWrite index sub value => Sys2Proof.Machine.execI3cWrite index sub value s
  | .i3cStatusRead => Sys2Proof.Machine.execI3cStatusRead s
  | .setdasa static dyn => Sys2Proof.Machine.execSetdasa static dyn s
  | .entdaa dyn => Sys2Proof.Machine.execEntdaa dyn s
  | .store r value => Sys2Proof.Machine.execStore r value s
  | .storeDone readBackOk => Sys2Proof.Machine.execStoreDone readBackOk s
  | .restoreDefaults r value => Sys2Proof.Machine.execRestoreDefaults r value s
  | .fwUpdate r image => Sys2Proof.Machine.execFwUpdate r image s
  | .fwUpdateDone readBackOk => Sys2Proof.Machine.execFwUpdateDone readBackOk s
  | .attestNonce r nonce => Sys2Proof.Machine.execAttestNonce r nonce s
  | .attestCapture => Sys2Proof.Machine.execAttestCapture s
  | .attestSigned r => Sys2Proof.Machine.execAttestSigned r s
  | .hbmMargin r => Sys2Proof.Machine.execHbmMargin r s
  | .eyeScan r => Sys2Proof.Machine.execEyeScan r s
  | .flashCheck r => Sys2Proof.Machine.execFlashCheck r s
  | .sramTest r => Sys2Proof.Machine.execSramTest r s
  | .diagDone recs => Sys2Proof.Machine.execDiagDone recs s
  | .clipFlagsClear r bits => Sys2Proof.Machine.execClipFlagsClear r bits s
  | .auditAlarmClear r value => Sys2Proof.Machine.execAuditAlarmClear r value s
  | .clipWindowClose => Sys2Proof.Machine.execClipWindowClose s
  | .auditWindowClose => Sys2Proof.Machine.execAuditWindowClose s
  | .resetAssert pin widthNs => Sys2Proof.Machine.execResetAssert pin widthNs s
  | .resetRelease pin devId => Sys2Proof.Machine.execResetRelease pin devId s
  | .rom puf random => Sys2Proof.Machine.execRom puf random s
  | .nvBank => Sys2Proof.Machine.execNvBank s
  | .firmware => Sys2Proof.Machine.execFirmware s
  | .hbm recs trained => Sys2Proof.Machine.execHbm recs trained s
  | .flash recs cxl0 cxl1 ext0 ext1 => Sys2Proof.Machine.execFlash recs cxl0 cxl1 ext0 ext1 s
  | .links recs => Sys2Proof.Machine.execLinks recs s
  | .discovery => Sys2Proof.Machine.execDiscovery s
  | .thermalSample milliC powerMw => Sys2Proof.Machine.execThermalSample milliC powerMw s
  | .thermalTrip => Sys2Proof.Machine.execThermalTrip s
  | .brefLoss => Sys2Proof.Machine.execBrefLoss s
  | .brefValid => Sys2Proof.Machine.execBrefValid s
  | .vidStep target => Sys2Proof.Machine.execVidStep target s
  | .combineRecordTimeout record => Sys2Proof.Machine.execCombineRecordTimeout record s
  | .cxlPortDown port => Sys2Proof.Machine.execCxlPortDown port s
  | .cxlPortRetrain port full => Sys2Proof.Machine.execCxlPortRetrain port full s
  | .portPeerPresent port => Sys2Proof.Machine.execPortPeerPresent port s
  | .i3cTargetReady => Sys2Proof.Machine.execI3cTargetReady s
  | .reservedRecordKind r rec => Sys2Proof.Machine.execReservedRecordKind r rec s

end Sys2Proof.Machine
end

