-- ==== Sys2Proof/Machine/Idle.lean ====
section
/-! DEFINITION. What the block does with no command waiting (assumption 1): one nanosecond of hall time passes, with the slew
of R32, and every port that is up sends a flit each 1.2096 ns. -/

namespace Sys2Proof.Machine

open Sys2Proof

/-- One nanosecond of local time: hall time advances by one; every 10,000 ns a correction still due moves it one
nanosecond further or holds it (100 ppm, R32). -/
def Timebase.advance (t : Timebase) : Timebase :=
  if t.slew = 0 then { t with hallTime := t.hallTime + 1, slewPhase := 0 }
  else if t.slewPhase + 1 < 10000 then { t with hallTime := t.hallTime + 1, slewPhase := t.slewPhase + 1 }
  else if 0 < t.slew then { t with hallTime := t.hallTime + 2, slewPhase := 0, slew := t.slew - 1 }
  else { t with slewPhase := 0, slew := t.slew + 1 }

/-- Entry stages run on what scoring leaves idle (R22): their outputs leave once the beat has passed SCORE_END. -/
def State.releaseEntries (s : State) : State :=
  if s.streams.entries ≠ [] ∧ s.tickTime s.beatNow + s.reg Reg.scoreEnd ≤ s.time.hallTime then s.sendEntries else s

/-- One idle nanosecond. Before boot begins no clock runs (R448, R465). -/
def idle (s : State) : State :=
  if s.reg Reg.bootStage = 0 then s
  else
    let before := flitTimes s.time.hallTime
    let s := ({ s with time := s.time.advance }.askTime).releaseEntries
    (List.range 60).foldl (fun s x => s.sendSpan (flitTimes s.time.hallTime - before) x) s

end Sys2Proof.Machine
end

