-- ==== Sys2Proof/Safety.lean ====
section
/-! DEFINITION. What counts as a safe state and a safe answer, in the terms the statements use: stores in their canonical
form, tables with rising keys, a factory record that stands, and a step that answers a next state. -/

namespace Sys2Proof.Machine

open Sys2Proof

/-- The outcome is a next state: the device has gone on. -/
abbrev Answers (o : Host.Outcome State Fault Refusal) : Prop := ∃ t, o = .next t

/-- Every byte store of the device is in its canonical form: the scratchpads, the tiers, the cluster shared SRAM. -/
abbrev State.storesOk (s : State) : Prop :=
  (∀ e ∈ s.cores, Memory.wf e.2.scratch = true) ∧ Memory.wf s.tiers.hbm = true ∧ Memory.wf s.tiers.slow = true ∧
    Memory.wf s.tiers.far = true ∧ ∀ e ∈ s.tiers.shared, Memory.wf e.2 = true

/-- The live numbers of the dictionary are one table with rising keys: each object has one value. -/
abbrev State.numbersOk (s : State) : Prop := keysRise s.regs = true

/-- The factory record is f (R420): it is written at the factory and by nothing the device is told. -/
abbrev State.madeAs (f : Factory) (s : State) : Prop := s.nv.factory = f

/-- A role may write object k now: no device-fatal cause 6, and the checks of R374 on address, access and role pass. -/
abbrev State.mayWrite (s : State) (r : Role) (k : Nat) : Prop :=
  s.manager.mgmtDead = false ∧ s.accessCode r (keyIndex k) (keySub k) true = 0

/-- A role's stream registers answer: the operator's, or the tenant's while its slot runs (R335, R380). -/
abbrev State.mayStream (s : State) (r : Role) : Prop :=
  s.manager.mgmtDead = false ∧ (r = .op ∨ r = .ten ∧ s.reg Reg.sessionBind = s.slotNow ∧ s.slotNow ≠ 0xFF)

/-- Nothing is being read or discarded on STREAM_IN, which has room (R388). -/
abbrev State.atRest (s : State) : Prop :=
  s.streams.parse = ⟨none, 0, none, 0, false, none⟩ ∧ s.streams.used < 65536

/-- Every chain that a beat-class packet needs has been decided, and none of its landings failed: it has landed (R97,
R324). -/
abbrev State.landed (s : State) (p : BeatPacket) : Prop :=
  (∀ k ∈ s.landingClusters p, s.requested k p = true ∧ ∀ r ∈ (s.pool k).waiting, r.pkt ≠ p) ∧
    ∀ f ∈ s.pools.failed, f.2.1 ≠ p

/-- No HOME_CMD is queued or running and no home is under move (R307, R308). -/
abbrev State.homesQuiet (s : State) : Prop :=
  s.tiers.cmds = [] ∧ s.tiers.running = [] ∧ ∀ h ∈ s.tiers.homes, h.moving = none

/-- A role may write HOME_CMD now, and a tenant runs for it to act for (R307). -/
abbrev State.mayHome (s : State) (r : Role) : Prop := s.mayWrite r Reg.homeCmd ∧ (r = .mgr → s.slotNow ≠ 0xFF)

/-- What the answer to a refused command writes: the LAST_ABORT of each role, and SESSION_REFUSED (R374, R380). -/
def answerRegs : List Nat := [Reg.lastAbort 1, Reg.lastAbort 2, Reg.lastAbort 3, Reg.lastAbort 4, Reg.sessionRefused]

/-- Numbers that a commit stages and that none of its effects writes again (R50). -/
def committedNumbers : List Nat := [Reg.beatPeriod, Reg.hiddenWidth, Reg.vocabSize, Reg.jobId, Reg.rankCount]

/-- Byte strings that a commit stages and sets live as they are (R50). -/
def committedTables : List Nat :=
  [Reg.layerSlotCfg, Reg.recvGrants, Reg.platformTable, Reg.platformRes, Reg.predCfg, Reg.rankTable, Reg.routeTable, Reg.rmXlate]

/-- The sequence number of the running tenant's next HOME_CMD (R307). -/
def State.nextHomeSeq (s : State) : Nat := (mapGetD 0 s.tenantNow s.tiers.cmdSeq + 1) % 65536

end Sys2Proof.Machine
end

