-- ==== Sys2Proof/Certificates/Slice0/Obligations.lean ====
section
/-! DEFINITION. The statements about the model, one Prop each: what every command does where it completes, what it leaves, and
what every step keeps. A statement on a number that the manual leaves open speaks of every value of it. -/

open Sys2Proof Sys2Proof.Machine

/-! ### The step, reset and what every step keeps -/

/-- A step with command c at the front of the queue is exec of c on the state with the queue's rest, and exec leaves that
rest alone. On an empty queue the block idles and answers a next state: before boot begins nothing passes, and from then on
one nanosecond of hall time (the model's choice, assumption 1). -/
def Obligations.StepRunsTheFrontCommand : Prop :=
  (∀ (s : State) (c : Instr) (q : List Instr), step { s with pending := c :: q } = exec c { s with pending := q }) ∧
  (∀ (s : State), s.pending = [] → ∃ t, step s = .next t ∧ t.pending = [] ∧ (s.reg Reg.bootStage = 0 → t = s) ∧
    (s.reg Reg.bootStage ≠ 0 → s.time.slew = 0 → t.time.hallTime = s.time.hallTime + 1))

/-- R363, R373, R446, R448, R465: right after reset no command waits, BOOT_STAGE reads 0, every number and byte string of
the dictionary holds its default, the partition is IDLE, hall time is FREE, no tenant runs, and no core, chain, batch or
packet is in the device. The live numbers are one table with one value for each object, and every byte store is in its
canonical form. -/
def Obligations.ResetHoldsTheDefaults : Prop :=
  State.reset.pending = [] ∧ State.reset.reg Reg.bootStage = 0 ∧ (∀ k, State.reset.reg k = regDefault k) ∧
    (∀ k, State.reset.dom k = domDefault k) ∧ State.reset.reg Reg.partState = 0 ∧ State.reset.reg Reg.timeState = 0 ∧
    State.reset.slotNow = 0xFF ∧ State.reset.cores = [] ∧ State.reset.pools = Pools.empty ∧
    State.reset.streams = Streams.empty ∧ State.reset.fabric.inject = [] ∧ State.reset.fabric.landing = [] ∧
    State.reset.numbersOk ∧ State.reset.storesOk ∧ State.reset.madeAs State.reset.nv.factory

/-- R420, R446: whatever command the block takes, and when it idles, the factory record stands as it was written, the live
numbers stay one table with one value for each object, and the queue loses the command that ran and no other. -/
def Obligations.EveryStepKeepsTheFactoryRecordAndTheTables : Prop :=
  ∀ (s t : State) (f : Factory), s.madeAs f → s.numbersOk → step s = .next t →
    t.madeAs f ∧ t.numbersOk ∧ t.pending = s.pending.drop 1

/-- R420: every command of the block completes: whatever the state and the operands, exec answers a next state; it leaves
the commands that wait behind it and the factory record alone, and keeps one value for each object of the dictionary. -/
def Obligations.EveryCommandCompletes : Prop :=
  ∀ (i : Instr) (s : State), ∃ t, exec i s = .next t ∧ t.pending = s.pending ∧ t.nv.factory = s.nv.factory ∧
    (s.numbersOk → t.numbersOk)

/-- R334: a reset leaves no tenant slot registered, no key and no save area, and boot registers none: every slot reads FREE.
-/
def Obligations.ResetEndsEveryTenancy : Prop :=
  (∀ (s : State) (p : ResetPin) (w : Nat), 10000 ≤ w → ∃ t, exec (.resetAssert p w) s = .next t ∧
    (∀ n, t.tslot n = TenantSlot.empty ∧ (t.tslot n).state = 0 ∧ (t.tslot n).key = [] ∧ (t.tslot n).saved = none) ∧
    t.tiers.saveFrames = [] ∧ t.tiers.hbm = [] ∧ t.security.secret = []) ∧
  (∀ (s t : State) (i : Instr), (∃ p d, i = .resetRelease p d) ∨ (∃ a b, i = .rom a b) ∨ i = .nvBank ∨ i = .firmware ∨
    (∃ a b, i = .hbm a b) ∨ (∃ a b c d e, i = .flash a b c d e) ∨ (∃ a, i = .links a) ∨ i = .discovery →
    exec i s = .next t → ∀ n, t.tslot n = s.tslot n)

/-- R239: a multicast whose mask selects no member, bits at or above COUNT ignored, sends nothing and is counted in
MCAST_ZERO; ignored set bits count a multicast in MCAST_BAD_MASK. -/
def Obligations.EmptyMulticastsAreDiscarded : Prop :=
  ∀ (s : State) (cls g mask cl n : Nat) (b : Body), cls = 4 ∨ cls = 5 → (s.mcastRanks g).length = n →
    ∃ t, exec (.multicastInject cls g mask cl b) s = .next t ∧
      (mask % 2 ^ n = 0 → t = { s with regs := t.regs } ∧ t.reg Reg.mcastZero = (s.reg Reg.mcastZero + 1) % 2 ^ 32 ∧
        t.reg Reg.mcastSent = s.reg Reg.mcastSent) ∧
      (mask % 2 ^ n ≠ mask → t.reg Reg.mcastBadMask = (s.reg Reg.mcastBadMask + 1) % 2 ^ 32) ∧
      (mask % 2 ^ n = mask → t.reg Reg.mcastBadMask = s.reg Reg.mcastBadMask)

/-! ### The sequencer (R186 to R203) -/

/-- R196: a SYNC operation either is satisfied, and issue is held no longer, or it holds issue. FENCE waits for the masked
engines, WAIT for its line to fire in the invocation's parity, WAIT_OFFSET for the tick plus t, HOLD for its comparator, and
a HOLD that holds counts HOLD_CYCLES. A disabled core does none of it (R3). -/
def Obligations.SyncOperationsHoldOrPass : Prop :=
  ∀ (s : State) (c : Nat),
    (s.coreOn c = true →
      (∀ mask, ∃ t, exec (.fence c mask) s = .next t ∧
        (t.core c).seq.holding = if mask.all (s.core c).engineDone then none else some (.fence mask)) ∧
      (∀ line, ∃ t, exec (.wait c line) s = .next t ∧
        (t.core c).seq.holding =
          if (s.line (lineKey c line (s.syncBeat c))).fired then none else some (.wait line)) ∧
      (∀ d, ∃ t, exec (.waitOffset c d) s = .next t ∧
        (t.core c).seq.holding =
          if s.syncBeat c < s.beatNow ∨ s.tickTime (s.syncBeat c) + d ≤ s.time.hallTime then none
          else some (.waitOffset d)) ∧
      (∀ cp, ∃ t, exec (.hold c cp) s = .next t ∧
        (t.core c).seq.holding = (if (s.core c).cpTrue cp then none else some (.hold cp)) ∧
        t.reg Reg.holdCycles =
          if (s.core c).cpTrue cp then s.reg Reg.holdCycles else (s.reg Reg.holdCycles + 1) % 2 ^ 32)) ∧
    (s.coreOn c = false → ∀ mask line d cp,
      exec (.fence c mask) s = .next s ∧ exec (.wait c line) s = .next s ∧ exec (.waitOffset c d) s = .next s ∧
        exec (.hold c cp) s = .next s)

/-- R197: an arrival goes to the parity of the invocation's beat. The first sets the participant count from its N; a later
one with another N counts towards the first and in SIG_CONFLICT; the line fires when its arrivals reach the count; an
arrival after it has fired is ignored and counted in SIG_EXCESS. RAISE never holds issue; a BARRIER holds until the line has
fired. A control core, Yard or management core arrives in the running beat's parity at the kinds of line it may raise, and
at no other. -/
def Obligations.ArrivalsFireALine : Prop :=
  (∀ (s : State) (c n : Nat) (line : LineRef), s.coreOn c = true →
    let k := lineKey c line (s.syncBeat c)
    let l := s.line k
    let parts := if l.arrivals = 0 then n else l.parts
    (∃ t, exec (.raise c line n) s = .next t ∧ (t.core c).seq.holding = none ∧
      (l.fired = false → t.line k = ⟨l.arrivals + 1, parts, decide (parts ≤ l.arrivals + 1)⟩ ∧
        t.reg Reg.sigConflict =
          (if l.arrivals ≠ 0 ∧ n ≠ l.parts then (s.reg Reg.sigConflict + 1) % 2 ^ 32 else s.reg Reg.sigConflict)) ∧
      (l.fired = true → t.line k = l ∧ t.reg Reg.sigExcess = (s.reg Reg.sigExcess + 1) % 2 ^ 32) ∧
      ∀ j, j ≠ k → t.line j = s.line j) ∧
    ((s.core c).seq.holding ≠ some (.wait line) →
      ∃ t, exec (.barrier c line n) s = .next t ∧
        (l.fired = false → t.line k = ⟨l.arrivals + 1, parts, decide (parts ≤ l.arrivals + 1)⟩ ∧
          (t.core c).seq.holding = if parts ≤ l.arrivals + 1 then none else some (.wait line)) ∧
        (l.fired = true → t.line k = l ∧ (t.core c).seq.holding = none ∧
          t.reg Reg.sigExcess = (s.reg Reg.sigExcess + 1) % 2 ^ 32) ∧ ∀ j, j ≠ k → t.line j = s.line j)) ∧
  (∀ (s : State) (c n : Nat) (line : LineRef), 128 ≤ c →
    let k := lineKey c line s.beatNow
    let l := s.line k
    let parts := if l.arrivals = 0 then n else l.parts
    ∀ i ∈ [Instr.raise c line n, Instr.barrier c line n],
      (mayArrive c line = true → ∃ t, exec i s = .next t ∧ t.cores = s.cores ∧
        (l.fired = false → t.line k = ⟨l.arrivals + 1, parts, decide (parts ≤ l.arrivals + 1)⟩ ∧
          t.reg Reg.sigConflict =
            (if l.arrivals ≠ 0 ∧ n ≠ l.parts then (s.reg Reg.sigConflict + 1) % 2 ^ 32 else s.reg Reg.sigConflict)) ∧
        (l.fired = true → t.line k = l ∧ t.reg Reg.sigExcess = (s.reg Reg.sigExcess + 1) % 2 ^ 32) ∧
        ∀ j, j ≠ k → t.line j = s.line j) ∧
      (mayArrive c line = false → exec i s = .next s))

/-- R189, R194, R203: the sequencer issues the next word's engine slots; CONFIG sets its comparator for the rest of the
invocation; SPLICE replays the words of a sealed segment and holds on one that is not sealed. -/
def Obligations.WordsConfigAndSplice : Prop :=
  let wordsLeft := fun (k : Core) => if k.seq.replaying then k.seq.segLeft else k.seq.left
  ∀ (s : State) (c : Nat), s.coreOn c = true →
    (∀ (w : TWord) (ws : List TWord), (s.core c).seq.running = true → (s.core c).seq.holding = none →
      wordsLeft (s.core c) = w :: ws → ws ≠ [] → w.sync = none → (s.core c).headBad = false →
      ∃ t, exec (.wordIssue c) s = .next t ∧
        if w.slots.any (fun x => decide (8 ≤ ((s.core c).queue x.engine).waiting.length))
        then t = s.count Reg.seqStall 1
        else wordsLeft (t.core c) = ws ∧ t.reg Reg.seqStall = s.reg Reg.seqStall) ∧
    (∀ cp setting, cp < 4 → 1 < (s.core c).seq.left.length → (s.core c).seq.replaying = false →
      ∃ t, exec (.config c cp setting) s = .next t ∧ (t.core c).seq.holding = none ∧
        (t.core c).seq.settings[cp]? = some setting ∧
        ∀ j, j < 4 → j ≠ cp → (t.core c).seq.settings[j]? =
          some ((s.core c).seq.settings.getD j ⟨0, .lt, .imm 0⟩)) ∧
    (((s.core c).seg (s.syncBeat c)).state = 2 → 1 < (s.core c).seq.left.length → (s.core c).seq.replaying = false →
      ((s.core c).seg (s.syncBeat c)).words ≠ [] →
      ∃ t, exec (.splice c) s = .next t ∧ (t.core c).seq.replaying = true ∧ (t.core c).seq.holding = none ∧
        (t.core c).seq.segLeft = ((s.core c).seg (s.syncBeat c)).words ∧ ((t.core c).seg (s.syncBeat c)).state = 3) ∧
    (((s.core c).seg (s.syncBeat c)).state ≠ 2 →
      ∃ t, exec (.splice c) s = .next t ∧ (t.core c).seq.holding = some .splice)

/-- R186, R196: every command of the sequencer completes, and its frame: only the core it names, the signal lines and the
sequencer's counters change; no command of the sequencer writes the core's scratchpad, accumulators or weight registers.
R11, R140, R156: every engine command completes, and its frame: it changes the core it names, counters, the issue cycles of
the beat and the clipping statistic, and nothing else, but for the Yard's inputs that a read-out to a Yard feeds and the
cells that a quantise's last read of a hidden vector releases; on a disabled core nothing at all. A command that writes no
scratchpad byte leaves the scratchpad; one that writes leaves every byte outside its destination. -/
def Obligations.CoreFrames : Prop :=
  (∀ (s : State) (c : Nat) (i : Instr),
    ((i = .wordIssue c ∨ (∃ m, i = .fence c m) ∨ (∃ l n, i = .raise c l n) ∨ (∃ l, i = .wait c l) ∨
      (∃ l n, i = .barrier c l n) ∨ (∃ d, i = .waitOffset c d) ∨ (∃ p, i = .hold c p) ∨ (∃ p x, i = .config c p x) ∨
      i = .splice c) → ∃ t, exec i s = .next t ∧
    t = { s with cores := t.cores, regs := t.regs, lines := t.lines } ∧
    (∀ d, d ≠ c → t.core d = s.core d) ∧
    (t.core c).scratch = (s.core c).scratch ∧ (t.core c).acc = (s.core c).acc ∧ (t.core c).active = (s.core c).active ∧
    (t.core c).standby = (s.core c).standby ∧
    ∀ k, k ∉ [Reg.gateSkips, Reg.repeatClamp, Reg.invocations, Reg.seqStall, Reg.sigExcess, Reg.sigConflict,
      Reg.holdCycles] → t.reg k = s.reg k)) ∧
  ((∀ (s : State) (c : Nat) (i : Instr),
    ((∃ d, i = .aeTileLoad c d) ∨ (∃ n, i = .weightSwap c n) ∨ (∃ p, i = .aePass c p) ∨ (∃ d, i = .readout c d) ∨
      (∃ p, i = .sePass c p) ∨ (∃ o, i = .veOperation c o) ∨ (∃ d, i = .quantise c d) ∨ (∃ d, i = .dequantise c d) ∨
      (∃ d, i = .rotate c d) ∨ (∃ d, i = .readOutToMx c d) ∨ (∃ d, i = .readOutWithInverseRotation c d)) →
    ∃ t, exec i s = .next t ∧
    t = { s with cores := t.cores, regs := t.regs, beat := t.beat, clip := t.clip, yards := t.yards, platforms := t.platforms,
                 pools := t.pools } ∧
    ((∀ d, i ≠ .readout c d) → t.yards = s.yards) ∧
    ((∀ d, i ≠ .quantise c d) → t.platforms = s.platforms ∧ t.pools = s.pools) ∧
    (∀ d, d ≠ c → t.core d = s.core d) ∧ (s.coreOn c = false → t = s)) ∧
  (∀ (s t : State) (c : Nat) (d : QuantDesc), exec (.quantise c d) s = .next t →
    ((∃ a, d.src = .scratch a) ∨ (∃ p k x, d.src = .cell p k x false)) → t.platforms = s.platforms ∧ t.pools = s.pools) ∧
  (∀ (s t : State) (c : Nat) (i : Instr),
    ((∃ d, i = .aeTileLoad c d) ∨ (∃ n, i = .weightSwap c n) ∨ (∃ p, i = .aePass c p) ∨ (∃ p, i = .sePass c p)) →
    exec i s = .next t → (t.core c).scratch = (s.core c).scratch) ∧
  (∀ (s t : State) (c : Nat) (o : VeOp) (a : Nat), exec (.veOperation c o) s = .next t →
    (let d := (s.core c).addr .ve o.dst
     a < d ∨ d + 4 * (if o.fn = .sum ∨ o.fn = .maxReduce then 1 else o.n) ≤ a) →
    memGet (t.core c).scratch a = memGet (s.core c).scratch a) ∧
  (∀ (s t : State) (c : Nat) (d : ReadOut) (a : Nat), exec (.readout c d) s = .next t →
    (∀ x, d.dst = .scratch x → a < (s.core c).addr .ae x ∨
      (s.core c).addr .ae x + d.count * (match d.target with | .fp32 => 4 | .bf16 => 2 | .e4m3 => 1) ≤ a) →
    memGet (t.core c).scratch a = memGet (s.core c).scratch a))

/-! ### The engines (R133 to R185) -/

/-- R133, R138, R139, R142, R145: AE_TILE_LOAD of a tile whose formats, arrangement and fold the tables hold reads its
elements and scales, at addresses aligned to 64 B, from the scratchpad into the standby registers and leaves the active
ones; WEIGHT_SWAP exchanges the two sets and counts the cycles it held. A tile outside the tables, which the loader refuses,
is not loaded (the model's choice, assumption 120). -/
def Obligations.WeightRegistersLoadAndSwap : Prop :=
  ∀ (s : State) (c : Nat), s.coreOn c = true →
    (∀ d : TileDesc, tileFits d = true → ∃ t, exec (.aeTileLoad c d) s = .next t ∧
      (t.core c).standby.desc = d ∧ (t.core c).standby.passes = 0 ∧
      (t.core c).standby.elems = (s.core c).spRead (align64 ((s.core c).addr .ae d.elems)) (tileOuts d * tileColBytes d) ∧
      (t.core c).standby.scales = (s.core c).spRead (align64 ((s.core c).addr .ae d.scales)) (tileScales d) ∧
      t = s.setCore c { s.core c with standby := (t.core c).standby }) ∧
    (∀ d : TileDesc, tileFits d = false → exec (.aeTileLoad c d) s = .next s) ∧
    (∀ n, ∃ t, exec (.weightSwap c n) s = .next t ∧ (t.core c).active = (s.core c).standby ∧
      (t.core c).standby = (s.core c).active ∧ t.reg Reg.swapWait = (s.reg Reg.swapWait + n) % 2 ^ 32 ∧
      t = (s.setCore c { s.core c with active := (s.core c).standby, standby := (s.core c).active }).count
        Reg.swapWait n)

/-- R135, R141, R147, R148: a pass through the active tile, or through the zero registers where none is loaded, feeds one
accumulator entry of the store's 16,384 for each output, starting from a cleared entry where the pass starts a column; every
other entry keeps its value. -/
def Obligations.ArrayPassFeedsItsEntries : Prop :=
  ∀ (s : State) (c : Nat) (p : AePass), s.coreOn c = true → keysRise (s.core c).acc = true →
    let k := s.core c
    let w := k.active
    let act := k.activation w.desc.afmt (k.addr .ae p.act) (k.addr .ae p.actScale) (tileDep w.desc)
    let actF := if w.desc.wfmt = .bf16 then (k.spB16 (k.addr .ae p.act) (tileDep w.desc)).map fOfB else []
    ∃ t, exec (.aePass c p) s = .next t ∧
      (∀ j, j < tileOuts w.desc → p.entry0 + j < 16384 → (t.core c).entry (p.entry0 + j) = (passColumn k w p act actF j).1) ∧
      (∀ i, i < p.entry0 ∨ p.entry0 + tileOuts w.desc ≤ i ∨ 16384 ≤ i → (t.core c).entry i = k.entry i) ∧
      (t.core c).active = { w with passes := w.passes + 1 } ∧ (t.core c).standby = k.standby ∧
      (t.core c).scratch = k.scratch ∧ t.beat.busyAe = s.beat.busyAe + w.passCycles

/-- R147, R149: an accumulator entry that holds an 80-bit value holds one after every run of contributions; a NaN
contribution adds nothing and sets the sticky NAN bit; a sum outside the range is clamped and sets the sticky SAT bit. R71,
R152: reading out writes each entry in the target format to the scratchpad, or adds it to the Yard input of its token, and
counts the saturated columns; an entry with NAN set reads out as a NaN; one with SAT set as the largest finite magnitude of
its sign, or as a NaN where SAT_READOUT is 1. The entries keep their values. -/
def Obligations.AccumulatorAndReadOut : Prop :=
  ((∀ (e : AccEntry) (cs : List (Option Dy)), accBottom ≤ e.acc → e.acc ≤ accTop →
    accBottom ≤ (e.addAll cs).1.acc ∧ (e.addAll cs).1.acc ≤ accTop ∧
      ((e.addAll cs).1.nan = (e.nan || cs.any (·.isNone))) ∧ (e.sat = true → (e.addAll cs).1.sat = true) ∧
      (e.addAll cs).1.base = e.base) ∧
  (∀ (e : AccEntry) (q : Int),
    (accTop < e.acc + q → e.addInt q = ({ e with acc := accTop, sat := true, satNeg := false }, true)) ∧
    (e.acc + q < accBottom → e.addInt q = ({ e with acc := accBottom, sat := true, satNeg := true }, true)) ∧
    (accBottom ≤ e.acc + q → e.acc + q ≤ accTop → e.addInt q = ({ e with acc := e.acc + q }, false)))) ∧
  ((∀ (s : State) (c : Nat) (d : ReadOut), s.coreOn c = true →
    let k := s.core c
    let v := fun j => s.readEntry c (d.entry0 + j) (d.factor.map (k.addr .ae)) j
    let bytes := (List.range d.count).flatMap (fun j =>
        match d.target with
        | .fp32 => leBytes 4 ((v j).1.toF32 (s.subnormMode c)).toNat
        | .bf16 => leBytes 2 ((v j).1.toB16 (s.subnormMode c)).toNat
        | .e4m3 => leBytes 1 (v j).1.toE4m3.1)
    ∃ t, exec (.readout c d) s = .next t ∧
      (∀ a, d.dst = .scratch a → (t.core c).scratch = (k.spWrite (k.addr .ae a) bytes).scratch ∧ t.yards = s.yards) ∧
      (∀ cl l tok first, d.dst = .yard cl l tok first → (t.core c).scratch = k.scratch ∧
        t.yards = (s.yardShare tok l (cl % 16) (s.syncBeat c) first bytes).yards) ∧
      (t.core c).acc = k.acc ∧
      t.reg Reg.satColumns =
        (s.reg Reg.satColumns + (List.range d.count).countP (fun j => (v j).2)) % 2 ^ 32) ∧
  (∀ (e : AccEntry) (satRead : Nat) (f : FP32),
    (e.nan = true → e.readOut false satRead f = (rNaN, false)) ∧
    (e.nan = false → e.sat = true → satRead = 0 → e.readOut false satRead f = (⟨3, e.satNeg, 0, 0⟩, true)) ∧
    (e.nan = false → e.sat = true → satRead ≠ 0 → e.readOut false satRead f = (rNaN, true))))

/-- R170: a VE operation of n elements writes the function of its operand vectors to its destination; the operands are read
before any result is written. R175, R176, R180: a pass through a malformed compressed tile gives every entry it targets a
NaN contribution, and the first pass through it is counted in SE_BAD_TILE; a well-formed tile adds each row's runs to its
entry, and its non-zeros are counted in SE_NNZ. A pair of formats outside R142 runs nothing (assumption 120). R156 to R164:
QUANTISE of a scratchpad vector or of a choice's hidden vector in the cell pool, and READ_OUT_TO_MX, write elements and
scales and count the elements in QUANT_ELEMS; DEQUANTISE, ROTATE and the read-out with inverse rotation write one wide
vector. Each adds the Turntable's issue cycles. -/
def Obligations.VectorSparseAndTurntable : Prop :=
  (∀ (s : State) (c : Nat) (o : VeOp), s.coreOn c = true → 0 < o.n →
    let k := s.core c
    let rd := fun (a : Addr) => k.spF32 (k.addr .ve a) o.n
    ∃ t, exec (.veOperation c o) s = .next t ∧
      (t.core c).scratch =
        (k.spWrite (k.addr .ve o.dst) (f32Bytes (veResult o (rd o.srcA) (rd o.srcB) (rd o.gain) (rd o.bias)))).scratch ∧
      t.beat.busyVe = s.beat.busyVe + (o.n + 511) / 512) ∧
  (∀ (s : State) (c : Nat) (p : SePass), s.coreOn c = true → keysRise (s.core c).acc = true →
   (sePairOk p.wfmt p.afmt = false → exec (.sePass c p) s = .next s) ∧
   (sePairOk p.wfmt p.afmt = true →
    let k := s.core c
    let base := k.addr .se p.tile
    let h := seHeaderOf (k.spRead base 64)
    let ptrs := (List.range h.rows).map (fun r => leNat (k.spRead (base + 64 + 2 * r) 2))
    let bad := seMalformed h ptrs p.wfmt p.tileLen || k.spBad base (64 + ceil64 (2 * h.rows))
    let nsc := if p.wfmt = .ternary then 1 else (h.cols + eltBlock p.wfmt - 1) / eltBlock p.wfmt
    let act := k.activation p.afmt (k.addr .se p.act) (k.addr .se p.actScale) h.cols
    let start := fun (i : Nat) => if p.start then AccEntry.start (baseField p.base) false else k.entry i
    ∃ t, exec (.sePass c p) s = .next t ∧
      (bad = true → (∀ r, r < h.rows → p.entry0 + r < 16384 → ((t.core c).entry (p.entry0 + r)).nan = true) ∧
        (k.sePasses base (k.spRead base p.tileLen) = 0 → t.reg Reg.seBadTile = (s.reg Reg.seBadTile + 1) % 2 ^ 32) ∧
        (k.sePasses base (k.spRead base p.tileLen) ≠ 0 → t.reg Reg.seBadTile = s.reg Reg.seBadTile) ∧
        t.reg Reg.seNnz = s.reg Reg.seNnz) ∧
      (bad = false → t.reg Reg.seNnz = (s.reg Reg.seNnz + h.nnz) % 2 ^ 64 ∧
        ∀ r, r < h.rows → p.entry0 + r < 16384 →
          let row := seRow k base h p.wfmt (ptrs.getD r 0) (ptrs.getD (r + 1) h.nnz)
          let scales := (List.range nsc).map (fun b =>
            let a := k.addr .se p.scales + r * nsc + b
            if k.scratchBad.contains (a / 8) then none else scaleVal p.wfmt (leNat (k.spRead a 1)))
          (t.core c).entry (p.entry0 + r) =
            ((start (p.entry0 + r)).addRow (seRowRuns h p.wfmt p.afmt row scales act).1).1) ∧
      (∀ i, i < p.entry0 ∨ p.entry0 + h.rows ≤ i ∨ 16384 ≤ i → (t.core c).entry i = k.entry i))) ∧
  (∀ (s : State) (c : Nat), s.coreOn c = true →
    let k := s.core c
    (∀ d : QuantDesc, ∃ t, exec (.quantise c d) s = .next t ∧
      (let x := rotate d.rot (s.quantSource c d).1
       t.reg Reg.quantElems = (s.reg Reg.quantElems + x.length) % 2 ^ 64 ∧
       (t.core c).scratch = ((s.writeQuant c d.fmt (k.addr .tt d.scales) (k.addr .tt d.dst) (k.addr .tt d.dstScale) d.clipSlot
         (x.map rOfF)).core c).scratch) ∧
      t.beat.busyTt = s.beat.busyTt + ttCycles d.srcWide d.n ∧ (t.core c).acc = k.acc) ∧
    (∀ d : ReadMx, ∃ t, exec (.readOutToMx c d) s = .next t ∧
      (t.core c).scratch = ((s.writeQuant c d.fmt (k.addr .tt d.scales) (k.addr .tt d.dst) (k.addr .tt d.dstScale) d.clipSlot
        ((List.range d.n).map (fun j => (s.readEntry c (d.entry0 + j) (d.factor.map (k.addr .tt)) j).1))).core c).scratch ∧
      t.reg Reg.quantElems = (s.reg Reg.quantElems + d.n) % 2 ^ 64 ∧
      t.beat.busyTt = s.beat.busyTt + ttCycles true d.n ∧ (t.core c).acc = k.acc) ∧
    (∀ d : DequantDesc, ∃ t, exec (.rotate c d) s = .next t ∧
      (t.core c).scratch = (k.spWrite (k.addr .tt d.dst) (wideBytes d.wide (rotate d.rot
        (k.wideVector (decide (d.fmt = .fp32)) (k.addr .tt d.src) d.n)))).scratch ∧
      t.beat.busyTt = s.beat.busyTt + ttCycles (decide (d.fmt = .fp32)) d.n) ∧
    (∀ d : DequantDesc, ∃ t, exec (.dequantise c d) s = .next t ∧
      (let a := k.addr .tt d.src
       let sc := k.addr .tt d.scales
       let blk := scaleBlock d.fmt d.n
       let xs := (List.range d.n).map (fun i =>
         dequant d.fmt (scaleVal d.fmt (leNat (k.spRead (sc + i / blk) 1))) (packedAt d.fmt (k.spRead a (packedBytes d.fmt d.n + 8)) 0 i)
           (k.scratchBad.contains ((a + i * eltBits d.fmt / 8) / 8) || k.scratchBad.contains ((sc + i / blk) / 8)))
       (t.core c).scratch = (k.spWrite (k.addr .tt d.dst)
         ((rotate d.rot (xs.map (·.1))).flatMap (fun x => (deqWrite d.wide (s.subnormMode c) x).1))).scratch) ∧
      t.beat.busyTt = s.beat.busyTt + ttCycles true d.n ∧ (t.core c).acc = k.acc) ∧
    (∀ d : ReadMx, ∃ t, exec (.readOutWithInverseRotation c d) s = .next t ∧
      (t.core c).scratch = (k.spWrite (k.addr .tt d.dst) (wideBytes d.wide (rotate d.rot ((List.range d.n).map
        (fun j => (s.readEntry c (d.entry0 + j) (d.factor.map (k.addr .tt)) j).1.toF32 (s.subnormMode c)))))).scratch ∧
      t.beat.busyTt = s.beat.busyTt + ttCycles true d.n))

/-! ### The mover, atomics and remote memory (R250 to R269, R289, R303) -/

/-- R13, R24, R306: a mover transfer between the scratchpad and the cluster's shared SRAM moves its bytes and leaves every
other byte of both; one from a fast-tier home or from a choice's hidden vector in the cell pool writes their bytes to the
scratchpad; one whose check fails moves none and is logged with its cause (R258). R289: an atomic on an aligned word of a
cluster cache's software area writes the new value there and the old one to the scratchpad, and is counted; outside the area
or unaligned it changes neither store and ends with cause 3. -/
def Obligations.TransfersAndAtomicsMoveBytes : Prop :=
  (∀ (s : State) (c len : Nat), s.coreOn c = true →
    let k := s.core c
    (∀ a b, ∃ t, exec (.moverTransfer c none (.scratch a) (.scratch b) len) s = .next t ∧
      (t.core c).scratch = (k.spWrite (k.addr .mv b) (k.spRead (k.addr .mv a) len)).scratch ∧
      t.beat.busyMv = s.beat.busyMv + (len + 2047) / 2048) ∧
    (∀ a o, o + len ≤ cacheBytes → ∃ t, exec (.moverTransfer c none (.scratch a) (.shared o) len) s = .next t ∧
      t.sharedMem (c / 8) = memWrite (s.sharedMem (c / 8)) o (k.spRead (k.addr .mv a) len) ∧
      (∀ x, x ≠ c / 8 → t.sharedMem x = s.sharedMem x) ∧ (t.core c).scratch = k.scratch) ∧
    (∀ o b, o + len ≤ cacheBytes → ∃ t, exec (.moverTransfer c none (.shared o) (.scratch b) len) s = .next t ∧
      (t.core c).scratch = (k.spWrite (k.addr .mv b) (memRead (s.sharedMem (c / 8)) o len)).scratch ∧
      ∀ x, t.sharedMem x = s.sharedMem x) ∧
    (∀ a o b, homeTier a = 1 → (s.mvCause none (.home a o) (.scratch b) len).1 = 0 →
      ∃ t, exec (.moverTransfer c none (.home a o) (.scratch b) len) s = .next t ∧
        (t.core c).scratch = (k.spWrite (k.addr .mv b) (s.homeRead a o len)).scratch ∧ t.tiers = s.tiers) ∧
    (∀ p tok ch o b v u, s.readChoice p tok ch false = some (v, u) →
      ∃ t, exec (.moverTransfer c none (.cell p tok ch o false) (.scratch b) len) s = .next t ∧
        (t.core c).scratch = (k.spWrite (k.addr .mv b) (bytesAt (b16Bytes v) o len)).scratch ∧ t.tiers = s.tiers ∧
        t.pools = s.pools) ∧
    (∀ add src dst, (s.mvCause add src dst len).1 ≠ 0 → ∃ t, exec (.moverTransfer c add src dst len) s = .next t ∧
      (t.core c).scratch = k.scratch ∧ t.tiers = s.tiers ∧ t.reg Reg.rmErrors = (s.reg Reg.rmErrors + 1) % 2 ^ 32 ∧
      t.rmem.faults.getLast? = some [(s.mvCause add src dst len).1, (s.mvCause add src dst len).2.1, c, s.myRank,
        (s.mvCause add src dst len).2.2, s.beatNow % 2 ^ 32])) ∧
  (∀ (s : State) (c cl off v e : Nat) (wide : Bool) (dst : Addr), s.coreOn c = true →
    let n := if wide then 8 else 4
    let w := atomBits wide
    let old := leNat (memRead (s.sharedMem cl) off n)
    let ok := off % n = 0 ∧ softBase ≤ off ∧ off + n ≤ softBase + s.reg Reg.ccSoftBytes ∧ cl < 16 ∧
      s.sharedBadIn cl off n = false
    let bad := off % n ≠ 0 ∨ off < softBase ∨ softBase + s.reg Reg.ccSoftBytes < off + n ∨ 16 ≤ cl
    let forms : List (Instr × Nat) :=
      [(.atomicAdd c cl off wide v dst, (old + v) % 2 ^ w),
       (.atomicMin c cl off wide v dst, if signedOf w (v % 2 ^ w) < signedOf w old then v % 2 ^ w else old),
       (.atomicMax c cl off wide v dst, if signedOf w old < signedOf w (v % 2 ^ w) then v % 2 ^ w else old),
       (.atomicSwap c cl off wide v dst, v % 2 ^ w),
       (.compareSwap c cl off wide e v dst, if old = e % 2 ^ w then v % 2 ^ w else old)]
    ∀ f ∈ forms,
      (ok → ∃ t, exec f.1 s = .next t ∧ t.sharedMem cl = memWrite (s.sharedMem cl) off (leBytes n f.2) ∧
        (∀ x, x ≠ cl → t.sharedMem x = s.sharedMem x) ∧
        (t.core c).scratch = ((s.core c).spWrite ((s.core c).addr .mv dst) (leBytes n old)).scratch ∧
        t.reg Reg.ccAtomics = (s.reg Reg.ccAtomics + 1) % 2 ^ 64) ∧
      (bad → ∃ t, exec f.1 s = .next t ∧ (∀ x, t.sharedMem x = s.sharedMem x) ∧
        (t.core c).scratch = (s.core c).scratch ∧ t.reg Reg.rmErrors = (s.reg Reg.rmErrors + 1) % 2 ^ 32))

/-- R251, R252: a slot that names a rank sends one request for a range inside a 4,096 B piece, keeps it among the core's
outstanding requests and counts it; a READ with CACHE of a line of which the device holds a copy sends none and takes its
data from it (R260). MV_INVALIDATE drops the device's copies of the range. -/
def Obligations.MoverRequestsLeaveTheCore : Prop :=
  ∀ (s : State) (c rank jva len d : Nat), s.coreOn c = true → s.leaving = false → s.rankDev rank = some d →
    (s.core c).rmWait = [] → ((s.core c).rmOut.filter RmReq.remote).length < 64 →
    let k := s.core c
    (0 < len → jva % 4096 + len ≤ 4096 →
      (∀ dst cache, s.rmem.copies = [] ∨ cache = false →
        ∃ t r, exec (.mvRemoteRead c rank jva len dst cache) s = .next t ∧ (t.core c).rmOut = k.rmOut ++ [r] ∧
          r.opc = 1 ∧ r.rank = rank ∧ r.jva = jva ∧ r.len = len ∧ r.dst = k.addr .mv dst ∧ r.cache = cache ∧
          t.reg Reg.rmRequests = (s.reg Reg.rmRequests + 1) % 2 ^ 64 ∧
          t.fabric.inject.length = s.fabric.inject.length + 1) ∧
      (∀ src, ∃ t r, exec (.mvRemoteWrite c rank jva len src) s = .next t ∧ (t.core c).rmOut = k.rmOut ++ [r] ∧
          r.opc = 2 ∧ r.rank = rank ∧ r.jva = jva ∧ r.len = len ∧ r.dst = k.addr .mv src ∧
          t.reg Reg.rmRequests = (s.reg Reg.rmRequests + 1) % 2 ^ 64 ∧
          t.fabric.inject.length = s.fabric.inject.length + 1)) ∧
    (∀ dst y, jva % 64 = 0 → len = 64 → s.copyOfLine rank jva = some y →
      ∃ t, exec (.mvRemoteRead c rank jva len dst true) s = .next t ∧ t.fabric = s.fabric ∧ (t.core c).rmOut = k.rmOut ∧
        t.reg Reg.rmRequests = s.reg Reg.rmRequests ∧ (t.core c).scratch = (k.spWrite (k.addr .mv dst) y.data).scratch) ∧
    (jva % 4096 + 64 ≤ 4096 → ∀ ty src, ∃ t r, exec (.mvRemoteAdd c rank jva ty src) s = .next t ∧
      (t.core c).rmOut = k.rmOut ++ [r] ∧ r.opc = 3 ∧ r.dtype = addTypeCode ty ∧ r.rank = rank ∧ r.jva = jva ∧ r.len = 64 ∧
      t.reg Reg.rmRequests = (s.reg Reg.rmRequests + 1) % 2 ^ 64) ∧
    (∃ t, exec (.mvInvalidate c rank jva len) s = .next t ∧ t.fabric = s.fabric ∧
      (∀ x ∈ t.rmem.copies, x ∈ s.rmem.copies ∧ ¬(x.rank = rank ∧ x.jva ∈ lineAddrs jva len)) ∧
      ∀ x ∈ s.rmem.copies, ¬(x.rank = rank ∧ x.jva ∈ lineAddrs jva len) → x ∈ t.rmem.copies)

/-- R254, R259, R261: the home answers a request that fails a check with a NAK and counts it; a READ that passes and meets
no uncorrectable line is served from the fast tier, a WRITE or ADD that passes and whose lines have no sharer is applied to
it. What a request is its OP says, whatever the command that delivers it. -/
def Obligations.HomeServesOrRefuses : Prop :=
  ∀ (s : State) (p : RmPacket) (d : Nat), s.rankDev p.srcRank = some d → s.rmem.held = [] →
   ∀ i ∈ [Instr.rmRead p, Instr.rmWrite p, Instr.rmAdd p],
    (s.rmCause p ≠ 0 → ∃ t x, exec i s = .next t ∧ t.tiers = s.tiers ∧
      t.reg Reg.rmNakSent = (s.reg Reg.rmNakSent + 1) % 2 ^ 32 ∧ t.fabric.inject = s.fabric.inject ++ [x] ∧
      ∃ q, x.body = .rm q ∧ q.opc = 6 ∧ q.cause = s.rmCause p ∧ q.tag = p.tag ∧ q.dstRank = p.srcRank) ∧
    (∀ r, s.rmCause p = 0 → s.xlateOf (field p.jva 21 27) = some r → s.rmem.directory = [] → s.tiers.hbmBad = [] →
      ∃ t x, exec i s = .next t ∧ t.reg Reg.rmServed = (s.reg Reg.rmServed + 1) % 2 ^ 64 ∧
        t.fabric.inject = s.fabric.inject ++ [x] ∧
        (p.opc = 1 → t.tiers = s.tiers ∧ ∃ q, x.body = .rm q ∧ q.opc = 4 ∧ q.tag = p.tag ∧
          q.data = memRead s.tiers.hbm (r.addr p.jva) (rmBytes p)) ∧
        (p.opc = 2 → t.tiers.hbm = memWrite s.tiers.hbm (r.addr p.jva) p.data ∧
          ∃ q, x.body = .rm q ∧ q.opc = 5 ∧ q.tag = p.tag) ∧
        (p.opc = 3 → t.tiers.hbm = memWrite s.tiers.hbm (r.addr p.jva)
            (addLine p.dtype (memRead s.tiers.hbm (r.addr p.jva) p.data.length) p.data) ∧
          ∃ q, x.body = .rm q ∧ q.opc = 5 ∧ q.tag = p.tag))

/-- R253, R258, R303: a response ends its request: READ_DATA writes the data to the scratchpad, ACK completes a WRITE or
ADD, NAK, RM_TIMEOUT and CXL_TIMEOUT end it with their cause; a response with no outstanding request is counted as late.
R256, R261, R262: an INVALIDATE drops the device's copies of its line, marks a READ of it in flight, and answers INV_ACK; an
INV_ACK takes the sharer's bit from the directory; a recall is done when no request is in service on its page and no
invalidation is outstanding. -/
def Obligations.RequestsAndSharersEnd : Prop :=
  (∀ (s : State) (p : RmPacket), p.combined = false →
    let c := tagCore p.tag
    (s.rmReqOf c p.tag = none → ∀ i ∈ [Instr.readData p, Instr.ack p, Instr.nak p], ∃ t, exec i s = .next t ∧
      t.reg Reg.rmLateResp = (s.reg Reg.rmLateResp + 1) % 2 ^ 32 ∧ t.cores = s.cores) ∧
    (∀ r, s.rmReqOf c p.tag = some r → r.far = none → (s.core c).rmWait = [] →
      let rest := (s.core c).rmOut.filter (fun x => x.tag != r.tag)
      (r.opc = 1 → ∃ t, exec (.readData p) s = .next t ∧ (t.core c).rmOut = rest ∧
        (t.core c).scratch = ((s.core c).spWrite r.dst (p.data.take r.len)).scratch) ∧
      (r.opc ≠ 1 → ∃ t, exec (.ack p) s = .next t ∧ (t.core c).rmOut = rest ∧ (t.core c).scratch = (s.core c).scratch) ∧
      (∃ t, exec (.nak p) s = .next t ∧ (t.core c).rmOut = rest ∧ (t.core c).scratch = (s.core c).scratch ∧
        t.reg Reg.rmErrors = (s.reg Reg.rmErrors + 1) % 2 ^ 32 ∧
        t.rmem.faults.getLast? = some [p.cause, r.opc, c, r.rank, r.jva, s.beatNow % 2 ^ 32]) ∧
      (r.mine = false → ∃ t, exec (.rmTimeout c p.tag) s = .next t ∧ (t.core c).rmOut = rest ∧
        r.issued + s.reg Reg.rmTimeout ≤ t.time.hallTime ∧
        t.rmem.faults.getLast? = some [7, r.opc, c, r.rank, r.jva, s.beatNow % 2 ^ 32])) ∧
    (∀ r port, s.rmReqOf c p.tag = some r → r.far = some port → (s.core c).rmWait = [] →
      let rest := (s.core c).rmOut.filter (fun x => x.tag != r.tag)
      (∃ t, exec (.cxlTimeout c p.tag) s = .next t ∧ (t.core c).rmOut = rest ∧
        t.reg Reg.cxlTimeouts = (s.reg Reg.cxlTimeouts + 1) % 2 ^ 32 ∧ r.issued + s.reg Reg.cxlTimeout ≤ t.time.hallTime) ∧
      (∃ t, exec (.cxlCompletion c p.tag true) s = .next t ∧ (t.core c).rmOut = rest ∧
        t.reg Reg.cxlPoison = (s.reg Reg.cxlPoison + 1) % 2 ^ 32) ∧
      (∀ a, r.place = some (.scratch (.lit a)) → ∃ t, exec (.cxlCompletion c p.tag false) s = .next t ∧
        (t.core c).rmOut = rest ∧ (t.core c).scratch = ((s.core c).spWrite a r.data).scratch) ∧
      (r.place = none → ∃ t, exec (.cxlCompletion c p.tag false) s = .next t ∧ (t.core c).rmOut = rest ∧
        t.reg Reg.cxlPoison = s.reg Reg.cxlPoison))) ∧
  (∀ (s : State) (p : RmPacket),
    (∀ d, s.rankDev p.srcRank = some d → ∃ t x, exec (.invalidate p) s = .next t ∧
      (∀ y ∈ t.rmem.copies, y.rank = p.srcRank → y.jva ∉ lineAddrs p.jva 64) ∧
      (∀ e ∈ t.cores, ∀ r ∈ e.2.rmOut, r.opc = 1 → r.rank = p.srcRank → p.jva / 64 * 64 ∈ lineAddrs r.jva r.len → r.dropped = true) ∧
      t.fabric.inject = s.fabric.inject ++ [x] ∧ ∃ q, x.body = .rm q ∧ q.opc = 8 ∧ q.jva = p.jva ∧ q.dstRank = p.srcRank) ∧
    (∀ r x, s.xlateOf (field p.jva 21 27) = some r → s.quadPos p.srcRank = some x → s.rmem.held = [] →
      keysRise s.rmem.directory = true →
      ∃ t, exec (.invAck p) s = .next t ∧
        mapGetD 0 (r.addr p.jva / 64) t.rmem.directory = setBitAt (mapGetD 0 (r.addr p.jva / 64) s.rmem.directory) x false ∧
        t.rmem.recallInv = s.rmem.recallInv.erase (r.addr p.jva / 64, x)) ∧
    (∃ t, exec .recallDone s = .next t ∧ t.reg Reg.recallState =
      if s.reg Reg.recallState = 1 ∧ s.rmem.recallInv = [] ∧
        s.rmem.held.all (fun h => field h.req.jva 21 27 != s.rmem.recallJpn) then 2 else s.reg Reg.recallState))

/-- R250 to R268, R289, R303: every command of the mover and of remote memory completes, and its frame: it changes cores,
counters, the fabric, remote memory, the tiers' contents, the mover's issue cycles and, at a timeout, hall time; a mover
transfer may besides release a cell chain or end the request of a token whose KV is lost. No home, no user's frames, no
image, no stream, no table and no port's state changes. The collectives' packets and timeouts complete, and their frame:
collective slots, own memory, remote memory, cores' outstanding requests, counters and packets to send change; no stream, no
table, no combine, and a port only by the flits a timeout's elapsed time sends. -/
def Obligations.RemoteAndCollectiveFrames : Prop :=
  (∀ (s : State) (i : Instr),
    (((∃ c r j n d k, i = .mvRemoteRead c r j n d k) ∨
      (∃ c r j n d, i = .mvRemoteWrite c r j n d) ∨ (∃ c r j ty d, i = .mvRemoteAdd c r j ty d) ∨
      (∃ c r j n, i = .mvInvalidate c r j n) ∨ (∃ c k o w v d, i = .atomicAdd c k o w v d) ∨
      (∃ c k o w v d, i = .atomicMin c k o w v d) ∨ (∃ c k o w v d, i = .atomicMax c k o w v d) ∨
      (∃ c k o w v d, i = .atomicSwap c k o w v d) ∨ (∃ c k o w e v d, i = .compareSwap c k o w e v d) ∨
      (∃ p, i = .rmRead p) ∨ (∃ p, i = .rmWrite p) ∨ (∃ p, i = .rmAdd p) ∨ (∃ p, i = .readData p) ∨ (∃ p, i = .ack p) ∨
      (∃ p, i = .nak p) ∨ (∃ p, i = .invalidate p) ∨ (∃ p, i = .invAck p) ∨ (∃ c n, i = .rmTimeout c n) ∨
      i = .recallDone ∨ (∃ c n, i = .cxlTimeout c n) ∨ (∃ c n b, i = .cxlCompletion c n b)) →
    ∃ t, exec i s = .next t ∧
    t = { s with cores := t.cores, regs := t.regs, free := t.free, beat := t.beat, fabric := t.fabric, rmem := t.rmem,
                 tiers := t.tiers, time := { s.time with hallTime := t.time.hallTime } } ∧
    t.tiers.homes = s.tiers.homes ∧ t.tiers.kv = s.tiers.kv ∧ t.tiers.images = s.tiers.images ∧
    s.time.hallTime ≤ t.time.hallTime ∧ (∀ x, t.reg (Reg.portState x) = s.reg (Reg.portState x)) ∧
    t.reg Reg.partState = s.reg Reg.partState ∧ t.reg Reg.beatNumber = s.reg Reg.beatNumber) ∧
    ((∃ c a x y n, i = .moverTransfer c a x y n) → ∃ t, exec i s = .next t ∧
      t = { s with cores := t.cores, regs := t.regs, beat := t.beat, fabric := { s.fabric with inject := t.fabric.inject },
                   rmem := t.rmem, tiers := t.tiers, combine := { s.combine with residuals := t.combine.residuals },
                   platforms := { s.platforms with queues := t.platforms.queues },
                   pools := { s.pools with pools := t.pools.pools, chains := t.pools.chains },
                   prior := t.prior, yards := t.yards } ∧
      t.tiers.homes = s.tiers.homes ∧ t.tiers.kv = s.tiers.kv ∧ t.tiers.images = s.tiers.images)) ∧
  (∀ (s : State) (i : Instr),
    ((∃ p, i = .ready p ∨ i = .data p ∨ i = .collAck p ∨ i = .resend p ∨ i = .abort p) →
      ∃ t, exec i s = .next t ∧
        t = { s with regs := t.regs, free := t.free, cores := t.cores,
                     fabric := { s.fabric with inject := t.fabric.inject, landing := t.fabric.landing },
                     rmem := t.rmem, colls := t.colls,
                     tiers := { s.tiers with hbm := t.tiers.hbm, hbmBad := t.tiers.hbmBad } } ∧
        t.reg Reg.partState = s.reg Reg.partState ∧ t.reg Reg.beatNumber = s.reg Reg.beatNumber) ∧
    ((∃ g n, i = .collTimeout g n) →
      ∃ t, exec i s = .next t ∧
        t = { s with regs := t.regs, free := t.free, cores := t.cores,
                     fabric := { s.fabric with inject := t.fabric.inject, ports := t.fabric.ports },
                     rmem := t.rmem, colls := t.colls, time := { s.time with hallTime := t.time.hallTime },
                     tiers := { s.tiers with hbm := t.tiers.hbm, hbmBad := t.tiers.hbmBad } } ∧
        t.reg Reg.partState = s.reg Reg.partState ∧ t.reg Reg.beatNumber = s.reg Reg.beatNumber))

/-! ### The Yard and dispatch (R61 to R91) -/

/-- R91: every entry of a token's list keeps its place and weight; an entry whose expert is unavailable, or has no credit
left, is dropped, and every other one spends one credit of its expert: no credit is spent twice. R63, R68, R71, R72, R78,
R90, R91, R107, R129: stage 2 of a token whose residual is held here, once its input is whole, counts the token as scored
and sends its Manifest with the scored list; a token of an inactive slot is counted and sends one with no choice; a stale
token's stage ends and sends nothing. A striped group's owning Yard returns its best experts; a KV block selection writes
the number of kept blocks to the core's counter and keeps the blocks for the attention that reads them; a finished gate copy
frees the staged half. -/
def Obligations.YardSpendsCreditsOnce : Prop :=
  (∀ (s : State) (lslot : Nat) (l : List (Nat × FP32)),
    let r := s.creditChecks lslot 0 l
    r.1.map (fun e => (e.expert, e.gate)) = l ∧ r.1.map (fun e => e.choice) = List.range l.length ∧
    (∀ e, mapGetD 0 (creditKey lslot e) r.2.platforms.credits +
        r.1.countP (fun x => !x.dropped && x.expert == e) = mapGetD 0 (creditKey lslot e) s.platforms.credits) ∧
    (∀ x ∈ r.1, x.unavail = (mapRecOf (s.dom (slotKey Reg.expertMap lslot)) x.expert).unavail) ∧
    (∀ k, (∀ e, k ≠ creditKey lslot e) → mapGetD 0 k r.2.platforms.credits = mapGetD 0 k s.platforms.credits)) ∧
  (∀ (s : State),
    (∀ tok lslot nr nc hid res,
      (s.residualOf tok = none → exec (.stage2Result tok lslot nr nc hid res) s = .next s) ∧
      ∀ r, s.residualOf tok = some r →
        let v := s.stageView tok
        let l := v.layerSlot lslot
        (s.stale tok.tag tok.gen = true → ∃ t, exec (.stage2Result tok lslot nr nc hid res) s = .next t ∧
          t.fabric = s.fabric ∧ t.platforms = s.platforms ∧ t.regs = s.regs ∧ t.residualOf tok = none) ∧
        (∀ d, s.stale tok.tag tok.gen = false → l.experts = 0 → s.rankDev nr = some d →
          ∃ t x, exec (.stage2Result tok lslot nr nc hid res) s = .next t ∧
            t.reg Reg.inactiveSlot = (s.reg Reg.inactiveSlot + 1) % 2 ^ 32 ∧ t.fabric.inject = s.fabric.inject ++ [x] ∧
            ∃ q, x.body = .beat q ∧ q.hdr.kind = 3 ∧ q.entries = [] ∧ q.vec = res ∧ q.hdr.batchTag = tok.tag ∧
              q.hdr.lane = tok.lane) ∧
        (∀ x, s.stale tok.tag tok.gen = false → l.experts ≠ 0 → v.scorerInput l tok lslot r.cluster hid = some x →
          let g := v.stage2 tok lslot r.cluster x.1
          ∃ t, exec (.stage2Result tok lslot nr nc hid res) s = .next t ∧ t.residualOf tok = none ∧
            t.reg Reg.scoredTokens = (s.reg Reg.scoredTokens + 1) % 2 ^ 32 ∧
            t.reg Reg.nanScores = (s.reg Reg.nanScores + g.nan) % 2 ^ 32 ∧
            t.reg Reg.choicesEmitted = (s.reg Reg.choicesEmitted + g.list.length) % 2 ^ 64 ∧
            t.reg Reg.inactiveSlot = s.reg Reg.inactiveSlot ∧
            ∀ d, s.rankDev nr = some d → ∃ y q, t.fabric.inject[s.fabric.inject.length]? = some y ∧ y.body = .beat q ∧
              q.hdr.kind = 3 ∧ q.hdr.dstRank = nr ∧ q.entries.map (fun e => e.expert) = g.list.map (fun e => e.1) ∧
              q.vec = res)) ∧
    (∀ lslot g tok hid q x, s.residualOf tok = some q →
      let v := s.stageView tok
      let l := v.layerSlot lslot
      l.experts ≠ 0 → l.striped = true → g < l.groups → s.stale tok.tag tok.gen = false →
      s.replyFor tok q.cluster lslot g = none → v.scorerInput l tok lslot q.cluster hid = some x →
      ∃ t, exec (.stripedGroupRequest lslot g tok hid) s = .next t ∧
        t.yards.replies = s.yards.replies ++ [⟨tok, q.cluster, lslot, g, q.beat,
          keepExperts (min l.topK l.perGroup) (v.groupScores l lslot (g % 16) g x.1)⟩]) ∧
    (∀ c ctr lslot tok e m scores r u w, s.residualOf tok = some r → s.kvUser s.tenantNow tok.tag tok.lane = some u →
      (s.layerSlot lslot).experts ≠ 0 → (s.layerSlot lslot).kvSel = true → s.coreOn c = true → c / 8 = r.cluster →
      s.sumsBad u lslot = false → s.storeKv u lslot e m = some w → scores ≠ [] →
      ((w.kvUser s.tenantNow tok.tag tok.lane).map (fun u => (u.blocksOf lslot).length)).getD 0 = scores.length →
      let kept := kvKept (s.layerSlot lslot) (scores.length - 1) scores
      ∃ t, exec (.kvBlockSelection c ctr lslot tok e m scores) s = .next t ∧
        (t.core c).ctr ctr (s.syncBeat c) = kept.length % 2 ^ 32 ∧ (tok, lslot, kept) ∈ t.yards.kept ∧
        (scores.length ≤ (s.layerSlot lslot).kvTopk → kept = List.range scores.length) ∧
        t.reg Reg.kvSelections = (s.reg Reg.kvSelections + 1) % 2 ^ 32) ∧
    (s.yards.copying = true → s.readsFormer = false → ∃ t, exec .gateCopyDone s = .next t ∧ t.yards.copying = false ∧
      t.reg Reg.gateCopyBusy = 0))

/-! ### Platforms and cell pools (R97 to R126, R318 to R331) -/

/-- R327: a granted chain takes its cells from the pool and charges them to one entry; releasing it gives back as many to
both. The cells that are free and those held add up to the same number after as before. R97, R323: a Consist's header asks
each receiving cluster's allocator for a chain; the allocator serves its first waiting request: it grants the chain, or
counts the failure by its cause. -/
def Obligations.CellPoolsConserveAndServe : Prop :=
  ((∀ (s : State) (k q : Nat) (r : ChainReq), keysRise (s.pool k).held = true → s.chainDecision k r = (0, q) →
    let t := s.grant k q r
    (t.pool k).free + (t.pool k).inUse = (s.pool k).free + (s.pool k).inUse ∧
      (t.pool k).free + r.cells = (s.pool k).free ∧ (t.pool k).low ≤ (s.pool k).low ∧
      (∀ j, j ≠ k → t.pool j = s.pool j) ∧ t.pools.chains = s.pools.chains ++ [⟨k, q, (s.pool k).first r.cells, r.cls, r.pkt.hdr.srcRank, false, r.pkt⟩] ∧
      t.reg Reg.chainsAllocated = (s.reg Reg.chainsAllocated + 1) % 2 ^ 64) ∧
  (∀ (s : State) (c : Chain), keysRise (s.pool c.cluster).held = true →
    c.cells.length ≤ mapGetD 0 c.entry (s.pool c.cluster).held →
    let t := s.freeChain c
    (t.pool c.cluster).free + (t.pool c.cluster).inUse = (s.pool c.cluster).free + (s.pool c.cluster).inUse ∧
      (t.pool c.cluster).free = (s.pool c.cluster).free + c.cells.length ∧ (∀ j, j ≠ c.cluster → t.pool j = s.pool j) ∧
      t.reg Reg.cellsReleased = (s.reg Reg.cellsReleased + c.cells.length) % 2 ^ 64)) ∧
  ((∀ (s : State) (p : BeatPacket), p.hdr.kind = 1 → ∃ t, exec (.consistHeaderArrival p) s = .next t ∧
    (∀ k, (t.pool k).waiting = (s.pool k).waiting ++
      if k ∈ s.receivers p ∧ s.requested k p = false then [⟨1, chainLen (s.reg Reg.hiddenWidth) p, p, false, s.time.hallTime⟩] else []) ∧
    t.regs = s.regs ∧ t.fabric = s.fabric) ∧
  (∀ (s : State) (k : Nat) (r : ChainReq) (rest : List ChainReq), (s.pool k).waiting = r :: rest → r.striped = false →
    ∃ t, exec (.chainAllocate k) s = .next t ∧ (t.pool k).waiting = rest ∧
      (∀ q, s.chainDecision k r = (0, q) → t.pools.chains = s.pools.chains ++ [⟨k, q, (s.pool k).first r.cells, r.cls, r.pkt.hdr.srcRank, false, r.pkt⟩] ∧
        (t.pool k).free = (s.pool k).free - r.cells) ∧
      (r.pkt.hdr.kind = 6 → (s.chainDecision k r).1 = 2 →
        t.reg Reg.allocFailQuota = (s.reg Reg.allocFailQuota + 1) % 2 ^ 32 ∧ t.pools.chains = s.pools.chains)))

/-- R98, R99, R100: a Consist of one choice that has landed is decided: accepted, it spends a receive credit and joins its
Platform's queue; refused, its credit returns and a refusal leaves for NEXT_RANK. From INTAKE_CLOSE on nothing is accepted.
-/
def Obligations.IntakeDecidesAChoice : Prop :=
  ∀ (s : State) (k : Nat) (p : BeatPacket) (e : ChoiceEntry), p.hdr.kind = 1 → p.entries = [e] →
    s.platCluster e.pslot = some k → k < 16 → s.stale p.hdr.batchTag p.hdr.gen = false → s.landed p →
    (s.intakeCause p 0 e = 0 → ∃ t q, exec (.consistArrival k p) s = .next t ∧
      t.queueOf e.pslot = s.queueOf e.pslot ++ [q] ∧ q.tok = idOf p.hdr ∧ q.entry = e ∧ q.vec = p.vec ∧
      t.reg Reg.choicesReceived = (s.reg Reg.choicesReceived + 1) % 2 ^ 64 ∧
      t.reg Reg.choicesAccepted = (s.reg Reg.choicesAccepted + 1) % 2 ^ 64 ∧ t.fabric.inject = s.fabric.inject) ∧
    (s.intakeCause p 0 e ≠ 0 → ∀ d, s.rankDev p.hdr.nextRank = some d → ∃ t x, exec (.consistArrival k p) s = .next t ∧
      t.platforms = s.platforms ∧ t.reg Reg.choicesReceived = (s.reg Reg.choicesReceived + 1) % 2 ^ 64 ∧
      t.reg Reg.creditsReturned = (s.reg Reg.creditsReturned + 1) % 2 ^ 64 ∧ t.fabric.inject = s.fabric.inject ++ [x] ∧
      ∃ q, x.body = .beat q ∧ q.hdr.kind = 4 ∧ q.hdr.batchTag = p.hdr.batchTag ∧ q.hdr.lane = p.hdr.lane) ∧
    (s.beat.intakeClosed = true → s.intakeCause p 0 e = 6)

/-- R44, R100, R101, R120, R124, R126: INTAKE_CLOSE ends the intake of a running beat; a core's segment is sealed at its
condition and its seal line is raised; an answer is sent from the core's scratchpad and its choice is served; a prediction
is counted and its granules kept, or answered with +0 where there are none; an ended audit window raises the alarm above its
limit. -/
def Obligations.PlatformCommandsComplete : Prop :=
  ∀ (s : State),
    (s.noBeat = false → s.beat.intakeClosed = false → ∃ t, exec .intakeClose s = .next t ∧ t.beat.intakeClosed = true ∧
      t.fabric = s.fabric ∧ t.platforms = s.platforms) ∧
    (∀ c, s.runs c = true → ((s.core c).seg (s.sealBeat c)).state = 1 → s.beat.intakeClosed = true →
      s.predicted c (s.sealBeat c) = true → ∃ t, exec (.segmentSeal c) s = .next t ∧
        (t.core c).seg (s.sealBeat c) = ⟨2, s.segmentWords c (s.sealBeat c)⟩ ∧
        t.reg Reg.segmentsSealed = (s.reg Reg.segmentsSealed + 1) % 2 ^ 32 ∧
        ((s.line (lineKey c (.cluster (248 + c % 8)) (s.sealBeat c))).arrivals = 0 →
          (s.line (lineKey c (.cluster (248 + c % 8)) (s.sealBeat c))).fired = false →
          (t.line (lineKey c (.cluster (248 + c % 8)) (s.sealBeat c))).fired = true)) ∧
    (∀ ps tok ch ov src q d, s.findChoice ps tok ch = some q → q.spoiled = false → s.rankDev q.nextRank = some d →
      ∃ t x, exec (.expertAnswerSend ps tok ch ov src) s = .next t ∧ q ∉ t.queueOf ps ∧
        (t.queueOf ps).length = (s.queueOf ps).length ∧
        t.fabric.inject = s.fabric.inject ++ [x] ∧ ∃ a, x.body = .beat a ∧ a.hdr.kind = 2 ∧
          a.vec = (s.core (s.plat ps).core).spB16 src (s.reg Reg.hiddenWidth) ∧
          a.hdr.batchTag = q.tok.tag ∧ a.hdr.lane = q.tok.lane) ∧
    (∀ ps tok ch q, s.findChoice ps tok ch = some q → q.pred = true → q.kept = none →
      ∃ t, exec (.predictionComplete ps tok ch) s = .next t ∧
        t.reg Reg.predTokens = (s.reg Reg.predTokens + 1) % 2 ^ 32 ∧
        (s.predictChoice ps q ≠ [] → { q with kept := some (s.predictChoice ps q) } ∈ t.queueOf ps ∧ t.fabric = s.fabric) ∧
        (s.predictChoice ps q = [] → q ∉ t.queueOf ps ∧ t.reg Reg.predEmpty = (s.reg Reg.predEmpty + 1) % 2 ^ 32 ∧
          ∀ d, q.spoiled = false → s.rankDev q.nextRank = some d → ∃ x a, t.fabric.inject = s.fabric.inject ++ [x] ∧
            x.body = .beat a ∧ a.hdr.kind = 2 ∧ a.vec = List.replicate (s.reg Reg.hiddenWidth) 0)) ∧
    (∀ n, s.platforms.auditEnded = some n → ∃ t, exec .auditWindowClose s = .next t ∧ t.platforms.auditEnded = none ∧
      t.reg Reg.auditAlarm = if s.reg Reg.auditLimit < n then 1 else s.reg Reg.auditAlarm)

/-! ### Through-combine and the exit stage (R79 to R82, R102 to R111) -/

/-- R103, R111: an answer whose choice is pending settles it as late_discarded; one whose Manifest is held is held for the
combine; one with no Manifest after ATTN_END is an orphan. A refusal likewise, with the outcome of its cause. R110: settling
a choice moves it from the open choices to dispatched and to exactly one outcome. -/
def Obligations.ReturnsSettleOnce : Prop :=
  (∀ (s : State) (p : BeatPacket) (answer : Bool), p.hdr.kind = (if answer then 2 else 4) → s.landed p →
    let i : Instr := if answer then .answerArrival p else .refusalArrival p
    let c : PendingChoice := ⟨idOf p.hdr, returnChoice p, p.hdr.beat⟩
    let out := if answer then Reg.lateDiscarded else outcomeOfCause (refusalCause p)
    let r : Return := ⟨idOf p.hdr, p.hdr.beat, returnChoice p, answer, if answer then 0 else refusalCause p, some p⟩
    (c ∈ s.combine.pending → ∃ t, exec i s = .next t ∧ t.combine.pending = s.combine.pending.erase c ∧
      t.reg out = (s.reg out + 1) % 2 ^ 64 ∧ t.reg Reg.dispatched = (s.reg Reg.dispatched + 1) % 2 ^ 64 ∧
      t.reg Reg.openChoices = s.reg Reg.openChoices - 1) ∧
    (c ∉ s.combine.pending → s.combine.manifests.any (heldFor (idOf p.hdr) p.hdr.beat) = true → s.holdsReturn r = false →
      ∃ t h, exec i s = .next t ∧ h.pkt = p ∧
        (answer = true → t.combine = { s.combine with answers := s.combine.answers ++ [h] }) ∧
        (answer = false → t.combine = { s.combine with refusals := s.combine.refusals ++ [h] }) ∧
        t.regs = s.regs ∧ t.pools = s.pools) ∧
    (c ∉ s.combine.pending → s.combine.manifests.any (heldFor (idOf p.hdr) p.hdr.beat) = false →
      s.knows (idOf p.hdr) p.hdr.beat = false → s.pastAttn p.hdr.beat = true →
      ∃ t, exec i s = .next t ∧ t.combine = s.combine ∧ t.reg Reg.orphans = (s.reg Reg.orphans + 1) % 2 ^ 32 ∧
        t.reg Reg.sidingPackets = (s.reg Reg.sidingPackets + 1) % 2 ^ 32)) ∧
  (∀ (s : State) (o : Nat),
    o ∈ [Reg.combined, Reg.droppedCapacity, Reg.refusedPool, Reg.lateDiscarded, Reg.cancelledDiscarded, Reg.lostFault] →
    let t := s.settle o
    t.reg Reg.dispatched = (s.reg Reg.dispatched + 1) % 2 ^ 64 ∧ t.reg o = (s.reg o + 1) % 2 ^ 64 ∧
      t.reg Reg.openChoices = s.reg Reg.openChoices - 1 ∧
      ∀ k, k ≠ Reg.dispatched → k ≠ o → k ≠ Reg.openChoices → t.reg k = s.reg k)

/-- R103, R106, R110, R111: a Manifest in time enters its choices into the ledger and is held for its combine; a repeated
one goes to the Siding. ATTN_END drops every return no Manifest claims; at tick b + 3 the pending choices of beat b settle
as lost_fault. A cancel notice joins the cancel list once and leaves it at tick CB + 4. -/
def Obligations.CombineCommandsComplete : Prop :=
  ∀ (s : State),
    (∀ p, p.hdr.kind = 3 → s.landed p → s.knows (idOf p.hdr) p.hdr.beat = false →
      s.stale p.hdr.batchTag p.hdr.gen = false → s.age p.hdr.beat = 0 → ∃ t h, exec (.manifestArrival p) s = .next t ∧
        h.pkt = p ∧ h.late = false ∧ t.combine.manifests = s.combine.manifests ++ [h] ∧
        t.knows (idOf p.hdr) p.hdr.beat = true ∧
        t.reg Reg.openChoices = (s.reg Reg.openChoices + p.entries.length) % 2 ^ 32) ∧
    (∀ p, p.hdr.kind = 3 → s.landed p → s.knows (idOf p.hdr) p.hdr.beat = true → ∃ t, exec (.manifestArrival p) s = .next t ∧
        t.combine = s.combine ∧ t.reg Reg.sidingPackets = (s.reg Reg.sidingPackets + 1) % 2 ^ 32 ∧
        t.reg Reg.openChoices = s.reg Reg.openChoices) ∧
    (s.noBeat = false → s.beat.attnEnded = false → ∃ t, exec .orphanSweep s = .next t ∧ t.beat.attnEnded = true ∧
      (∀ h ∈ t.combine.answers ++ t.combine.refusals, s.age h.pkt.hdr.beat = 0 ∨ 2 ^ 31 ≤ s.age h.pkt.hdr.beat ∨
        s.knows (idOf h.pkt.hdr) h.pkt.hdr.beat = true) ∧ t.combine.manifests = s.combine.manifests) ∧
    (s.noBeat = false → ∃ t, exec .pendingExpiry s = .next t ∧
      t.combine.pending = s.combine.pending.filter (fun c => decide (s.age c.beat < 2 ∨ 2 ^ 31 ≤ s.age c.beat)) ∧
      (s.combine.pending.all (fun c => decide (s.age c.beat < 2 ∨ 2 ^ 31 ≤ s.age c.beat)) = false →
        t.reg Reg.lostFault = (s.reg Reg.lostFault + (s.combine.pending.filter
          (fun c => !decide (s.age c.beat < 2 ∨ 2 ^ 31 ≤ s.age c.beat))).length) % 2 ^ 64)) ∧
    (∀ tag gen cb, (⟨tag, gen, cb⟩ : CancelNotice) ∉ s.combine.cancels → ∃ t, exec (.cancelNoticeArrival tag gen cb) s = .next t ∧
      t.combine.cancels = s.combine.cancels ++ [⟨tag, gen, cb⟩] ∧
      t.reg Reg.cancelActive = (s.combine.cancels.length + 1) % 256 ∧
      t.reg Reg.cancelLate = if cb ≤ s.beatNow ∧ s.noBeat = false then (s.reg Reg.cancelLate + 1) % 2 ^ 32
        else s.reg Reg.cancelLate) ∧
    (∀ tag gen, s.noBeat = false → ∃ t, exec (.cancelNoticeExpiry tag gen) s = .next t ∧
      (∀ c, c ∈ t.combine.cancels ↔ c ∈ s.combine.cancels ∧ ¬(c.tag = tag ∧ c.gen = gen ∧ c.cb + 4 ≤ s.beatNow + 1)))

/-- R79 to R83, R96: a share's candidates leave for the exit device, under the sampling values of the request's beat; a
candidate set of a token in its exit stage is kept for the merge; the merge of a token whose shares have all arrived is
counted and sends one sampled token; at SAMPLE_END every token with a share missing merges without it, counted. -/
def Obligations.ExitStageCompletes : Prop :=
  ∀ (s : State),
    (∀ p logits cl d, p.hdr.kind = 5 → s.landed p → s.stale p.hdr.batchTag p.hdr.gen = false →
      let v := s.asOf p.hdr.beat
      v.reg Reg.vocabLen ≠ 0 → s.rankDev p.hdr.nextRank = some d →
      ∃ t x, exec (.vocabularyRequestArrival p logits cl) s = .next t ∧
        t.fabric.inject = s.fabric.inject ++ [x] ∧ ∃ q, x.body = .beat q ∧ q.hdr.kind = 6 ∧ q.hdr.dstRank = p.hdr.nextRank ∧
          q.cands = topK v.sampleK (v.scaledLogits logits)) ∧
    (∀ p x, p.hdr.kind = 6 → s.landed p → s.stale p.hdr.batchTag p.hdr.gen = false → s.age p.hdr.beat = 0 →
      s.exitToken (idOf p.hdr) p.hdr.beat = some x → x.merged = false → x.sets.any (fun e => e.1 == p.hdr.srcRank) = false →
      ∃ t, exec (.candidateSetArrival p) s = .next t ∧
        t.exitToken (idOf p.hdr) p.hdr.beat = some { x with sets := x.sets ++ [(p.hdr.srcRank, p.cands)] } ∧
        t.regs = s.regs) ∧
    (∀ tag lane cl x, s.exits.find? (fun x => x.tok.tag == tag && x.tok.lane == lane && !x.merged && s.age x.beat == 0 &&
        decide ((s.asOf x.beat).reg Reg.vocabShares ≤ x.sets.length)) = some x → s.stale x.tok.tag x.tok.gen = false →
      let v := s.asOf x.beat
      let c := topK v.sampleK (x.sets.flatMap (fun e => e.2))
      ∃ t, exec (.vocabMerge tag lane cl) s = .next t ∧
        t.reg Reg.vocabMerges = (s.reg Reg.vocabMerges + 1) % 2 ^ 32 ∧
        (c = [] → t.reg Reg.vocabEmpty = (s.reg Reg.vocabEmpty + 1) % 2 ^ 32 ∧ t.fabric = s.fabric) ∧
        (∀ d, c ≠ [] → s.rankDev x.tok.entryRank = some d →
          ∃ y q, t.fabric.inject = s.fabric.inject ++ [y] ∧ y.body = .beat q ∧ q.hdr.kind = 7 ∧
            q.token = sampleOf (BitVec.ofNat 32 (v.reg Reg.sampleTemp)) (BitVec.ofNat 32 (v.reg Reg.sampleTopp)) c
              (draw (v.reg Reg.sampleSeed) x.tok.tag (drawIndex x.tok)))) ∧
    (∀ cl, ∃ t, exec (.sampleEndExpiry cl) s = .next t ∧
      (let n := (s.exits.filter (fun x => !x.merged && s.age x.beat == 0 &&
          decide (x.sets.length < (s.asOf x.beat).reg Reg.vocabShares) && !s.stale x.tok.tag x.tok.gen)).length
       (n = 0 → t = s) ∧ (0 < n → t.reg Reg.vocabPartial = (s.reg Reg.vocabPartial + n) % 2 ^ 32 ∧
         t.reg Reg.vocabMerges = (s.reg Reg.vocabMerges + n) % 2 ^ 32)))

/-- R61 to R126: every command of the Yard, the Platforms, the combine and the exit stage completes, and its frame:
counters, cores' counters and segments, signal lines, the Yard, Platforms, pools, combine, exit tokens and packets to send
change; no scratchpad, no tier, no stream and no dictionary table. A Manifest that arrives and a KV block selection may
besides take KV frames for their token's attention and end its request: the homes and users of the tiers, what the selection
writes in them, the model's free-value counter and the manager's list. -/
def Obligations.DispatchFrame : Prop :=
  (∀ (s : State) (i : Instr),
    ((∃ a b c d e f, i = .stage2Result a b c d e f) ∨ (∃ a b c d, i = .stripedGroupRequest a b c d) ∨
      i = .gateCopyDone ∨ (∃ p, i = .consistHeaderArrival p) ∨
      (∃ k, i = .chainAllocate k) ∨ (∃ k p, i = .consistArrival k p) ∨ i = .intakeClose ∨
      (∃ a b c, i = .predictionComplete a b c) ∨ (∃ c, i = .segmentSeal c) ∨
      (∃ a b c d e, i = .expertAnswerSend a b c d e) ∨ (∃ p, i = .answerArrival p) ∨ (∃ p, i = .refusalArrival p) ∨
      i = .orphanSweep ∨ i = .pendingExpiry ∨ (∃ a b c, i = .cancelNoticeArrival a b c) ∨
      (∃ a b, i = .cancelNoticeExpiry a b) ∨ (∃ a b c, i = .vocabularyRequestArrival a b c) ∨
      (∃ p, i = .candidateSetArrival p) ∨ (∃ a b c, i = .vocabMerge a b c) ∨ (∃ a, i = .sampleEndExpiry a) ∨
      i = .auditWindowClose) →
    ∃ t, exec i s = .next t ∧
    t = { s with regs := t.regs, free := t.free, beat := t.beat, cores := t.cores, lines := t.lines, yards := t.yards,
                 platforms := t.platforms, pools := t.pools, combine := t.combine, prior := t.prior, exits := t.exits,
                 fabric := t.fabric } ∧
    (∀ c, (t.core c).scratch = (s.core c).scratch ∧ (t.core c).acc = (s.core c).acc) ∧
    t.fabric.ports = s.fabric.ports ∧ t.reg Reg.partState = s.reg Reg.partState ∧
    t.reg Reg.beatNumber = s.reg Reg.beatNumber) ∧
  (∀ (s : State) (p : BeatPacket), ∃ t, exec (.manifestArrival p) s = .next t ∧
    t = { s with regs := t.regs, free := t.free, yards := t.yards, pools := t.pools, combine := t.combine, prior := t.prior,
                 exits := t.exits, fabric := t.fabric, tiers := t.tiers,
                 manager := { s.manager with ended := t.manager.ended } } ∧
    t.tiers = { s.tiers with homes := t.tiers.homes, kv := t.tiers.kv } ∧
    t.fabric.ports = s.fabric.ports ∧ t.reg Reg.partState = s.reg Reg.partState ∧
    t.reg Reg.beatNumber = s.reg Reg.beatNumber) ∧
  (∀ (s : State) (a b c : Nat) (d : TokenId) (e f : List Byte) (g : List FP32),
    ∃ t, exec (.kvBlockSelection a b c d e f g) s = .next t ∧
    t = { s with regs := t.regs, free := t.free, cores := t.cores, yards := t.yards, prior := t.prior,
                 platforms := { s.platforms with kvBytes := t.platforms.kvBytes },
                 combine := { s.combine with residuals := t.combine.residuals },
                 fabric := { s.fabric with inject := t.fabric.inject }, tiers := t.tiers } ∧
    (∀ k, (t.core k).scratch = (s.core k).scratch ∧ (t.core k).acc = (s.core k).acc))

/-! ### The fabric (R212 to R249, R441, R472, R474) -/

/-- R217, R218, R247, R441: a flit with a bad CRC is counted and discarded with a retry request; a whole data flit with the
expected SEQ is accepted and counted, one with SOP begins a packet, and the next SEQ is expected; one with another SEQ is
discarded with a retry request; a control flit brings the peer's credit totals. What FEC corrected and could not is counted.
-/
def Obligations.FlitsAreAcceptedInOrder : Prop :=
  ∀ (s : State) (x : Nat) (f : List Byte) (a b : Nat), s.portLive x = true →
    (flitOk f = false → ∃ t, exec (.flitReceive x f a b) s = .next t ∧ (t.port x).rxRetry = true ∧
      (t.port x).rxNext = (s.port x).rxNext ∧ t.reg (Reg.crcFails x) = (s.reg (Reg.crcFails x) + 1) % 2 ^ 32 ∧
      t.reg (Reg.fecCorrected x) = (s.reg (Reg.fecCorrected x) + a) % 2 ^ 64 ∧
      t.reg (Reg.fecUncorr x) = (s.reg (Reg.fecUncorr x) + b) % 2 ^ 32 ∧
      t.reg (Reg.rxFlits x) = s.reg (Reg.rxFlits x)) ∧
    (flitOk f = true → (flitHdr f).type = 1 → (flitHdr f).vc < 12 →
      ((flitHdr f).seqNo = (s.port x).rxNext → ∃ t, exec (.flitReceive x f a b) s = .next t ∧
        (t.port x).rxNext = ((s.port x).rxNext + 1) % 65536 ∧ (t.port x).rxRetry = false ∧
        t.reg (Reg.rxFlits x) = (s.reg (Reg.rxFlits x) + 1) % 2 ^ 64 ∧
        ((flitHdr f).sop = true → ((flitHdr f).eop && (flitHdr f).trunc) = false →
          (⟨(flitHdr f).vc, flitPayload f, 1, (flitHdr f).eop, none, 0⟩ : Arriving) ∈ (t.port x).rx)) ∧
      ((flitHdr f).seqNo ≠ (s.port x).rxNext → ∃ t, exec (.flitReceive x f a b) s = .next t ∧
        (t.port x).rxNext = (s.port x).rxNext ∧ (t.port x).rxRetry = true ∧
        t.reg (Reg.rxFlits x) = s.reg (Reg.rxFlits x) ∧ t.reg (Reg.crcFails x) = s.reg (Reg.crcFails x))) ∧
    (flitOk f = true → (flitHdr f).type = 2 → (s.port x).rxRetry = false →
      ∃ t, exec (.flitReceive x f a b) s = .next t ∧ (t.port x).creditsIn = creditTotals f ∧
        (t.port x).rxNext = (s.port x).rxNext ∧ t.reg (Reg.rxFlits x) = s.reg (Reg.rxFlits x))

/-- R214, R218, R220, R221: retries are counted and the last one allowed fails the port; a lane fault starts a remap to the
spare lane, which ends in UP and is counted; a failed port reads FAILED and is counted; training ends in UP or DOWN, and an
enabled port that sees a peer starts to train. -/
def Obligations.PortStatesFollowTheirEvents : Prop :=
  ∀ (s : State) (x : Nat), x < 60 →
    (s.portLive x = true →
      (∀ q, ∃ t, exec (.retryRequest x q) s = .next t ∧
        t.reg (Reg.retries x) = (s.reg (Reg.retries x) + 1) % 2 ^ 32 ∧
        (mapGetD 0 (q % 65536) (s.port x).retries + 1 < field (s.reg (Reg.portCfg x)) 8 5 →
          t.reg (Reg.portState x) = s.reg (Reg.portState x) ∧
            (t.port x).retries = [(q % 65536, mapGetD 0 (q % 65536) (s.port x).retries + 1)]) ∧
        (field (s.reg (Reg.portCfg x)) 8 5 ≤ mapGetD 0 (q % 65536) (s.port x).retries + 1 →
          t.reg (Reg.portState x) = 4)) ∧
      (∀ i ∈ [Instr.portFail x, Instr.portSilenceTimeout x], ∃ t, exec i s = .next t ∧
        t.reg (Reg.portState x) = 4 ∧ t.reg (Reg.portFails x) = (s.reg (Reg.portFails x) + 1) % 2 ^ 32) ∧
      (∀ l, l < 9 → (s.reg (Reg.laneState x)).testBit l = true →
        ((s.reg (Reg.laneState x)).testBit 15 = false → s.reg (Reg.portState x) ≠ 3 →
          ∃ t, exec (.laneFault x l) s = .next t ∧ t.reg (Reg.portState x) = 3 ∧ (t.port x).remapLane = some l) ∧
        ((s.reg (Reg.laneState x)).testBit 15 = true ∨ s.reg (Reg.portState x) = 3 →
          ∃ t, exec (.laneFault x l) s = .next t ∧ t.reg (Reg.portState x) = 4))) ∧
    (∀ l, (s.port x).remapLane = some l → s.reg (Reg.portState x) = 3 →
      ∃ t, exec (.laneRemapDone x) s = .next t ∧ t.reg (Reg.portState x) = 2 ∧ (t.port x).remapLane = none ∧
        t.reg (Reg.laneRemaps x) = (s.reg (Reg.laneRemaps x) + 1) % 2 ^ 32) ∧
    (s.reg (Reg.portState x) = 1 → ∀ p pp,
      (∃ t, exec (.portTrainingDone x true p pp) s = .next t ∧ t.reg (Reg.portState x) = 2 ∧
        t.reg (Reg.peer x) = p % 16384 + pp % 64 * 65536 + 2 ^ 31 ∧ (t.port x).rxNext = 0 ∧ (t.port x).txNext = 0) ∧
      (∃ t, exec (.portTrainingDone x false p pp) s = .next t ∧ t.reg (Reg.portState x) = 0)) ∧
    (s.reg (Reg.portState x) = 0 → (s.reg (Reg.portCfg x)).testBit 0 = true → 7 ≤ s.reg Reg.bootStage →
      s.reg Reg.bootStage ≤ 9 → ∃ t, exec (.portPeerPresent x) s = .next t ∧ t = s.setReg (Reg.portState x) 1)

/-- R228, R230, R232, R234, R246: an injected packet that the buffers have room for takes SRC, JOB and CLASS from the
Junction; for this device it is delivered or discarded as foreign; for another device it joins the queue of a candidate
port, waits at a drain, or is discarded and its source told. A packet that arrives on a port is routed likewise. -/
def Obligations.RoutingDeliversHoldsOrDiscards : Prop :=
  ∀ (s : State) (p : Packet),
    (let q := s.asSource p
     let u := s.takeInjected q
     let to' := s.routeTo q.route (physDev q.route.dst)
     (s.hasRoom q = false → exec (.packetRoute none p) s = .next s) ∧
     (s.hasRoom q = true → q.route.mc = false →
      (to' = .here → s.delivers q = true → (∀ d a b c, q.body ≠ .mgmt (.exchange d a b c)) →
        ∃ t, exec (.packetRoute none p) s = .next t ∧
          t = { u with fabric := { u.fabric with landing := s.fabric.landing ++ [q] } }) ∧
      (to' = .here → s.delivers q = false → ∃ t, exec (.packetRoute none p) s = .next t ∧ t = u.count Reg.foreignDiscard 1) ∧
      (∀ x alt, to' = .port x alt → (∀ r, q.body ≠ .rm r) →
        ∃ t, exec (.packetRoute none p) s = .next t ∧ (t.port x).queue = (s.port x).queue ++ [(s.time.hallTime, q)] ∧
          (∀ y, y ≠ x → t.port y = s.port y) ∧
          t.reg Reg.altUsed = if alt then (s.reg Reg.altUsed + 1) % 2 ^ 32 else s.reg Reg.altUsed) ∧
      (to' = .hold → ∃ t, exec (.packetRoute none p) s = .next t ∧ t = u.inject q) ∧
      (to' = .nowhere →
        ∃ t x, exec (.packetRoute none p) s = .next t ∧ t.reg Reg.undeliverable = (s.reg Reg.undeliverable + 1) % 2 ^ 32 ∧
          t.fabric.inject = u.fabric.inject ++ [x] ∧ x.body = .mgmt (.undeliverable 1 (copyOf q)) ∧
          physDev x.route.dst = physDev q.route.src % 16384))) ∧
    (∀ x y alt, s.portLive x = true → p.route.mc = false → s.routeTo p.route (physDev p.route.dst) = .port y alt →
      (∀ r, p.body ≠ .rm r) → ∃ t, exec (.packetRoute (some x) p) s = .next t ∧
        (t.port y).queue = (s.port y).queue ++ [(s.time.hallTime, p)])

/-- R237, R239: a multicast goes out as one packet to the members with a rank record; of another class than 4 and 5 it is
refused and counted. R112, R234, R257, R474: the source of an undeliverable Manifest settles its choices as lost_fault, that
of an undeliverable request ends it with cause 8; a truncated beat-class packet goes to the Siding and leaves the
allocators. R241, R242, R265: a drain starts, is released, ends as DRAINED when its ports are empty, and as timed out when
it is not at its bound. A combine record whose response has not come within RM_TIMEOUT is freed. -/
def Obligations.MulticastsAndDrains : Prop :=
  (∀ (s : State),
    (∀ cls g mask cl b, cls ≠ 4 → cls ≠ 5 → ∃ t, exec (.multicastInject cls g mask cl b) s = .next t ∧
      t = s.count Reg.mcastRefused 1) ∧
    (∀ cls g mask cl b, cls = 4 ∨ cls = 5 → mask < 2 ^ (s.mcastRanks g).length → mask ≠ 0 →
      (∀ r ∈ s.mcastRanks g, (s.rankDev r).isSome = true) →
      ∃ t x, exec (.multicastInject cls g mask cl b) s = .next t ∧ t.fabric.inject = s.fabric.inject ++ [x] ∧ x.body = b ∧
        x.route.mc = true ∧ x.route.cls = cls ∧ t.reg Reg.mcastSent = (s.reg Reg.mcastSent + 1) % 2 ^ 32 ∧
        x.members = (maskMembers 64 mask).map (fun i => (s.rankDev ((s.mcastRanks g).getD i 0)).getD 0)) ∧
    (∀ c copy, physDev (RouteHdr.ofBytes copy).src = s.here →
      ((RouteHdr.ofBytes copy).cls ≤ 1 → (BeatHdr.ofBytes (copiedBody copy)).kind = 3 → headerCount (copiedBody copy) ≠ 0 →
        ∃ t, exec (.undeliverableNoticeArrival c copy) s = .next t ∧
          t.reg Reg.lostFault = (s.reg Reg.lostFault + headerCount (copiedBody copy)) % 2 ^ 64 ∧
          t.reg Reg.dispatched = (s.reg Reg.dispatched + headerCount (copiedBody copy)) % 2 ^ 64) ∧
      (∀ q r, (RouteHdr.ofBytes copy).cls = 2 → RmPacket.ofBytes (copiedBody copy) = q → 1 ≤ q.opc → q.opc ≤ 3 →
        q.combined = false → s.rmReqOf (tagCore q.tag) q.tag = some r → (s.core (tagCore q.tag)).rmWait = [] →
        ∃ t, exec (.undeliverableNoticeArrival c copy) s = .next t ∧
          (t.core (tagCore q.tag)).rmOut = (s.core (tagCore q.tag)).rmOut.filter (fun x => x.tag != r.tag) ∧
          t.rmem.faults.getLast? = some [8, r.opc, tagCore q.tag, r.rank, r.jva, s.beatNow % 2 ^ 32])) ∧
    (∀ p q, p.body = .beat q → ∃ t, exec (.truncatedPacketArrival p) s = .next t ∧
      t.reg Reg.sidingPackets = (s.reg Reg.sidingPackets + 1) % 2 ^ 32 ∧ t.combine = s.combine ∧
      (∀ k, k < 16 → ∀ r ∈ (t.pool k).waiting, r.pkt ≠ q))) ∧
  (∀ (s : State),
    (∀ r, s.mayWrite r Reg.drainCmd → s.reg Reg.drainState = 0 → ∃ t, exec (.drainStart r) s = .next t ∧
      t.reg Reg.drainState = 1 ∧ t.fabric.drainAt = s.time.hallTime) ∧
    (∀ r, s.mayWrite r Reg.drainCmd → s.reg Reg.drainState ≠ 0 → ∃ t, exec (.drainStart r) s = .next t ∧
      t.reg Reg.drainState = s.reg Reg.drainState ∧ t.reg (Reg.lastAbort (roleNum r + 1)) = abortCode 7 0x20) ∧
    (∀ r, s.mayWrite r Reg.drainCmd → s.fabric.held = [] → ∃ t, exec (.drainRelease r) s = .next t ∧
      t.reg Reg.drainState = 0) ∧
    (s.reg Reg.drainState = 1 → s.drainEmpty = true → s.fabric.drainOwn = false → ∃ t, exec .drainDone s = .next t ∧
      t.reg Reg.drainState = 2) ∧
    (let u := s.advanceTo (s.fabric.drainAt + s.reg Reg.drainTimeout)
     s.reg Reg.drainState = 1 → u.drainEmpty = false → ∃ t, exec .drainTimeout s = .next t ∧ t.reg Reg.drainState = 3 ∧
      t.reg Reg.drainTimeouts = (s.reg Reg.drainTimeouts + 1) % 2 ^ 32) ∧
    (∀ n c, s.fabric.combines.find? (fun c => c.num == n) = some c → ∃ t, exec (.combineRecordTimeout n) s = .next t ∧
      (∀ y, y ∈ t.fabric.combines ↔ y ∈ s.fabric.combines ∧ y.num ≠ n) ∧
      c.at' + s.reg Reg.rmTimeout ≤ t.time.hallTime))

/-- R212 to R249, R265: every command of the ports and the Junction completes, and its frame: counters, port states, the
Junction, reports and, where a bound passes, hall time change; no core, no tier, no stream, no combine and no table. -/
def Obligations.FabricFrame : Prop :=
  ∀ (s : State) (i : Instr),
    ((∃ x f a b, i = .flitReceive x f a b) ∨ (∃ x q, i = .retryRequest x q) ∨ (∃ x l, i = .laneFault x l) ∨
      (∃ x, i = .laneRemapDone x) ∨ (∃ x, i = .portSilenceTimeout x) ∨ (∃ x, i = .portFail x) ∨
      (∃ x u p pp, i = .portTrainingDone x u p pp) ∨ (∃ x, i = .portPeerPresent x) ∨ (∃ x p, i = .packetRoute x p) ∨
      (∃ c g m k b, i = .multicastInject c g m k b) ∨ (i = .drainTimeout) ∨ (∃ n, i = .combineRecordTimeout n) ∨
      (∃ r, i = .drainStart r) ∨ (∃ r, i = .drainRelease r)) →
    ∃ t, exec i s = .next t ∧
    t = { s with regs := t.regs, fabric := t.fabric, manager := { s.manager with faultLog := t.manager.faultLog },
                 time := { s.time with hallTime := t.time.hallTime } } ∧
    s.time.hallTime ≤ t.time.hallTime ∧
    t.reg Reg.partState = s.reg Reg.partState ∧ t.reg Reg.beatNumber = s.reg Reg.beatNumber ∧
    t.reg Reg.rankCount = s.reg Reg.rankCount

/-- R242: a drain not DRAINED within DRAIN_TIMEOUT becomes TIMED_OUT: the flits of the drain that its ports still hold are
discarded, each packet of them counted in UNDELIVERABLE and told to its source, every other flit stays, and the event is
counted in DRAIN_TIMEOUTS. The default bound is 2 ms. -/
def Obligations.DrainTimeoutDiscardsTheRest : Prop :=
  regDefault Reg.drainTimeout = 2000000 ∧
  ∀ (s : State), s.reg Reg.drainState = 1 →
    let u := s.advanceTo (s.fabric.drainAt + s.reg Reg.drainTimeout)
    let lost := (List.range 60).flatMap u.drainRest
    (u.drainEmpty = true → exec .drainTimeout s = .next u) ∧
    (u.drainEmpty = false → ∃ t, exec .drainTimeout s = .next t ∧ t.reg Reg.drainState = 3 ∧
      t.time.hallTime = max (s.fabric.drainAt + s.reg Reg.drainTimeout) s.time.hallTime ∧
      t.reg Reg.drainTimeouts = (s.reg Reg.drainTimeouts + 1) % 2 ^ 32 ∧
      (∀ x, x < 60 → (t.port x).queue = (u.port x).queue.filter (fun e => !u.drains x e.2) ∧
        (t.port x).retryBuf = (u.port x).retryBuf.filter (fun f => !u.drains x f.pkt)) ∧
      (lost ≠ [] → t.reg Reg.undeliverable = (s.reg Reg.undeliverable + lost.length) % 2 ^ 32) ∧
      t.fabric.inject.length = s.fabric.inject.length + lost.length)

/-! ### The streams (R20, R21, R105, R109, R313, R387 to R390) -/

/-- R387, R388: with nothing being read, a whole BATCH record with a free number and the batch size starts a batch; a CLOSE
of an open batch whose lanes are idle closes it with a CLOSED record; a record of a reserved kind is refused with cause 6
and counted. R379, R389: a read of STREAM_OUT of 1 to 4 records takes the oldest records off and returns their 16 B each;
beyond the last record it returns zeros. -/
def Obligations.StreamRecordsInAndOut : Prop :=
  (∀ (s : State) (r : Role) (rec : BitVec 128), s.mayStream r → s.atRest →
    (inFormOk (inRec rec) = true → s.takesInput = true → (inRec rec).kind = 1 → (inRec rec).batch ≠ 0 →
      s.batchNum (inRec rec).batch = none → field rec.toNat 32 9 = s.reg Reg.batchSize → s.reg Reg.batchSize ≠ 0 →
      ∃ t, exec (.batch r rec) s = .next t ∧
        t.streams.parse.batch = some ⟨(inRec rec).batch, 0, 0, [], []⟩ ∧
        t.streams.parse.lanesDue = s.reg Reg.batchSize ∧ t.streams.out = s.streams.out ∧
        t.reg Reg.streamInTaken = (s.reg Reg.streamInTaken + 1) % 2 ^ 32) ∧
    (∀ b, inFormOk (inRec rec) = true → s.takesInput = true → (inRec rec).kind = 4 →
      s.batchNum (inRec rec).batch = some b → b.cancels = [] → b.lanes.all (fun l => l.idle) = true →
      s.streams.out.length < 65536 →
      ∃ t, exec (.close r rec) s = .next t ∧ (∀ x ∈ t.streams.batches, x.num ≠ b.num) ∧
        t.streams.out = s.streams.out ++ [eventRec 8 0 0 b.num 0 b.gen] ∧
        t.reg Reg.streamInTaken = (s.reg Reg.streamInTaken + 1) % 2 ^ 32) ∧
    ((inRec rec).kind = 0 ∨ 4 < (inRec rec).kind → s.streams.out.length < 65536 →
      ∃ t o, exec (.reservedRecordKind r rec) s = .next t ∧ t.streams.out = s.streams.out ++ [o] ∧ o.kind = 6 ∧ o.cause = 6 ∧
        t.streams.batches = s.streams.batches ∧
        t.reg Reg.streamInRefused = (s.reg Reg.streamInRefused + 1) % 2 ^ 32 ∧
        t.reg Reg.streamInTaken = s.reg Reg.streamInTaken)) ∧
  (∀ (s : State) (r : Role) (n : Nat), s.mayStream r → 0 < n → n ≤ 4 →
    ∃ t, exec (.streamOutRead r n) s = .next t ∧ t.streams.out = s.streams.out.drop n ∧
      t.host.reply = toWords ((s.streams.out.take n).flatMap outBytes) ++
        List.replicate (2 * n - (toWords ((s.streams.out.take n).flatMap outBytes)).length) 0 ∧ t.regs = s.regs)

/-- R387, R388: while a batch is being read, the next LANE record adds its lane and a TOKENS record its tokens to the last
lane's prompt; the batch opens with an OPENED record when its last record has arrived. -/
def Obligations.LanesAndTokensFillABatch : Prop :=
  ∀ (s : State) (r : Role) (rec : BitVec 128) (b : Batch) (n : Nat), s.mayStream r → s.takesInput = true →
    s.streams.parse = ⟨some b, n, none, s.streams.parse.held, false, none⟩ → s.streams.used < 65536 →
    inFormOk (inRec rec) = true → (inRec rec).batch = b.num →
    ((inRec rec).kind = 2 → (inRec rec).lane = b.lanes.length → b.lanes.all (fun l => l.missing == 0) = true →
      (laneOf (inRec rec)).idle = true ∨ (laneOf (inRec rec)).missing ≠ 0 →
      (1 < n → ∃ t, exec (.lane r rec) s = .next t ∧
        t.streams.parse.batch = some { b with lanes := b.lanes ++ [laneOf (inRec rec)] } ∧
        t.streams.parse.lanesDue = n - 1 ∧ t.reg Reg.streamInTaken = (s.reg Reg.streamInTaken + 1) % 2 ^ 32) ∧
      (n = 1 → (laneOf (inRec rec)).idle = true → s.streams.out.length < 65536 → ∃ t, exec (.lane r rec) s = .next t ∧
        t.streams.batches = s.streams.batches ++ [{ b with lanes := b.lanes ++ [laneOf (inRec rec)] }] ∧
        t.streams.parse.batch = none ∧ t.streams.out = s.streams.out ++ [eventRec 7 0 0 b.num 0 b.gen])) ∧
    (∀ l, (inRec rec).kind = 3 → (inRec rec).lane + 1 = b.lanes.length → b.lanes.getLast? = some l →
      (tokensOf (inRec rec)).length < l.missing → (tokensOf (inRec rec)).all (fun x => decide (x < s.reg Reg.vocabSize)) = true →
      ∃ t, exec (.tokens r rec) s = .next t ∧
        t.streams.parse.batch = some { b with lanes := b.lanes.set (inRec rec).lane (laneTokens l (tokensOf (inRec rec))) } ∧
        t.streams.used = s.streams.used + 1 ∧ t.reg Reg.streamInTaken = (s.reg Reg.streamInTaken + 1) % 2 ^ 32)

/-- R20, R96, R109, R313, R389, R390: the sampled token that a lane awaits is put out as a TOKEN record; a lost token ends
its lane with a LOST record, counted; an end notice ends it with an END record; a batch's cancel raises its generation and,
when it takes effect, leaves every lane idle. -/
def Obligations.LanesEndWithARecord : Prop :=
  ∀ (s : State) (b : Batch) (l : Lane) (tag i : Nat), s.batchTag tag = some b → b.lanes[i]? = some l → l.idle = false →
    s.streams.out.length + 1 < 65536 →
    (∀ p, p.hdr.kind = 7 → p.hdr.batchTag = tag → p.hdr.lane = i → s.landed p → s.stale tag p.hdr.gen = false →
      p.hdr.gen = b.run → l.due = some p.hdr.position → l.got = none → l.skip = false → l.prompt = [] → 1 < l.left →
      p.token % 2 ^ 32 ≠ l.stopId → ∃ t b', exec (.sampledTokenArrival p) s = .next t ∧
        t.streams.out = s.streams.out ++ [⟨1, 0, i, b.num, p.tokFlags, (p.hdr.position + 1) % 2 ^ 24, p.token % 2 ^ 32, p.hdr.gen⟩] ∧
        t.batchNum b.num = some b' ∧ b'.lanes[i]? = some { l with left := l.left - 1, last := some (p.token % 2 ^ 32),
                                                                  got := some (p.token % 2 ^ 32) }) ∧
    (∀ p, l.due = some p → l.got = none → l.skip = false → l.prompt = [] → l.left ≠ 0 → b.cancels = [] →
      ∃ t b' l', exec (.tokenLost tag i) s = .next t ∧ t.streams.out = s.streams.out ++ [eventRec 3 0 i b.num (p + 1) b.run] ∧
        t.reg Reg.lostTokens = (s.reg Reg.lostTokens + 1) % 2 ^ 32 ∧ t.batchNum b.num = some b' ∧ b'.lanes[i]? = some l' ∧
        l'.idle = true) ∧
    (∀ pos cause, ∃ t b' l', exec (.endNoticeArrival tag i pos b.run cause) s = .next t ∧
      t.streams.out = s.streams.out ++ [eventRec 4 cause i b.num pos b.run] ∧ t.batchNum b.num = some b' ∧
      b'.lanes[i]? = some l' ∧ l'.idle = true) ∧
    (∀ r, s.mayWrite r Reg.batchCancel → s.combine.cancels.length < 64 → ∃ t b', exec (.batchCancel r tag) s = .next t ∧
      t.batchNum b.num = some b' ∧ b'.gen = (b.gen + 1) % 65536 ∧
      b'.cancels = b.cancels ++ [((b.gen + 1) % 65536, s.beatNow + s.reg Reg.cancelLead)]) ∧
    (s.noBeat = false → b.cancels.any (fun c => decide (c.2 ≤ s.beatNow + 1)) = true →
      ∃ t b', exec (.cancelTakesEffect tag) s = .next t ∧ t.batchNum b.num = some b' ∧
        b'.cancels = b.cancels.filter (fun c => !decide (c.2 ≤ s.beatNow + 1)) ∧ ∀ x ∈ b'.lanes, x.idle = true)

/-- R20, R21, R105, R109, R313, R387 to R390: every command of the streams completes, and its frame: the record commands
change counters, the streams and the model's own free-value counter, and a read of STREAM_OUT also what it returned; what
ends a lane changes the streams, counters and the cells that held its sampled token; a cancel of a batch its notices in the
Junction; a sampled token what its landing decides in the pools and the combine. -/
def Obligations.StreamFrame : Prop :=
  ∀ (s : State) (i : Instr),
    ((∃ r x, i = .batch r x ∨ i = .lane r x ∨ i = .tokens r x ∨ i = .close r x ∨ i = .reservedRecordKind r x) →
      ∃ t, exec i s = .next t ∧ t = { s with regs := t.regs, free := t.free, streams := t.streams } ∧
        ∀ k, k ∉ [Reg.streamInTaken, Reg.streamInRefused, Reg.streamOutWritten, Reg.streamOutDiscarded, Reg.badAccess,
          Reg.sessionRefused, Reg.lastAbort 3] → t.reg k = s.reg k) ∧
    ((∃ r n, i = .streamOutRead r n) → ∃ t, exec i s = .next t ∧
      t = { s with regs := t.regs, streams := t.streams, host := { s.host with reply := t.host.reply } } ∧
      ∀ k, k ∉ [Reg.badAccess, Reg.sessionRefused, Reg.lastAbort 3] → t.reg k = s.reg k) ∧
    ((∃ a b, i = .tokenLost a b) ∨ (∃ a, i = .cancelTakesEffect a) → ∃ t, exec i s = .next t ∧
      t = { s with regs := t.regs, streams := t.streams, pools := { s.pools with pools := t.pools.pools, chains := t.pools.chains } }) ∧
    ((∃ a b c d e, i = .endNoticeArrival a b c d e) → ∃ t, exec i s = .next t ∧
      t = { s with regs := t.regs, streams := t.streams, fabric := { s.fabric with landing := t.fabric.landing },
                   pools := { s.pools with pools := t.pools.pools, chains := t.pools.chains } }) ∧
    ((∃ r a, i = .batchCancel r a) → ∃ t, exec i s = .next t ∧
      t = { s with regs := t.regs, fabric := { s.fabric with inject := t.fabric.inject },
                   streams := { s.streams with batches := t.streams.batches } }) ∧
    ((∃ q, i = .sampledTokenArrival q) → ∃ t, exec i s = .next t ∧
      t = { s with regs := t.regs, fabric := { s.fabric with inject := t.fabric.inject, landing := t.fabric.landing },
                   pools := t.pools, combine := t.combine, streams := t.streams })

/-! ### Collectives (R271 to R284) -/

/-- R277, R283: a start that passes its local checks takes a slot and is counted, and one of no bytes ends DONE at once; one
that fails a check starts nothing and answers the check's code, or, from a mover slot, whose descriptor stands in the core's
scratchpad, is logged as a failed remote request. -/
def Obligations.CollectivesStartOrAreRefused : Prop :=
  (∀ (s : State) (r : Role) (b : List Byte), b.length = 64 → s.mayWrite r Reg.collStart →
    (s.collCheck b = (0, 0) →
      ∃ t i, exec (.collStart (.host r b)) s = .next t ∧ i < 8 ∧ s.newCollSlot = some i ∧
        t.reg Reg.collStarted = (s.reg Reg.collStarted + 1) % 2 ^ 32 ∧
        ((collDescr b).len = 0 → (t.coll i).state = 2 ∧ (t.coll i).group = (collDescr b).group ∧
          (t.coll i).seqNo = (collDescr b).seqNo ∧ t.reg Reg.collDone = (s.reg Reg.collDone + 1) % 2 ^ 32)) ∧
    ((s.collCheck b).1 ≠ 0 → (s.collCheck b).2 ≠ 0 →
      ∃ t, exec (.collStart (.host r b)) s = .next t ∧ t.colls = s.colls ∧ t.fabric = s.fabric ∧
        t.reg (Reg.lastAbort (roleNum r + 1)) = (s.collCheck b).2)) ∧
  (∀ (s : State) (c : Nat) (place : Addr), s.coreOn c = true →
    let b := (s.core c).spRead ((s.core c).addr .mv place) 64
    (s.collCheck b = (0, 0) →
      ∃ t i, exec (.collStart (.slot c place)) s = .next t ∧ i < 8 ∧ s.newCollSlot = some i ∧
        t.reg Reg.collStarted = (s.reg Reg.collStarted + 1) % 2 ^ 32) ∧
    ((s.collCheck b).1 ≠ 0 → ∃ t, exec (.collStart (.slot c place)) s = .next t ∧ t.colls = s.colls ∧
      t.reg Reg.rmErrors = (s.reg Reg.rmErrors + 1) % 2 ^ 32 ∧
      ∃ opc rank jva, t.rmem.faults.getLast? = some [(s.collCheck b).1, opc, c, rank, jva, s.beatNow % 2 ^ 32]))

/-- R278, R279, R281: a READY that comes before the member's own start waits, and one of a collective in flight with the
same descriptor opens the way to its sender; a chunk that passes its check is written at its place, or held where the
collective is in place, counted and acknowledged; a chunk whose CRC fails is counted and asked for again once, and the
second time fails the collective with cause 11; a repeated chunk is only acknowledged; an ACK takes the receiver off the
chunk, a RESEND sends it again and is counted. R278, R279: an ABORT of another member and a timeout fail the collective
here: its slot reads FAILED with the cause, and the failure is counted; the timeout comes COLL_TIMEOUT after the local
start. -/
def Obligations.CollectiveChunksAndFailures : Prop :=
  (∀ (s : State) (p : CollPacket),
    (s.collSlotOf p.group p.seqNo = none → ∃ t, exec (.ready p) s = .next t ∧ t.rmem.early = s.rmem.early ++ [p] ∧
      t.colls = s.colls ∧ t.regs = s.regs) ∧
    (∀ i d, s.collSlotOf p.group p.seqNo = some i → s.rankDev ((s.coll i).members.getD p.srcOrd 0) = some d →
      let key := (p.phase, p.srcOrd, p.chunk)
      let c := s.coll i
      (crc32c p.data = p.crc → p.data.length ≤ 65536 → key ∉ c.recvd → p.phase = 12 ∨ p.phase = 13 →
        (collDescr c.descr).op ≠ 5 → ((collDescr c.descr).op = 3 → c.inPlace = false) → c.toSend = [] → s.rmem.directory = [] →
        c.recvd.length + 1 ≠ collExpected (collDescr c.descr) c.myOrd c.members.length →
        ∃ t x q, exec (.data p) s = .next t ∧ (t.coll i).recvd = c.recvd ++ [key] ∧ (t.coll i).done = c.done + 1 ∧
          t.tiers = (s.vaWrite ((collDescr c.descr).dst + p.chunk * 65536) 0 p.data).tiers ∧
          t.fabric.inject = s.fabric.inject ++ [x] ∧ x.body = .coll q ∧ q.kind = 3 ∧ q.chunk = p.chunk) ∧
      (crc32c p.data = p.crc → p.data.length ≤ 65536 → key ∉ c.recvd → p.phase = 13 → (collDescr c.descr).op = 3 →
        c.inPlace = true → c.toSend = [] → c.recvd.length + 1 ≠ collExpected (collDescr c.descr) c.myOrd c.members.length →
        ∃ t, exec (.data p) s = .next t ∧ (t.coll i).recvd = c.recvd ++ [key] ∧ t.tiers = s.tiers ∧
          (t.coll i).results = c.results ++ [(p.chunk * 65536, p.data)]) ∧
      (crc32c p.data ≠ p.crc → key ∈ c.resent → c.slotCore = none → ∃ t, exec (.data p) s = .next t ∧
        t.reg Reg.collCrcFails = (s.reg Reg.collCrcFails + 1) % 2 ^ 32 ∧ (t.coll i).state = 3 ∧ (t.coll i).cause = 11) ∧
      (p.data.take 16 = c.descr.take 16 → p.srcOrd ∉ c.readyFrom → c.toSend = [] →
        c.recvd.length ≠ collExpected (collDescr c.descr) c.myOrd c.members.length →
        ∃ t, exec (.ready p) s = .next t ∧ t.coll i = { c with readyFrom := c.readyFrom ++ [p.srcOrd] } ∧
          t.fabric.inject = s.fabric.inject) ∧
      (crc32c p.data ≠ p.crc → key ∉ (s.coll i).resent → ∃ t x q, exec (.data p) s = .next t ∧
        t.reg Reg.collCrcFails = (s.reg Reg.collCrcFails + 1) % 2 ^ 32 ∧ (t.coll i).state = 1 ∧
        (t.coll i).resent = (s.coll i).resent ++ [key] ∧ (t.coll i).recvd = (s.coll i).recvd ∧
        t.fabric.inject = s.fabric.inject ++ [x] ∧ x.body = .coll q ∧ q.kind = 4 ∧ q.chunk = p.chunk) ∧
      (crc32c p.data = p.crc → p.data.length ≤ 65536 → key ∈ (s.coll i).recvd → ∃ t x q, exec (.data p) s = .next t ∧
        t.colls = s.colls ∧ t.tiers = s.tiers ∧ t.fabric.inject = s.fabric.inject ++ [x] ∧ x.body = .coll q ∧ q.kind = 3 ∧
        q.chunk = p.chunk) ∧
      (∀ y, (s.coll i).sent.find? (fun x => x.phase == p.phase && x.chunk == p.chunk && x.waiting.contains p.srcOrd) = some y →
        ∃ t x q, exec (.resend p) s = .next t ∧ t.reg Reg.collResends = (s.reg Reg.collResends + 1) % 2 ^ 32 ∧
          t.fabric.inject = s.fabric.inject ++ [x] ∧ x.body = .coll q ∧ q.kind = 1 ∧ q.data = y.data ∧ q.crc = crc32c y.data)) ∧
    (∀ i, s.collSlotOf p.group p.seqNo = some i → (s.coll i).toSend = [] →
      (∀ x ∈ (s.coll i).sent, x.phase = p.phase ∧ x.chunk = p.chunk ∧ x.waiting = [p.srcOrd]) →
      (s.coll i).recvd.length ≠ collExpected (collDescr (s.coll i).descr) (s.coll i).myOrd (s.coll i).members.length →
      ∃ t, exec (.collAck p) s = .next t ∧ (t.coll i).sent = [] ∧ (t.coll i).state = 1)) ∧
  (∀ (s : State) (p : CollPacket) (i : Nat), s.collSlotOf p.group p.seqNo = some i → (s.coll i).slotCore = none →
    (∃ t, exec (.abort p) s = .next t ∧ (t.coll i).state = 3 ∧ (t.coll i).cause = 13 ∧
      (t.coll i).seqNo = p.seqNo ∧ t.reg Reg.collFailed = (s.reg Reg.collFailed + 1) % 2 ^ 32) ∧
    (∃ t, exec (.collTimeout p.group p.seqNo) s = .next t ∧ (t.coll i).state = 3 ∧ (t.coll i).cause = 7 ∧
      (t.coll i).seqNo = p.seqNo ∧ t.reg Reg.collFailed = (s.reg Reg.collFailed + 1) % 2 ^ 32 ∧
      t.time.hallTime = max ((s.coll i).startAt + s.reg Reg.collTimeout) s.time.hallTime))

/-! ### Homes, images and errors of the memories (R57, R119, R256, R291, R299, R301, R302, R307 to R311, R314, R431 to R436) -/

/-- R307, R309: with the queue empty, ALLOC gives COUNT extents of the running tenant that nobody held, and FREE takes a
home off and overwrites it with zeros; each ends DONE in HOME_STATUS under the command's sequence number. -/
def Obligations.AllocGivesAndFreeTakesHomes : Prop :=
  ∀ (s : State) (r : Role) (tier port : Nat), s.mayHome r → s.homesQuiet → 1 ≤ tier → tier ≤ 3 → port < 2 →
    (∀ spread cluster count, cluster < 16 → count ≤ 4096 → count ≤ s.tierFree tier port →
      ∃ t, exec (.alloc r tier spread port cluster count) s = .next t ∧
        t.tiers.homes.length = s.tiers.homes.length + count ∧ (∀ h ∈ s.tiers.homes, h ∈ t.tiers.homes) ∧
        (∀ h ∈ t.tiers.homes, h ∈ s.tiers.homes ∨ h.tenant = s.tenantNow ∧ homeTier h.addr = tier ∧ h.spread = spread ∧
          h.cluster = cluster ∧ h.moving = none ∧ ((tier = 3 → s.farExtents port ≤ 2 ^ 21) → s.homeAt h.addr = none)) ∧
        (mapGetD [] s.tenantNow t.tiers.result).length =
          (if count = 0 then (mapGetD [] s.tenantNow s.tiers.result).length else count) ∧
        mapGet (s.tenantNow * 16 + s.nextHomeSeq % 16) t.tiers.status = some ⟨s.nextHomeSeq, 2, 0, count⟩ ∧
        t.tiers.hbm = s.tiers.hbm ∧ t.tiers.slow = s.tiers.slow ∧ t.tiers.far = s.tiers.far) ∧
    (∀ spread cluster count, cluster < 16 → count ≤ 4096 → s.tierFree tier port < count →
      ∃ t, exec (.alloc r tier spread port cluster count) s = .next t ∧ t.tiers.homes = s.tiers.homes ∧
        mapGet (s.tenantNow * 16 + s.nextHomeSeq % 16) t.tiers.status = some ⟨s.nextHomeSeq, 3, 16, 0⟩) ∧
    (∀ home h, home < 2 ^ 32 → s.homeAt home = some h → h.tenant = s.tenantNow → s.namedByXlate home = false →
      (∀ u ∈ s.tiers.kv, home ∈ u.frames → u.parked = true) →
      ∃ t, exec (.free r home tier) s = .next t ∧
        t.tiers.homes = s.tiers.homes.filter (fun x => x.addr != home) ∧
        (∀ o, o < extentBytes → memGet (t.tiers.store (homeTier home)) (homeBase home + o) = 0) ∧
        mapGet (s.tenantNow * 16 + s.nextHomeSeq % 16) t.tiers.status = some ⟨s.nextHomeSeq, 2, 0, 1⟩) ∧
    (∀ home, home < 2 ^ 32 → s.homeAt home = none → ∃ t, exec (.free r home tier) s = .next t ∧ t.tiers = s.tiers ∧
      t.reg (Reg.lastAbort (roleNum r + 1)) = abortCode 2 0)

/-- R307, R308, R314: MOVE of a held home, PARK of a user and UNPARK of a parked one put the extent they act on under move
to a free extent of the destination tier. R308, R309, R311: at the end of a move without a cause, the home stands at its
destination with its contents, counted and logged; with a cause it stays where it was, counted as failed. -/
def Obligations.HomeMovesStartAndEnd : Prop :=
  (∀ (s : State) (r : Role) (tier port a e : Nat) (h : Home), s.mayHome r → s.homesQuiet → 1 ≤ tier → tier ≤ 3 → port < 2 →
    s.homeAt a = some h → h.tenant = s.tenantNow → s.pickExtent tier port = some e →
    let moved : Home := { h with moving := some (homeAddr tier port e), moveSeq := s.nextHomeSeq }
    (∀ spread cluster, cluster < 16 → a < 2 ^ 32 → s.namedByXlate a = false →
      (∀ u ∈ s.tiers.kv, a ∈ u.frames → u.parked = true) →
      ∃ t, exec (.move r a tier spread port cluster) s = .next t ∧ t.homeAt a = some moved ∧
        mapGet (s.tenantNow * 16 + s.nextHomeSeq % 16) t.tiers.status = some ⟨s.nextHomeSeq, 1, 0, 0⟩) ∧
    (∀ tag lane u, tag < 2 ^ 32 → lane < 256 → s.kvUser s.tenantNow tag lane = some u → u.frames = [a] → a ≠ 0 →
      (u.parked = false → ∃ t, exec (.park r tag lane tier port) s = .next t ∧ t.homeAt a = some moved ∧
        t.kvUser s.tenantNow tag lane = some { u with parked := true, order := [0] }) ∧
      (u.parked = true → u.order = [0] → tier = 1 → port = 0 → homeTier a ≠ 1 → ∃ t, exec (.unpark r tag lane) s = .next t ∧
        t.homeAt a = some moved ∧ t.kvUser s.tenantNow tag lane = some u))) ∧
  (∀ (s : State) (h : Home) (c : HomeCmd) (d cause : Nat), s.homeAt h.addr = some h → h.moving = some d → s.tiers.cmds = [] →
    s.tiers.running = [c] → c.tenant = h.tenant → c.seqNo = h.moveSeq → c.left = [] → c.opc = 3 →
    (∀ x ∈ s.tiers.homes, x.addr ≠ h.addr → x.moving = none) →
    (cause = 0 → s.homeAt d = none → d ≠ h.addr → s.homeBad h.addr 0 extentBytes = false → homeTier h.addr = 1 → homeTier d = 2 →
      ∃ t, exec (.moveDone h.addr cause) s = .next t ∧
        t.homeAt d = some { h with addr := d, moving := none, spread := c.spread, cluster := c.cluster } ∧
        t.homeAt h.addr = none ∧ t.reg Reg.movesDone = (s.reg Reg.movesDone + 1) % 2 ^ 32 ∧
        t.tiers.log.getLast? = some [h.addr, d, h.moveSeq, s.beatNow % 2 ^ 64] ∧
        (s.storesOk → (∀ o, o < extentBytes → memGet s.tiers.slow (homeBase d + o) = 0) → ∀ o, o < extentBytes →
          memGet t.tiers.slow (homeBase d + o) = memGet s.tiers.hbm (homeBase h.addr + o) ∧
          memGet t.tiers.hbm (homeBase h.addr + o) = 0)) ∧
    (cause ≠ 0 → ∃ t, exec (.moveDone h.addr cause) s = .next t ∧ t.homeAt h.addr = some { h with moving := none } ∧
      t.reg Reg.movesFailed = (s.reg Reg.movesFailed + 1) % 2 ^ 32))

/-- R119, R301, R315: an image is stored with its digest, listed, deleted when no slot loads it, and loaded into a disabled
slot; a load ends READY when the read held and the body has its digest, and FAILED, counted, when it does not. -/
def Obligations.ImagesAreStoredAndLoaded : Prop :=
  ∀ (s : State),
    (∀ r bs, s.mayWrite r Reg.imageStore → (r = .mgr → s.slotNow ≠ 0xFF) → 64 < bs.length → bs.length ≤ 1073741824 →
      natAt bs 0 4 = 0x494D4731 → natAt bs 6 2 = 0 → natAt bs 12 4 = 0 → allZero (bytesAt bs 48 16) = true →
      natAt bs 8 4 = (bs.drop 64).length → bytesAt bs 16 32 = sha3 (bs.drop 64) →
      s.imageOf s.tenantNow (natAt bs 4 2) = none → (bs.length - 64 + 2097151) / 2097152 ≤ s.tierFree 2 0 →
      ∃ t ext, exec (.imageStore r bs) s = .next t ∧
        t = { s with free := t.free, tiers := { s.tiers with erases := t.tiers.erases, written := t.tiers.written, images := t.tiers.images } } ∧
        t.tiers.images = s.tiers.images ++ [⟨s.tenantNow, natAt bs 4 2, bytesAt bs 16 32, bs.drop 64, ext⟩] ∧
        ext.length = (bs.length - 64 + 2097151) / 2097152 ∧ ∀ a ∈ ext, homeTier a = 2) ∧
    (∀ r id, id < 65536 → s.mayWrite r Reg.imageDelete → (r = .mgr → s.slotNow ≠ 0xFF) →
      (s.imageOf s.tenantNow id).isSome = true → (∀ e ∈ s.platforms.images, e.2.state = 1 → e.2.imageId ≠ id) →
      let kept := s.tiers.images.filter (fun i => !(i.tenant == s.tenantNow && i.id == id))
      ∃ t, exec (.imageDelete r id) s = .next t ∧ t = { s with tiers := t.tiers } ∧ t.tiers.images = kept ∧
        t.tiers.homes = s.tiers.homes ∧ t.tiers.kv = s.tiers.kv ∧ t.tiers.cmds = s.tiers.cmds) ∧
    (∀ r p, p < 256 → s.mayWrite r Reg.imageLoad → (s.plat p).en = false → (s.imageSlot p).state ≠ 1 →
      (s.imageOf s.tenantNow (platResOf (s.dom Reg.platformRes) p).imageId).isSome = true →
      ∃ t, exec (.imageLoad r p) s = .next t ∧ t.imageSlot p =
        ⟨1, (platResOf (s.dom Reg.platformRes) p).imageId, (platResOf (s.dom Reg.platformRes) p).cls,
          (platResOf (s.dom Reg.platformRes) p).place⟩) ∧
    (∀ p i sl, s.imageSlot p = sl → sl.state = 1 → s.imageOf s.tenantNow sl.imageId = some i → sha3 i.body = i.digest →
      (∀ a ∈ i.extents, s.homeBad a 0 extentBytes = false) →
      (∃ t, exec (.imageLoadDone p true) s = .next t ∧ t.imageSlot p = { sl with state := 2 } ∧
        (sl.cls = 0 → sl.place + i.body.length ≤ scratchBytes →
          (t.core (s.plat p).core).scratch = memWrite (s.core (s.plat p).core).scratch sl.place i.body)) ∧
      (∃ t, exec (.imageLoadDone p false) s = .next t ∧ t.imageSlot p = { sl with state := 3 } ∧
        t.reg Reg.loadFails = (s.reg Reg.loadFails + 1) % 2 ^ 32 ∧ (homeTier (i.extents.headD 0) = 2 → t.reg Reg.flashUe = (s.reg Reg.flashUe + 1) % 2 ^ 32)))

/-- R286, R294, R432, R433, R435: a corrected read of an SRAM store or of the HBM is only counted; an uncorrectable word is
counted once, by its first finder, and reported: a scratchpad word as TENANT_ERROR cause 1 of its core; an HBM line is
poisoned, and one of the device's own frames is device-fatal cause 5. R57, R58, R256, R299, R302, R303: a flash relocation
is counted and starts its block's reads again; a relocation is forced when it has been deferred for 10,000 beats and the
channel has a block due; wear levelling erases the least worn block of the stack in place of one 500 cycles ahead of it; a
retired block has its spare; a far port goes DOWN and comes back UP or DEGRADED; a channel's refresh is noted; a recall of a
page with no record starts and waits for nothing. -/
def Obligations.MemoryErrorsAndUpkeep : Prop :=
  (∀ (s : State),
    (∀ st, exec (.sramUeDetect st true) s = .next (s.count Reg.sramCe 1)) ∧
    (∀ line patrol reader, line < 6442450944 →
      exec (.hbmUeDetect line patrol true reader) s = .next (s.count64 Reg.hbmCe 1)) ∧
    (∀ c w, s.coreOn c = true → w ∉ (s.core c).scratchBad → ∃ t, exec (.sramUeDetect (.scratchpad c w) false) s = .next t ∧
      (t.core c).scratchBad = (s.core c).scratchBad ++ [w] ∧ t.reg Reg.sramUe = (s.reg Reg.sramUe + 1) % 2 ^ 32 ∧
      t.reg Reg.faultReports = (s.reg Reg.faultReports + 1) % 2 ^ 32 ∧
      t.manager.faultLog.getLast? = some [4, c, 1, s.time.hallTime]) ∧
    (∀ c w, s.coreOn c = true → w ∈ (s.core c).scratchBad → exec (.sramUeDetect (.scratchpad c w) false) s = .next s) ∧
    (∀ line patrol, line < 6442450944 → line ∉ s.tiers.hbmBad → ∃ t, exec (.hbmUeDetect line patrol false none) s = .next t ∧
      t.tiers.hbmBad = s.tiers.hbmBad ++ [line] ∧ t.reg Reg.hbmUe = (s.reg Reg.hbmUe + 1) % 2 ^ 32 ∧
      t.reg Reg.hbmPoisoned = (if patrol then (s.reg Reg.hbmPoisoned + 1) % 2 ^ 32 else s.reg Reg.hbmPoisoned) ∧
      (line < 16777216 → 5 ∈ t.manager.causes ∧ t.beat.holdNext = true) ∧
      (16777216 ≤ line → t.manager = s.manager))) ∧
  (∀ (s : State),
    (∀ k b, k < 4 → b < 131072 → s.reg Reg.readRelocate ≤ mapGetD 0 (k * 131072 + b) s.tiers.reads →
      let e := if s.tiers.worn (s.tiers.leastWorn k) + 500 ≤ s.tiers.worn (k * 131072 + b) then s.tiers.leastWorn k
        else k * 131072 + b
      ∃ t, exec (.readDisturbRelocate k b) s = .next t ∧ mapGet (k * 131072 + b) t.tiers.reads = some 0 ∧
        t.tiers.worn e = s.tiers.worn e + 1 ∧ (∀ x, x ≠ e → t.tiers.worn x = s.tiers.worn x) ∧
        t.reg Reg.flashReloc = (s.reg Reg.flashReloc + 1) % 2 ^ 32) ∧
    (∀ k ch b, k < 4 → ch < 16 → 10000 ≤ mapGetD 0 k s.tiers.deferred →
      (s.blocksDue k).find? (fun x => x / 8192 == ch) = some b →
      ∃ t, exec (.forcedRelocation k ch) s = .next t ∧ mapGet k t.tiers.forced = some ch ∧
      mapGet (k * 131072 + b) t.tiers.reads = some 0 ∧ mapGet k t.tiers.deferred = some 0 ∧ t.reg Reg.flashForced = (s.reg Reg.flashForced + 1) % 2 ^ 32 ∧
      t.reg Reg.flashReloc = (s.reg Reg.flashReloc + 1) % 2 ^ 32) ∧
    (∀ k b x, k < 4 → b < 131072 → ∃ t, exec (.blockRetire k b x) s = .next t ∧
      t = { s with tiers := { s.tiers with retired := mapSet (k * 131072 + b) x s.tiers.retired } }) ∧
    (∀ p, 2 ≤ s.cxl p → s.homesQuiet → (∀ e ∈ s.cores, ∀ q ∈ e.2.rmOut, q.far ≠ some p) →
      ∃ t, exec (.cxlPortDown p) s = .next t ∧ t.cxl p = 1 ∧ t.tiers.homes = s.tiers.homes ∧ t.cores = s.cores) ∧
    (∀ p b, s.cxl p = 1 → ∃ t, exec (.cxlPortRetrain p b) s = .next t ∧ t.cxl p = if b then 2 else 3) ∧
    (∀ ch b, ch < 256 → ∃ t, exec (.dramRefresh ch b) s = .next t ∧
      mapGetD 0 ch t.tiers.refreshDue = mapGetD 0 ch s.tiers.refreshDue + 1) ∧
    (∀ r jpn, s.mayWrite r Reg.rmRecall → jpn < 2 ^ 27 → s.reg Reg.recallState ≠ 1 → s.xlateOf jpn = none →
      ∃ t, exec (.rmRecall r jpn) s = .next t ∧ t.reg Reg.recallState = 1 ∧ t.rmem.recallJpn = jpn ∧ t.rmem.recallInv = []) ∧
    (∀ r jpn, s.mayWrite r Reg.rmRecall → jpn < 2 ^ 27 → s.reg Reg.recallState = 1 →
      ∃ t, exec (.rmRecall r jpn) s = .next t ∧ t.rmem = s.rmem ∧
        t.reg (Reg.lastAbort (roleNum r + 1)) = abortCode 7 0x31))

/-- R309: a freed extent is overwritten with zeros before any ALLOC can give it out again: FREE leaves every byte of it zero
and no line or page of it bad, and so does the end of a move at the source it frees. -/
def Obligations.FreedExtentsAreZero : Prop :=
  (∀ (s : State) (r : Role) (tier home : Nat) (h : Home), s.mayHome r → s.homesQuiet → 1 ≤ tier → tier ≤ 3 → home < 2 ^ 32 →
    s.homeAt home = some h → h.tenant = s.tenantNow → s.namedByXlate home = false →
    (∀ u ∈ s.tiers.kv, home ∈ u.frames → u.parked = true) →
    ∃ t, exec (.free r home tier) s = .next t ∧ t.homeBad home 0 extentBytes = false ∧
      ∀ o, o < extentBytes → memGet (t.tiers.store (homeTier home)) (homeBase home + o) = 0) ∧
  (∀ (s : State) (a : Nat), (s.freeHome a).homeBad a 0 extentBytes = false ∧
    ∀ o, o < extentBytes → memGet ((s.freeHome a).tiers.store (homeTier a)) (homeBase a + o) = 0) ∧
  (∀ (s : State) (h : Home) (d : Nat), homeTier h.addr ≠ homeTier d → homeTier h.addr ≠ 0 → homeTier d ≠ 0 →
    (s.finishMove h d 0).homeBad h.addr 0 extentBytes = false ∧
      ∀ o, o < extentBytes → memGet ((s.finishMove h d 0).tiers.store (homeTier h.addr)) (homeBase h.addr + o) = 0)

/-! ### Tenant slots, sessions, the swap and the loader (R199, R200, R207, R208, R332 to R347, R378) -/

/-- R332, R333, R343, R347, R378: a FREE slot takes an identity with 280 frames of its own for its save area; a registered
slot that does not run is deregistered with all that its tenant held; the tenant block is bound to a slot or to none; a
minute that has ended is closed; the key of the live inputs is kept and REPRO_STALE reads 0. -/
def Obligations.TenantSlotsAreKept : Prop :=
  ∀ (s : State),
    (∀ r i id share, s.mayWrite r Reg.tenantReg → i ≤ 15 → id ≠ 0 → 1 ≤ share → share ≤ 65535 → (s.tslot i).state = 0 →
      (∀ e ∈ s.slots, e.1 ≠ i → e.2.state ≠ 0 → e.2.tenant ≠ id) → 280 ≤ s.tierFree 1 0 →
      ∃ t fs, exec (.tenantRegister r i id share) s = .next t ∧
        t.tslot i = { TenantSlot.empty with tenant := id, share := share, state := 1, key := s.slotKeys i id } ∧
        mapGet i t.tiers.saveFrames = some fs ∧ fs.length = 280 ∧ fs.Nodup ∧ ∀ f ∈ fs, 512 ≤ f ∧ f ∉ s.usedExts 1 0) ∧
    (∀ r i, s.mayWrite r Reg.tenantReg → i ≤ 15 → (s.tslot i).state ≠ 0 → (s.tslot i).state ≠ 2 → s.swap.phase = 0 →
      ∃ t, exec (.tenantDeregister r i) s = .next t ∧ t.tslot i = TenantSlot.empty ∧
        (∀ h ∈ t.tiers.homes, h.tenant ≠ (s.tslot i).tenant) ∧ (∀ x ∈ t.tiers.images, x.tenant ≠ (s.tslot i).tenant) ∧
        (∀ u ∈ t.tiers.kv, u.tenant ≠ (s.tslot i).tenant)) ∧
    (∀ r i, s.mayWrite r Reg.tenantReg → i ≤ 15 → (s.tslot i).state = 2 → ∃ t, exec (.tenantDeregister r i) s = .next t ∧
      t.slots = s.slots ∧ t.reg (Reg.lastAbort (roleNum r + 1)) = abortCode 7 0x82) ∧
    (∀ r i, s.mayWrite r Reg.sessionBind → i ≤ 15 ∧ (s.tslot i).state ≠ 0 ∨ i = 0xFF →
      ∃ t, exec (.sessionBind r i) s = .next t ∧ t.reg Reg.sessionBind = i) ∧
    (∀ i, s.slotNow = i → i ≠ 0xFF → (s.tslot i).minute.getD 0 0 < minuteOf s.time.hallTime →
      ∃ t, exec .interferenceMinuteClose s = .next t ∧ (t.tslot i).records.getLast? = some (s.tslot i).minute ∧
        (t.tslot i).records.length ≤ 16 ∧ (t.tslot i).minute = [minuteOf s.time.hallTime, 0, 0, 0, 0, 0]) ∧
    (∃ t, exec .reproKeyRecompute s = .next t ∧ t.dom Reg.reproKey = Blob.ofBytes (sha3 s.keyRecord) ∧
      t.reg Reg.reproStale = 0 ∧ t.cores = s.cores ∧ t.tiers = s.tiers)

/-- R338 to R341: a swap is armed for a legal epoch and disarmed before it; it drains at E, saves from E + 2, leaves the
slot SUSPENDED with its state kept under its identity and save number, scrubs the die, restores the incoming tenant where
the check passes (else its slot is SWAP_FAILED), and resumes at S, or is LATE with device-fatal cause 3. -/
def Obligations.SwapRunsItsPhases : Prop :=
  ∀ (s : State),
    (∀ r e i, s.mayWrite r Reg.swapCmd → s.reg Reg.swapEpoch = e → s.reg Reg.swapIncoming = i → s.noBeat = false →
      s.namedOk e = true → s.swap.phase = 0 → i = 0xFF ∨ i ≤ 15 ∧ ((s.tslot i).state = 1 ∨ (s.tslot i).state = 3) →
      mapGet (roleNum .mgr) s.commits = none → s.package.diagCmd ≠ 4 → s.reg Reg.bootStage ≠ 0xE2 → s.reg Reg.bootStage ≠ 0xE3 →
      ∃ t, exec (.swapArm r) s = .next t ∧ t.swap.phase = 1 ∧ t.swap.epoch = e ∧ t.swap.incoming = i ∧
        t.reg Reg.swapState = 1 ∧
        t.reg Reg.swapResumeBeat = e + (s.reg Reg.swapWindow + s.reg Reg.beatPeriod - 1) / s.reg Reg.beatPeriod) ∧
    (∀ r, s.mayWrite r Reg.swapCmd → s.swap.phase = 1 → s.swap.teardown = false → ∃ t, exec (.swapDisarm r) s = .next t ∧
      t.swap.phase = 0 ∧ t.reg Reg.swapState = if s.reg Reg.swapState = 7 then 7 else 0) ∧
    (s.noBeat = false → s.swap.phase = 1 → s.swap.epoch ≤ s.nextBeat → ∃ t, exec .swapEpoch s = .next t ∧
      t.swap.phase = if s.slotNow = 0xFF then 4 else 2) ∧
    (s.swap.phase = 2 → s.swap.epoch + 2 ≤ s.beatNow → ∃ t, exec .swapSaveStart s = .next t ∧ t.swap.phase = 3 ∧
      t.combine.pending = [] ∧ t.combine.manifests = []) ∧
    (∀ i, s.swap.phase = 3 → s.slotNow = i → i ≠ 0xFF → ∃ t v, exec .swapSaveDone s = .next t ∧ t.swap.phase = 4 ∧
      t.reg Reg.runningSlot = 0xFF ∧ (t.tslot i).state = 3 ∧ (t.tslot i).saveSeq = ((s.tslot i).saveSeq + 1) % 2 ^ 32 ∧
      (t.tslot i).saved = some ((s.tslot i).tenant, (t.tslot i).saveSeq, v)) ∧
    (s.swap.phase = 4 → ∃ t, exec .swapScrubDone s = .next t ∧ t.swap.phase = (if s.swap.incoming = 0xFF then 0 else 5) ∧
      t.cores = [] ∧ t.pools = Pools.empty ∧ t.combine = Combine.empty ∧ t.exits = [] ∧ t.streams = Streams.empty ∧
      t.tiers.shared = [] ∧ ∀ k, tenantObject k = true → t.reg k = regDefault k) ∧
    (∀ i v, s.swap.phase = 5 → s.swap.incoming = i → (s.tslot i).state = 3 →
      (s.tslot i).saved = some ((s.tslot i).tenant, (s.tslot i).saveSeq, v) →
      (s.saveAreaBad i = false → ∃ t, exec (.swapRestoreDone true) s = .next t ∧ t.swap.phase = 6 ∧ t.reg Reg.runningSlot = i ∧
        (t.tslot i).state = 2 ∧ t.cores = v.cores.map (fun e =>
          (e.1, { e.2 with acc := (mapGetD [] e.1 v.accs).map (fun x => (x.1, AccEntry.ofWord x.2)) })) ∧ t.streams = v.streams ∧ t.combine = v.combine) ∧
      (∃ t, exec (.swapRestoreDone false) s = .next t ∧ t.swap.phase = 0 ∧ t.reg Reg.swapState = 8 ∧ (t.tslot i).state = 4 ∧
        t.reg Reg.restoreFails = (s.reg Reg.restoreFails + 1) % 2 ^ 32 ∧ t.cores = [] ∧ 4 ∈ t.manager.causes)) ∧
    (s.noBeat = false → s.swap.incoming ≠ 0xFF → s.reg Reg.swapState ≠ 7 → s.reg Reg.swapResumeBeat ≤ s.nextBeat →
      (s.swap.phase = 6 → ∃ t, exec .swapResume s = .next t ∧ t.swap.phase = 0 ∧
        t.reg Reg.swaps = (s.reg Reg.swaps + 1) % 2 ^ 32 ∧ ∀ x ∈ t.combine.residuals, x.beat = s.nextBeat) ∧
      (s.swap.phase = 5 → ∃ t, exec .swapResume s = .next t ∧ t.swap.phase = 5 ∧ t.reg Reg.swapState = 7 ∧
        t.reg Reg.swapLate = (s.reg Reg.swapLate + 1) % 2 ^ 32 ∧ 3 ∈ t.manager.causes))

/-- R199, R200, R207, R208: a loader object written to a bank that is not loading, ACTIVE, DRAINING or staged makes the bank
VALID with the new list where every check of R207 passes, and INVALID with the abort in LOAD_ABORT where one fails; the
template object is staged where its checks pass. -/
def Obligations.LoaderObjectsAreChecked : Prop :=
  ∀ (s : State) (r : Role) (c : Nat) (obj : List Byte), c < 128 →
    (∀ b, b < 2 → s.mayWrite r (objKey (0x4000 + c) (1 + b)) → obj ≠ [] → obj.length ≤ 262208 → s.bankCheck c b = 0 →
      ∃ t, exec (.bankWrite r c b obj) s = .next t ∧
        (s.loaderCheck c 1 obj = 0 →
          (t.core c).bank b = ⟨2, Blob.ofBytes obj, bytesAt obj 24 32, Config.decodeTimetable (obj.drop 64)⟩ ∧
            t.reg (Reg.loadAbort c) = s.reg (Reg.loadAbort c)) ∧
        (s.loaderCheck c 1 obj ≠ 0 → ((t.core c).bank b).state = 3 ∧ t.reg (Reg.loadAbort c) = s.loaderCheck c 1 obj ∧
          t.reg (Reg.lastAbort (roleNum r + 1)) = s.loaderCheck c 1 obj) ∧
        (t.core c).bank (1 - b) = (s.core c).bank (1 - b)) ∧
    (∀ b, b < 2 → s.mayWrite r (objKey (0x4000 + c) (1 + b)) → obj ≠ [] → obj.length ≤ 262208 → s.bankCheck c b ≠ 0 →
      ∃ t, exec (.bankWrite r c b obj) s = .next t ∧ t.cores = s.cores ∧
        t.reg (Reg.lastAbort (roleNum r + 1)) = s.bankCheck c b) ∧
    (s.mayWrite r (objKey (0x4000 + c) 8) → obj ≠ [] → obj.length ≤ 1048640 → mapGet (roleNum r) s.commits = none →
      ∃ t, exec (.segTemplatesWrite r c obj) s = .next t ∧ t.cores = s.cores ∧
        (s.loaderCheck c 2 obj = 0 → mapGet (Reg.segTemplates c) (t.shadow r).doms = some (Blob.ofBytes obj)) ∧
        (s.loaderCheck c 2 obj ≠ 0 → t.shadow r = s.shadow r ∧ t.reg (Reg.loadAbort c) = s.loaderCheck c 2 obj))

/-! ### Managers, workers and partitions (R353 to R366, R431 to R434) -/

/-- R353, R354: a manager admits a device of its domain while it holds fewer than 1,023, answers and counts one too many; an
admitted worker forwards a HELLO, sends its heartbeats and hears its manager; a worker records the manager that admitted it,
falls silent with hall time in HOLDOVER, and adopts the standby; a standby keeps the devices whose answers are copied to it
and, when the manager is silent, is the manager and sends ADOPT to each of them (that copy and that moment are the model's,
log 87). -/
def Obligations.ManagersAdmitAndWorkersListen : Prop :=
  ∀ (s : State) (dev a b : Nat) (dom : Nat), dom ≠ 0 → dom = s.reg Reg.domainId →
    (s.manager.roleLive = 2 → s.inDomain dev = false → s.manager.domain.length < 1023 → dev < 2 ^ 14 →
      ∃ t x b', exec (.hello dev a b dom) s = .next t ∧ t.manager.domain = s.manager.domain ++ [⟨dev, b', 1, 0, false, [], s.time.hallTime⟩] ∧
        t.reg Reg.domainSize = s.manager.domain.length + 1 ∧ t.fabric.inject = s.fabric.inject ++ [x] ∧
        physDev x.route.dst = dev ∧ x.body = .mgmt (.admitted s.here dom)) ∧
    (s.manager.roleLive = 2 → s.inDomain dev = false → 1023 ≤ s.manager.domain.length →
      ∃ t, exec (.hello dev a b dom) s = .next t ∧ t.manager = s.manager ∧ t.fabric.inject = s.fabric.inject ∧
        t.reg Reg.admitRefused = (s.reg Reg.admitRefused + 1) % 2 ^ 32) ∧
    (s.manager.roleLive ≠ 2 → s.reg Reg.mgrState = 1 → s.manager.mgmtDead = false →
      (∃ t x, exec (.hello dev a b dom) s = .next t ∧ t.fabric.inject = s.fabric.inject ++ [x] ∧
        x.route.dst = physAddr (s.reg Reg.managerLoc) 0 3 ∧ x.body = .mgmt (.hello dev a b dom)) ∧
      (∃ t x, exec .heartbeatSend s = .next t ∧ t.fabric.inject = s.fabric.inject ++ [x] ∧
        x.route.dst = physAddr (s.reg Reg.managerLoc) 0 3 ∧ x.body = .mgmt (.heartbeat s.here)) ∧
      (∃ t, exec (.heartbeatReceive (s.reg Reg.managerLoc)) s = .next t ∧ t.manager.lastHeard = s.time.hallTime ∧
        t.manager.silent = false)) ∧
    (s.manager.roleLive = 1 ∨ s.manager.roleLive = 3 → ∃ t, exec (.admitReply dev dom) s = .next t ∧
      t.reg Reg.managerLoc = dev ∧ t.reg Reg.mgrState = 1 ∧ t.manager.silent = false) ∧
    (s.reg Reg.mgrState = 1 → ∃ t, exec .mgrSilenceExpiry s = .next t ∧ t.manager.silent = true ∧
      t.time.hallTime = max (s.manager.lastHeard + s.reg Reg.mgrSilence) s.time.hallTime ∧
      t.reg Reg.timeState = (if s.reg Reg.timeState = 1 ∨ s.reg Reg.timeState = 2 then 3 else s.reg Reg.timeState)) ∧
    (s.manager.roleLive = 1 → s.manager.silent = true → ∃ t, exec (.adopt dev dom) s = .next t ∧
      t.reg Reg.managerLoc = dev ∧ t.manager.silent = false ∧ t.reg Reg.adoptions = (s.reg Reg.adoptions + 1) % 2 ^ 32) ∧
    (s.manager.roleLive = 2 → s.inDomain dev = true → (∀ d ∈ s.manager.domain, d.standby = false) →
      ∃ t x, exec (.heartbeatReceive dev) s = .next t ∧ t.fabric.inject = s.fabric.inject ++ [x] ∧
        x.route.dst = physAddr dev 0 3 ∧ x.body = .mgmt (.heartbeat s.here)) ∧
    (s.manager.roleLive = 3 → s.reg Reg.mgrState = 1 → dev ≠ s.reg Reg.managerLoc → s.inDomain dev = false →
      (∃ t, exec (.heartbeatReceive dev) s = .next t ∧ t.manager.lastHeard = s.time.hallTime ∧
        t.manager.domain = s.manager.domain ++ [⟨dev, false, 1, 0, false, [], s.time.hallTime⟩]) ∧
      (∃ t, exec .mgrSilenceExpiry s = .next t ∧ t.manager.roleLive = 2 ∧ t.manager.domain = s.manager.domain ∧
        t.reg Reg.domainSize = s.manager.domain.length ∧
        ∀ d ∈ s.manager.domain, ∃ x ∈ t.fabric.inject, physDev x.route.dst = d.loc % 2 ^ 14 ∧
          x.body = .mgmt (.adopt s.here dom)))

/-- R361, R431 to R434: a manager logs each report it receives and declares a device LOST once: when its heartbeats stop for
three heartbeat times, when two of its L1 peers report a port to it failed, or when it reports a device fault; a device's
own fault is logged, kept as a cause and holds beat work from the next tick on. -/
def Obligations.ReportsAreLoggedAndLossesDeclared : Prop :=
  ∀ (s : State) (dev : Nat),
    (s.manager.roleLive = 2 → (∃ d ∈ s.manager.domain, d.loc = dev ∧ d.lost = false) →
      (∃ t, exec (.heartbeatMissing dev) s = .next t ∧ t.reg Reg.devicesLost = (s.reg Reg.devicesLost + 1) % 2 ^ 32 ∧
        (∀ d ∈ t.manager.domain, d.loc = dev → d.lost = true) ∧
        ∀ d, s.manager.domain.find? (fun x => x.loc == dev && !x.lost) = some d →
          t.time.hallTime = max (d.heardAt + 3 * s.reg Reg.heartbeat) s.time.hallTime) ∧
      (∀ port by' x, l1Peers dev by' = true → by' ≠ s.here → x ≠ by' → (∀ d ∈ s.manager.domain, d.loc = dev → d.failedBy = [x]) →
        ∃ t, exec (.portFailed port dev by') s = .next t ∧ t.reg Reg.devicesLost = (s.reg Reg.devicesLost + 1) % 2 ^ 32 ∧
          t.manager.faultLog.getLast? = some [1, dev, port, s.time.hallTime] ∧
          ∀ d ∈ t.manager.domain, d.loc = dev → d.lost = true) ∧
      (∀ cause, dev ≠ s.here → s.inDomain dev = true → ∃ t, exec (.deviceFault cause dev) s = .next t ∧
        t.reg Reg.devicesLost = (s.reg Reg.devicesLost + 1) % 2 ^ 32 ∧
        t.manager.faultLog.getLast? = some [3, 0, cause, s.time.hallTime] ∧
        t.manager.causes = s.manager.causes ∧ ∀ d ∈ t.manager.domain, d.loc = dev → d.lost = true)) ∧
    (∀ port lane, s.manager.roleLive = 2 → s.inDomain dev = true → ∃ t, exec (.laneRemapped port lane dev) s = .next t ∧
      t.manager.faultLog.getLast? = some [2, port, lane, s.time.hallTime] ∧ t.manager.domain = s.manager.domain) ∧
    (∀ unit cause, dev ≠ s.here → s.manager.roleLive = 2 → s.inDomain dev = true →
      ∃ t, exec (.tenantError unit cause dev) s = .next t ∧
        t.manager.faultLog.getLast? = some [4, unit, cause, s.time.hallTime] ∧ t.manager.domain = s.manager.domain) ∧
    (∀ unit cause, unit ≤ 144 → 1 ≤ cause → cause ≤ 9 → ∃ t, exec (.tenantError unit cause s.here) s = .next t ∧
      t.manager.faultLog.getLast? = some [4, unit, cause, s.time.hallTime] ∧
      t.reg Reg.faultReports = (s.reg Reg.faultReports + 1) % 2 ^ 32 ∧ t.beat = s.beat) ∧
    (∀ cause, 1 ≤ cause → cause ≤ 6 → ∃ t, exec (.deviceFault cause s.here) s = .next t ∧ cause ∈ t.manager.causes ∧
      t.beat.holdNext = true ∧ t.manager.faultLog.getLast? = some [3, 0, cause, s.time.hallTime] ∧
      t.reg Reg.faultReports = (s.reg Reg.faultReports + 1) % 2 ^ 32) ∧
    (6 ∉ s.manager.causes → ∃ t, exec .mgmtCoreMiss s = .next t ∧ t.manager.mgmtDead = true ∧ 6 ∈ t.manager.causes ∧
      t.beat.holdNext = true)

/-- R119, R356 to R359, R364, R366: START of a CONFIGURED partition keeps its beat (on shared ports it STARTS first), and at
that beat's tick the partition RUNS; a teardown drains from its tick on with no incoming tenant; a device in FAULT_HOLD
rejoins at the tick of its ADMIT beat when every cause has cleared; a stand-in loads the lost rank's replica. -/
def Obligations.PartitionsStartStopAndRejoin : Prop :=
  ∀ (s : State) (r : Role) (b : Nat),
    (s.mayWrite r Reg.partCmd → s.reg Reg.partBeat = b → s.part = 1 → s.reg Reg.thermalState ≠ 2 → s.time.anchored = true →
      s.namedOk b = true → s.package.diagCmd ≠ 4 → s.reg Reg.bootStage ≠ 0xE2 → s.reg Reg.bootStage ≠ 0xE3 →
      ∃ t, exec (.start r) s = .next t ∧ t.manager.partDue = some (b, false) ∧
        t.reg Reg.partState = (if s.reg Reg.startShared = 0 then 1 else 2)) ∧
    (s.mayWrite r Reg.partCmd → s.reg Reg.partBeat = b → s.part ≠ 0 → ∃ t, exec (.teardown r) s = .next t ∧
      t.manager.partDue = some (b, true) ∧ t.reg Reg.partState = s.reg Reg.partState) ∧
    (s.mayWrite r Reg.readmitBeat → b < 2 ^ 64 → ∃ t, exec (.readmit r b) s = .next t ∧ t.manager.admitBeat = some b) ∧
    (s.time.anchored = true → b ≤ s.nextBeat →
      (s.manager.partDue = some (b, false) → s.sharedDrained = true → s.part = 1 ∨ s.part = 2 →
        ∃ t, exec .partitionRun s = .next t ∧ t.reg Reg.partState = 3 ∧ t.time.joined = true ∧ t.manager.partDue = none) ∧
      (s.manager.partDue = some (b, true) → s.swap.phase ≤ 1 → ∃ t, exec .teardownBeat s = .next t ∧ t.reg Reg.partState = 4 ∧
        t.swap.teardown = true ∧ t.swap.incoming = 0xFF ∧ t.swap.phase = (if s.slotNow = 0xFF then 4 else 2)) ∧
      (s.manager.admitBeat = some b → s.manager.causes ≠ [] → (∀ c ∈ s.manager.causes, s.causeCleared c = true) →
        ∃ t, exec .rejoin s = .next t ∧ t.manager.causes = [] ∧ t.beat.holdNext = false ∧
          t.reg Reg.partState = (if s.part = 5 then 3 else s.part) ∧
          t.reg Reg.swapState = if s.reg Reg.swapState = 7 then 0 else s.reg Reg.swapState)) ∧
    (∀ lost, s.myRankOpt = some b → (∃ x ∈ s.replicaRecs, x.1 = lost) → ∃ t, exec (.failover lost b) s = .next t ∧
      t.replicaState lost = 1) ∧
    (∀ i id, s.replicaState b = 1 → s.replicaRecs = [(b, id)] → s.imageOf s.tenantNow id = some i → i.body.length ≤ 33554432 →
      sha3 i.body = i.digest → (∀ a ∈ i.extents, s.homeBad a 0 extentBytes = false) →
      (∃ t, exec (.replicaLoadDone b true) s = .next t ∧ t.replicaState b = 2 ∧ mapGetD [] b t.platforms.reserve = i.body) ∧
      (∃ t, exec (.replicaLoadDone b false) s = .next t ∧ t.replicaState b = 3 ∧
        t.reg Reg.replicaFails = (s.reg Reg.replicaFails + 1) % 2 ^ 32))

/-! ### The host window, forwarded transfers, the I3C target and dictionary writes (R371 to R391) -/

/-- R381 to R385: in a block with no transfer, a READ of a readable object with DX_LEN all ones copies it whole and offers
its words; a WRITE or PATCH that passes its checks waits for its words; data words move, the last of a read ends the
transfer DONE and the last of a write completes the access; an access that fails a check ends in ERROR with its code,
counted. -/
def Obligations.HostTransfersMoveTheirWords : Prop :=
  ∀ (s : State) (r : Role) (sel len : Word64) (x : Session), s.manager.mgmtDead = false → s.session (roleNum r) = x →
    (x.busy = false → selRemote sel.toNat = false → selReserved r sel.toNat = false →
      let i := selIndex sel.toNat
      let sub := selSub sel.toNat
      let n := len.toNat % 2 ^ 32
      let x0 : Session := { Session.idle with sel := sel.toNat, len := len.toNat, cmd := 1, index := i, sub := sub,
                                              lastMove := s.time.hallTime }
      let u := (s.setSession (roleNum r) x0).count Reg.dxTransfers 1
      (∀ bs, u.readObject r i sub (selShadow sel.toNat) = (0, bs) → len.toNat = 0xFFFFFFFF →
        ∃ t y, exec (.read r sel len) s = .next t ∧ t.session (roleNum r) = y ∧ (bs = [] → y.state = 3) ∧
          (bs ≠ [] → y.state = 2 ∧ y.index = i ∧ y.sub = sub ∧ y.data = bs ∧ y.left = bs.length ∧
            y.words = (if bs.length ≤ 16384 then wordCount bs.length else 0)) ∧
          t.reg Reg.dxTransfers = (s.reg Reg.dxTransfers + 1) % 2 ^ 32) ∧
      (s.accessCode r i sub false ≠ 0 → ∃ t, exec (.read r sel len) s = .next t ∧ (t.session (roleNum r)).state = 4 ∧
        (t.session (roleNum r)).abort = s.accessCode r i sub false ∧
        t.reg (Reg.lastAbort (roleNum r + 1)) = s.accessCode r i sub false ∧
        t.reg Reg.dxErrors = (s.reg Reg.dxErrors + 1) % 2 ^ 32) ∧
      (∀ row, s.accessCode r i sub true = 0 → rowOf i sub = some row → lengthCode row n = 0 → n ≠ 0 →
        isBankObj i sub = false → isFwObj i sub = false →
        ∃ t y, exec (.write r sel len) s = .next t ∧ t.session (roleNum r) = y ∧ y.state = 2 ∧ y.cmd = 2 ∧ y.left = n ∧
          y.words = min 2048 (wordCount n) ∧ y.data = [] ∧ t.doms = s.doms ∧ t.shadows = s.shadows) ∧
      (s.patchCode r i sub (len.toNat / 2 ^ 32) n = 0 → n ≠ 0 →
        ∃ t y, exec (.patch r sel len) s = .next t ∧ t.session (roleNum r) = y ∧ y.state = 2 ∧ y.cmd = 3 ∧ y.left = n ∧
          y.offset = len.toNat / 2 ^ 32 ∧ y.words = min 2048 (wordCount n) ∧ t.shadows = s.shadows)) ∧
    (x.state = 2 → x.remote = none → (r = .ten → s.tenantOpen = true) →
      (∀ n, x.cmd = 1 → 1 ≤ n → n ≤ 8 → n ≤ x.words → 8 * n ≤ x.left → isDiagObj x.index = false →
        ∃ t, exec (.dxDataRead r n) s = .next t ∧
          t.host.reply = toWords (bytesAt x.data (x.offset + (x.total - x.left)) (8 * n)) ∧
          (8 * n < x.left →
            t.session (roleNum r) = { x with left := x.left - 8 * n, words := x.words - n, lastMove := s.time.hallTime }) ∧
          (8 * n = x.left → (t.session (roleNum r)).state = 3 ∧ t.reg Reg.dxErrors = s.reg Reg.dxErrors)) ∧
      (∀ ws, x.cmd = 2 → ws ≠ [] → ws.length ≤ 8 → ws.length ≤ x.words → isBankObj x.index x.sub = false →
        isFwObj x.index x.sub = false →
        let y : Session := { x with data := x.data ++ ofWords ws, left := x.left - 8 * ws.length }
        ∃ t, exec (.dxDataWrite r ws) s = .next t ∧
          (8 * ws.length < x.left →
            t = s.setSession (roleNum r) { y with words := x.words - ws.length, lastMove := s.time.hallTime }) ∧
          (x.left ≤ 8 * ws.length → ((t.session (roleNum r)).state = 3 ∨ (t.session (roleNum r)).state = 4) ∧
            (t.session (roleNum r)).left = 0)) ∧
      (x.cmd = 1 → x.words < wordCount x.left → x.words ≤ 1536 → s.readChanged r x = false →
        ∃ t, exec (.dxSegmentMove r) s = .next t ∧
          t = s.setSession (roleNum r) { x with words := min (x.words + 512) (wordCount x.left) }))

/-- R379, R385, R386: CANCEL and the idle timeout end a transfer in ERROR with their codes, counted; an access the window
does not allow is counted and reads zeros; a worker answers its manager's DX request for a whole object; the manager's
transfer takes the response's payload, or its error, or ends when none comes. -/
def Obligations.TransfersEndAndAreForwarded : Prop :=
  ∀ (s : State) (x : Session), s.manager.mgmtDead = false →
    (∀ r, s.session (roleNum r) = x → x.busy = true → x.remote = none → ∃ t, exec (.cancel r) s = .next t ∧
      (t.session (roleNum r)).state = 4 ∧ (t.session (roleNum r)).abort = abortCode 7 0xA3 ∧
      t.reg (Reg.lastAbort (roleNum r + 1)) = abortCode 7 0xA3 ∧ t.reg Reg.dxErrors = (s.reg Reg.dxErrors + 1) % 2 ^ 32) ∧
    (∀ r, s.session (roleNum r) = x → x.state = 2 → ∃ t, exec (.dxIdleTimeout r) s = .next t ∧
      (t.session (roleNum r)).state = 4 ∧ (t.session (roleNum r)).abort = abortCode 7 0xA5 ∧
      x.lastMove + s.reg Reg.dxIdleTimeout ≤ t.time.hallTime) ∧
    (∀ b n, ∃ t, exec (.badWindowAccess b n) s = .next t ∧ t.reg Reg.badAccess = (s.reg Reg.badAccess + 1) % 2 ^ 32 ∧
      t.host.sessions = s.host.sessions ∧ (∀ w ∈ t.host.reply, b = true → w = 0)) ∧
    (∀ src h p, s.reg Reg.mgrState = 1 → s.reg Reg.managerLoc = src → h.cmd = 1 → s.host.fabric = [] → h.offset = 0 →
      h.len = 0xFFFFFFFF → ∀ bs, ((s.takeMsg (.dxRequest h p)).count Reg.dxTransfers 1).readObject .mgr h.index h.sub h.shadow = (0, bs) →
      bs.length ≤ 4096 → ∃ t y q, exec (.dxRequest src h p) s = .next t ∧
        t.reg Reg.dxTransfers = (s.reg Reg.dxTransfers + 1) % 2 ^ 32 ∧
        t.fabric.inject = s.fabric.inject ++ [y] ∧ y.route.dst = physAddr src 0 3 ∧ y.body = .mgmt (.dxResponse q bs) ∧
        q.seqNo = h.seqNo ∧ q.abort = 0 ∧ q.len = bs.length) ∧
    (∀ h p, s.session 1 = x → x.busy = true → x.remote = some h.seqNo → x.asked = true →
      (h.abort ≠ 0 → ∃ t, exec (.dxResponse h p) s = .next t ∧ (t.session 1).state = 4 ∧ (t.session 1).abort = h.abort ∧
        t.reg (Reg.lastAbort 2) = h.abort) ∧
      (h.abort = 0 → x.cmd = 1 → x.offset = 0 → x.data = [] → h.len = p.length → p ≠ [] →
        ∃ t y, exec (.dxResponse h p) s = .next t ∧ t.session 1 = y ∧ y.state = 2 ∧ y.data = p ∧ y.left = p.length ∧
          y.words = wordCount p.length ∧ y.asked = false) ∧
      (∃ t, exec (.dxRemoteTimeout h.seqNo) s = .next t ∧ (t.session 1).state = 4 ∧
        (t.session 1).abort = abortCode 7 0xA1 ∧ t.time.hallTime = max (x.lastMove + 1000000) s.time.hallTime))

/-- R371 to R374, R391, R397: a write of a plain number takes effect, one of a staged number joins the role's shadow set,
and a refused write leaves its code; the I3C target reads and writes one object for the board controller, counts the access,
keeps status and value for the next private read, and takes a dynamic address when it has none. -/
def Obligations.DictionaryAndI3cAccessesComplete : Prop :=
  ∀ (s : State),
    (∀ r i sub bs row, i < 65536 → sub < 256 → s.mayWrite r (objKey i sub) → rowOf i sub = some row → row.isBytes = false →
      bs.length = typeBytes row.type → valueCode row i sub (leNat bs) = 0 →
      (row.staged = true → mapGet (roleNum r) s.commits = none → isGateTable i sub = false →
        ∃ t, exec (.dictionaryWrite r i sub bs) s = .next t ∧
          mapGet (s.keyOf r row i sub) (t.shadow r).regs = some (leNat bs) ∧ t.regs = s.regs ∧ t.doms = s.doms) ∧
      (row.staged = false → s.numCommand r i sub (leNat bs) = none → rangeOk (objKey i sub) (leNat bs) = true →
        ∃ t, exec (.dictionaryWrite r i sub bs) s = .next t ∧ t = s.setReg (s.keyOf r row i sub) (leNat bs))) ∧
    (∀ r i sub bs, i < 65536 → sub < 256 → s.manager.mgmtDead = false → s.accessCode r i sub true ≠ 0 →
      ∃ t, exec (.dictionaryWrite r i sub bs) s = .next t ∧ t.doms = s.doms ∧ t.shadows = s.shadows ∧
        t.reg (Reg.lastAbort (roleNum r + 1)) = s.accessCode r i sub true) ∧
    (s.reg Reg.bootStage ≠ 0 → ∃ t, exec .i3cTargetReady s = .next t ∧ t.host.i3c.answering = true ∧
      t.host.i3c.staticAddr = 0x30 + s.here % 4) ∧
    (s.i3cOn = true →
      (∀ i sub, i < 65536 → sub < 256 → s.i3cCode i sub false = 0 → isBootStage i sub = false →
        (s.countI3c.readObject .brd i sub false).1 = 0 → ∃ t, exec (.i3cRead i sub) s = .next t ∧ t.host.i3c.status = 0 ∧
          t.host.i3c.out = (s.countI3c.readObject .brd i sub false).2 ∧ t.regs = s.countI3c.regs) ∧
      (∀ i sub, i < 65536 → sub < 256 → s.i3cCode i sub false ≠ 0 → ∃ t, exec (.i3cRead i sub) s = .next t ∧
        t.host.i3c.status = 2 ∧ t.host.i3c.out = leBytes 4 (s.i3cCode i sub false)) ∧
      (∀ i sub bs u, i < 65536 → sub < 256 → s.i3cCode i sub true = 0 → s.countI3c.writeObject .brd i sub bs = (0, u) →
        ∃ t, exec (.i3cWrite i sub bs) s = .next t ∧ t.host.i3c.status = 0 ∧ t.host.i3c.out = [] ∧ t.regs = u.regs) ∧
      (∃ t, exec .i3cStatusRead s = .next t ∧ t.host.reply = toWords (BitVec.ofNat 8 s.host.i3c.status :: s.host.i3c.out) ∧
        t.host.i3c = s.host.i3c) ∧
      (∀ d, d < 128 → s.host.i3c.dynAddr = none → (∃ t, exec (.setdasa s.host.i3c.staticAddr d) s = .next t ∧
          t.host.i3c.dynAddr = some d) ∧
        (∃ t, exec (.entdaa d) s = .next t ∧ t.host.i3c.dynAddr = some d)))

/-! ### Stores, firmware, attestation, diagnostics and clears (R126, R167, R169, R401 to R430, R455) -/

/-- R402, R415 to R417: STORE with its key word captures the P objects into the invalid or older bank, RESTORE_DEFAULTS an
empty image; the end of the write makes that bank valid with the next sequence number, or invalid; another word is refused.
R425: an update is written to the slot that is not running and is valid only where every check passes. R430: a nonce opens a
request, a tick captures it, and its report is READY when signed. R406 to R412: a diagnostics command with a legal argument
runs, and ends PASSED or FAILED with the number of its records that fail. R126, R167, R169: a bit of CLIP_FLAGS written as 1
is cleared, AUDIT_ALARM takes only 0, and every slot of an ended clipping window whose share exceeds its threshold is
counted. -/
def Obligations.PersistenceAndDiagnostics : Prop :=
  (∀ (s : State),
    (∀ r v, s.mayWrite r Reg.storeCmd → s.reg Reg.storeState ≠ 1 →
      (v = 0x73746F72 → ∃ t, exec (.store r v) s = .next t ∧ t.reg Reg.storeState = 1 ∧
        t.nv = { s.nv with storing := some (s.nv.target, s.captured) }) ∧
      (v ≠ 0x73746F72 → ∃ t, exec (.store r v) s = .next t ∧ t.nv = s.nv ∧
        t.reg (Reg.lastAbort (roleNum r + 1)) = abortCode 4 0)) ∧
    (∀ r, s.mayWrite r Reg.restoreDefaults → s.reg Reg.storeState ≠ 1 →
      ∃ t, exec (.restoreDefaults r 0x64666C74) s = .next t ∧ t.reg Reg.storeState = 1 ∧
        t.nv = { s.nv with storing := some (s.nv.target, []) }) ∧
    (∀ i es, s.nv.storing = some (i, es) →
      (∃ t, exec (.storeDone true) s = .next t ∧ t.reg Reg.storeState = 2 ∧ t.nv.bank i = ⟨true, s.nv.nextSeq, es⟩ ∧
        t.nv.storing = none ∧ t.nv.factory = s.nv.factory) ∧
      (∃ t, exec (.storeDone false) s = .next t ∧ t.reg Reg.storeState = 3 ∧ (t.nv.bank i).valid = false ∧
        t.nv.storing = none)) ∧
    (∀ r b, s.mayWrite r Reg.fwUpdate → s.reg Reg.fwUpdateState ≠ 1 → s.reg Reg.fwUpdateState ≠ 2 →
      ∃ t, exec (.fwUpdate r b) s = .next t ∧ t.reg Reg.fwUpdateState = 2 ∧ t.nv.fwBytes = b ∧
        (t.nv.fw s.fwTarget).valid = false ∧ t.nv.fw (1 - s.fwTarget) = s.nv.fw (1 - s.fwTarget)) ∧
    (∀ ok, s.reg Reg.fwUpdateState = 2 → (s.session 0).state ≠ 1 →
      ∃ t, exec (.fwUpdateDone ok) s = .next t ∧
        t.reg Reg.fwUpdateState = (if s.fwCheck (fwSlotOf s.nv.fwBytes) ok = 0 then 3 else 4) ∧
        (t.nv.fw s.fwTarget).valid = decide (s.fwCheck (fwSlotOf s.nv.fwBytes) ok = 0) ∧
        (s.fwCheck (fwSlotOf s.nv.fwBytes) ok / 65536 = 8 →
          t.reg Reg.securityEvents = (s.reg Reg.securityEvents + 1) % 2 ^ 32)) ∧
    (∀ r b, s.mayWrite r Reg.attestNonce → b.length = 32 → s.security.certBad = false →
      ∃ t, exec (.attestNonce r b) s = .next t ∧ t.attest r = ⟨b, none, []⟩ ∧ t.reg (perRole Reg.attestState r) = 1) ∧
    (∀ r, r ≠ .brd → s.reg Reg.swapState ≤ 1 → s.reg (perRole Reg.attestState r) = 1 → (s.attest r).captured = none →
      ∃ t, exec .attestCapture s = .next t ∧ (t.attest r).captured = some (s.measure r) ∧ t.regs = s.regs) ∧
    (∀ r b, s.reg (perRole Reg.attestState r) = 1 → (s.attest r).captured = some b →
      ∃ t, exec (.attestSigned r) s = .next t ∧ t.reg (perRole Reg.attestState r) = 2 ∧
        (t.attest r).report = b ++ Config.mldsaSign s.security.seed (sha3 b))) ∧
  (∀ (s : State),
    (∀ r n c, (n = 1 ∧ c = .hbmMargin r) ∨ (n = 2 ∧ c = .eyeScan r) ∨ (n = 3 ∧ c = .flashCheck r) ∨
        (n = 4 ∧ c = .sramTest r ∧ s.part = 0 ∧ s.slotNow = 0xFF) →
      s.mayWrite r Reg.diagCmd → diagArgOk n (s.reg Reg.diagArg) = true → s.reg Reg.diagState ≠ 1 →
      ∃ t, exec c s = .next t ∧ t.reg Reg.diagState = 1 ∧ t.package.diagCmd = n ∧ t.package.diagArg = s.reg Reg.diagArg) ∧
    (∀ recs n, s.reg Reg.diagState = 1 → s.package.diagCmd ≠ 2 →
      failedRecs s.package.diagCmd (recs.filter (fun r => diagNames s.package.diagCmd s.package.diagArg r.idx)) = n →
      ∃ t, exec (.diagDone recs) s = .next t ∧ t.reg Reg.diagResult = n ∧
        t.reg Reg.diagState = (if 0 < n then 3 else 2) ∧ t.package.diagCmd = 0) ∧
    (∀ r b, s.mayWrite r Reg.clipFlags → b.length = 32 → ∃ t, exec (.clipFlagsClear r b) s = .next t ∧
      t.dom Reg.clipFlags = Blob.ofBytes (List.zipWith (fun x y => x &&& ~~~y) ((s.dom Reg.clipFlags).slice 0 32) b) ∧
      t.regs = s.regs) ∧
    (∀ r v, s.mayWrite r Reg.auditAlarm → ∃ t, exec (.auditAlarmClear r v) s = .next t ∧
      (v = 0 → t.reg Reg.auditAlarm = 0) ∧
      (v ≠ 0 → t.reg Reg.auditAlarm = s.reg Reg.auditAlarm ∧ t.reg (Reg.lastAbort (roleNum r + 1)) = abortCode 4 0)) ∧
    (∀ m, s.clip.ended = some m → s.reg Reg.clipEvents < 2 ^ 32 →
      let share := fun i => let c := mapGetD ⟨0, 0⟩ i m; if c.quantised = 0 then 0 else c.clipped * 65536 / c.quantised
      let clipped := (List.range 256).filter (fun i => decide ((s.dom Reg.clipThresh).nat (4 * i) 4 < share i))
      ∃ t, exec .clipWindowClose s = .next t ∧ t.clip.ended = none ∧
        t.reg Reg.clipEvents = (s.reg Reg.clipEvents + clipped.length) % 2 ^ 32))

/-! ### Reset, boot and the package (R34, R391, R419 to R428, R446 to R471) -/

/-- R446: a reset input low for 10 µs or longer resets the device, and one shorter than 1 µs does not; the release of the
last starts boot. R419 to R428, R448 to R453: each stage that succeeds leads to the next, and one that fails to its halt. -/
def Obligations.BootRunsItsStages : Prop :=
  ∀ (s : State),
    (∀ p w, 10000 ≤ w → ∃ t, exec (.resetAssert p w) s = .next t ∧ t.reg Reg.bootStage = 0 ∧ t.regs = [] ∧ t.doms = [] ∧
      t.cores = [] ∧ t.tiers.slow = s.tiers.slow ∧ t.tiers.far = s.tiers.far ∧ t.nv.factory = s.nv.factory ∧
      t.package.vid = 14) ∧
    (∀ p w, w < 1000 → exec (.resetAssert p w) s = .next s) ∧
    (∀ p w, 1000 ≤ w → w < 10000 → ∃ t, exec (.resetAssert p w) s = .next t ∧
      (t.regs = [] ∧ t.reg Reg.bootStage = 0 ∨ t = { s with free := t.free })) ∧
    (∀ p d q, s.package.drive p true = q → q.pwrOk = true → q.sysRst = true → q.perst = true → q.tripped = false →
      s.reg Reg.bootStage = 0 → ∃ t, exec (.resetRelease p d) s = .next t ∧ t.reg Reg.bootStage = 1 ∧
        t.package.devId = d % 4) ∧
    (∀ puf rnd, s.reg Reg.bootStage = 1 → ∃ t, exec (.rom puf rnd) s = .next t ∧
      t.reg Reg.bootStage = (if s.nv.factory.sigOk then 2 else 0xE0) ∧
      (s.nv.factory.sigOk = true → t.security.seed = sha3 puf)) ∧
    (s.reg Reg.bootStage = 2 → ∃ t, exec .nvBank s = .next t ∧ t.reg Reg.bootStage = 3 ∧
      t.reg Reg.nvBank = s.nv.selected.getD 0xFF ∧ t.manager.roleLive = t.reg Reg.role ∧
      t.reg Reg.locationActive = t.reg Reg.location) ∧
    (s.reg Reg.bootStage = 3 → ∃ t, exec .firmware s = .next t ∧
      t.reg Reg.bootStage = (if s.nv.fwPick = none then 0xE1 else 4) ∧ t.reg Reg.fwRunning = s.nv.fwPick.getD 2) ∧
    (∀ recs ok, s.reg Reg.bootStage = 4 → ∃ t, exec (.hbm recs ok) s = .next t ∧ t.reg Reg.bootStage = 5 ∧ t.tiers.hbm = [] ∧
      t.package.failHbm = (!ok || decide (0 < failedRecs 1 (recs.filter (fun r => decide (r.idx < 256)))))) ∧
    (∀ recs a b c d n, s.reg Reg.bootStage = 5 → failedRecs 3 (recs.filter (fun r => decide (r.idx < 4))) = n →
      ∃ t, exec (.flash recs a b c d) s = .next t ∧
        t.reg Reg.bootStage = (if s.package.failHbm then 0xE2 else if 0 < n then 0xE3 else 6) ∧
        (s.package.failHbm = false → n = 0 → t.reg Reg.vddCoreSet = 650 + 5 * s.package.vid ∧ s.nv.floor ≤ t.nv.floor)) ∧
    (∀ recs, s.reg Reg.bootStage = 6 → ∃ t, exec (.links recs) s = .next t ∧ t.reg Reg.bootStage = 7 ∧
      ∀ p, p < 60 → t.reg (Reg.portState p) = if (s.reg (Reg.portCfg p)).testBit 0 then 1 else 5) ∧
    (∀ recs, s.reg Reg.bootStage = 7 → s.portsSettled = true → s.manager.roleLive = 0 ∨ s.reg Reg.timeState = 2 →
      ∃ t, exec (.links recs) s = .next t ∧ t.reg Reg.bootStage = if s.manager.roleLive = 0 then 9 else 8) ∧
    (s.reg Reg.bootStage = 8 → s.reg Reg.routeCommits ≠ 0 → s.manager.roleLive = 2 ∨ s.reg Reg.mgrState = 1 →
      ∃ t, exec .discovery s = .next t ∧ t.reg Reg.bootStage = 9)

/-- R461, R464, R468 to R471: a sample at 105 °C or above is a hold with device fault cause 2, one from 100 °C on a warning,
and one below 97 °C ends both; a trip resets the device and holds it; BREF's loss, where the input is selected, and its
return show in REF_MISSING; VID moves by one step, and VDD_CORE with it. -/
def Obligations.ThePackageReportsItsState : Prop :=
  ∀ (s : State),
    (∀ m p, s.reg Reg.bootStage ≠ 0 → ∃ t, exec (.thermalSample m p) s = .next t ∧ t.reg Reg.tjMax = codeOf 32 m ∧
      t.reg Reg.pkgPower = p % 2 ^ 32 ∧
      (105000 ≤ m → t.reg Reg.thermalState = 2 ∧ (s.reg Reg.thermalState ≠ 2 → 2 ∈ t.manager.causes ∧
        t.reg Reg.thermalHolds = (s.reg Reg.thermalHolds + 1) % 2 ^ 32)) ∧
      (m < 97000 → t.reg Reg.thermalState = 0) ∧
      (100000 ≤ m → m < 105000 → s.reg Reg.thermalState = 0 → t.reg Reg.thermalState = 1 ∧
        t.reg Reg.thermalWarnings = (s.reg Reg.thermalWarnings + 1) % 2 ^ 32) ∧
      (97000 ≤ m → m < 105000 → s.reg Reg.thermalState ≠ 0 → t.reg Reg.thermalState = s.reg Reg.thermalState)) ∧
    (∃ t, exec .thermalTrip s = .next t ∧ t.package.tripped = true ∧ t.reg Reg.bootStage = 0 ∧ t.nv.factory = s.nv.factory) ∧
    (∃ t, exec .brefLoss s = .next t ∧ t = { s with package := { s.package with brefLost := true } } ∧
      t.computed .op 0x2003 7 = some (if s.reg Reg.refSelect = 1 then 1 else 0)) ∧
    (∃ t, exec .brefValid s = .next t ∧ t = { s with package := { s.package with brefLost := false } } ∧
      t.computed .op 0x2003 7 = some 0) ∧
    (∀ n, 6 ≤ s.reg Reg.bootStage → s.reg Reg.bootStage ≤ 9 → ∃ t, exec (.vidStep n) s = .next t ∧
      (s.package.vid < min n 40 → t.package.vid = s.package.vid + 1) ∧
      (min n 40 < s.package.vid → t.package.vid + 1 = s.package.vid) ∧
      (min n 40 = s.package.vid → t.package.vid = s.package.vid) ∧ t.reg Reg.vddCoreSet = 650 + 5 * t.package.vid)

/-! ### The tick, hall time and the Interlock (R28 to R56, R295) -/

/-- R36, R45, R47, R56, R295: a tick starts the next beat at or after its hall time with the maintenance slot closed; a unit
that is late past the second tick is cut and counted, and a cut of a unit that runs command lists ends its beat's
invocations; the maintenance slot counts the words corrected and patrols one line. -/
def Obligations.TicksCutsAndSlotsPass : Prop :=
  ∀ (s : State),
    (∀ u, s.time.anchored = true → s.commits = [] → ∃ t, exec (.tick u) s = .next t ∧ t.reg Reg.beatNumber = s.nextBeat ∧
      s.tickTime s.nextBeat ≤ t.time.hallTime ∧ t.time.ticked = true ∧ t.beat.maintOpen = false ∧
      t.beat.intakeClosed = false ∧ t.reg Reg.overrunUnits = 0) ∧
    (∀ u b, s.beat.late = [(u, b)] → b < s.beatNow → ∃ t, exec (.cut u) s = .next t ∧ t.beat.late = [] ∧
      t.reg Reg.cutCount = (s.reg Reg.cutCount + 1) % 2 ^ 32 ∧
      (listUnits.contains u = true → ∀ e ∈ s.cores, (s.core e.1).seq.running = true → (s.core e.1).seq.beat ≤ b → keysRise s.cores = true →
        (t.core e.1).seq = Sequencer.idle)) ∧
    (∀ n, s.beat.maintOpen = false → s.tiers.hbmBad = [] → ∃ t, exec (.maintenanceSlot n []) s = .next t ∧
      t.beat.maintOpen = true ∧ t.reg Reg.sramCe = (s.reg Reg.sramCe + n) % 2 ^ 32 ∧
      t.tiers.patrol = (if channelLines ≤ s.tiers.patrol + 1 then 0 else s.tiers.patrol + 1) ∧ t.cores = s.cores ∧
      t.tiers.hbm = s.tiers.hbm)

/-- R29 to R33: a valid exchange leaves its offset, its link's delay and its bound, and the sixteenth good one LOCKS hall
time; a correction above 100 ns in HOLDOVER is a TIME_HOLD with device fault cause 1; silence leads to HOLDOVER, and a bound
above 10 ns to TIME_HOLD. An exchange of another domain changes nothing. -/
def Obligations.HallTimeFollowsItsExchanges : Prop :=
  ∀ (s : State) (port dom m delay b mb : Nat) (off : Int),
    (s.ownDomain dom = true → s.takesTime = true →
      (∃ t, exec (.timeExchange port dom m off delay b mb) s = .next t ∧
        t.reg Reg.lastOffset = codeOf 32 (s.offsetNs port off) ∧
        (port < 60 → t.reg (Reg.linkDelay port) = delay % 2 ^ 32) ∧
        t.time.boundPs = b + mb ∧ t.time.lastExchange = t.time.hallTime ∧ s.time.hallTime ≤ t.time.hallTime) ∧
      (s.reg Reg.timeState = 1 → s.time.goodRun = 15 → b + mb ≤ 10000 → (s.offsetNs port off).natAbs ≤ 100 →
        ∃ t, exec (.timeExchange port dom m off delay b mb) s = .next t ∧ t.reg Reg.timeState = 2) ∧
      (s.reg Reg.timeState = 3 → 100 < (s.offsetNs port off).natAbs →
        ∃ t, exec (.timeExchange port dom m off delay b mb) s = .next t ∧
        t.reg Reg.timeState = 4 ∧ 1 ∈ t.manager.causes ∧ t.beat.holdNext = true)) ∧
    (s.ownDomain dom = false → exec (.timeExchange port dom m off delay b mb) s = .next s) ∧
    (s.reg Reg.timeState = 1 ∨ s.reg Reg.timeState = 2 → ∃ t, exec .holdoverEntry s = .next t ∧ t.reg Reg.timeState = 3 ∧
      t.reg Reg.holdoverCount = (s.reg Reg.holdoverCount + 1) % 2 ^ 32 ∧
      t.time.hallTime = max (s.time.lastExchange + 4 * s.reg Reg.exchInterval) s.time.hallTime) ∧
    (s.reg Reg.timeState = 3 → ∃ t, exec .timeHoldEntry s = .next t ∧ t.reg Reg.timeState = 4 ∧ 1 ∈ t.manager.causes ∧
      t.beat.holdNext = true ∧ t.time.hallTime = max s.holdAt s.time.hallTime) ∧
    (∀ r, s.mayWrite r Reg.hallTimeSet → s.manager.roleLive = 0 → s.time.hallTimeSet = false → s.time.anchored = false →
      ∃ t, exec (.hallTimeSet r m) s = .next t ∧ t.time.hallTime = m % 2 ^ 64 ∧ t.time.hallTimeSet = true)

/-- R50 to R55: a commit that no tick waits for is validated at once, one with a beat running pends for the first tick 100
ns ahead or for its named beat; at its tick it is applied or rejected whole with its abort: the numbers and tables that the
statement lists then hold their staged values, or what they held; a pending one is cancelled with its shadows kept, and a
shadow set is discarded. -/
def Obligations.CommitsPendAndApply : Prop :=
  ∀ (s : State) (r : Role), s.mayWrite r Reg.commitCmd →
    (mapGet (roleNum r) s.commits = none → s.noBeat = false →
      (∃ t, exec (.commitNextTick r) s = .next t ∧ t.reg (perRole Reg.commitState r) = 1 ∧ t.shadow r = s.shadow r ∧
        mapGet (roleNum r) t.commits = some ⟨s.tickAhead, false⟩) ∧
      (∀ b, s.reg (perRole Reg.commitBeat r) = b → (s.namedOk b = true → ∃ t, exec (.commitAtBeat r) s = .next t ∧
          t.reg (perRole Reg.commitState r) = 1 ∧ mapGet (roleNum r) t.commits = some ⟨b, true⟩) ∧
        (s.namedOk b = false → ∃ t, exec (.commitAtBeat r) s = .next t ∧ t.commits = s.commits ∧
          t.reg (Reg.lastAbort (roleNum r + 1)) = abortCode 7 1))) ∧
    (mapGet (roleNum r) s.commits = none → s.noBeat = true → ∀ i ∈ [Instr.commitNextTick r, Instr.commitAtBeat r],
      ∃ t, exec i s = .next t ∧ t.reg (perRole Reg.commitState r) = (if commitCode s (s.shadow r) true = 0 then 2 else 3) ∧
        (commitCode s (s.shadow r) true ≠ 0 → t.shadow r = s.shadow r ∧ t.doms = s.doms ∧
          t.reg (perRole Reg.commitAbort r) = commitCode s (s.shadow r) true) ∧
        (commitCode s (s.shadow r) true = 0 → t.shadow r = ⟨[], []⟩ ∧
          (∀ k ∈ committedNumbers, t.reg k = (s.overlay (s.shadow r)).reg k) ∧
          ∀ k ∈ committedTables, t.dom k = (s.overlay (s.shadow r)).dom k)) ∧
    (∀ b named, mapGet (roleNum r) s.commits = some ⟨b, named⟩ →
      (∃ t, exec (.commitCancel r) s = .next t ∧ t.commits = mapDel (roleNum r) s.commits ∧ t.shadow r = s.shadow r ∧
        t.reg (perRole Reg.commitState r) = 0) ∧
      (s.noBeat = false → b ≤ s.nextBeat →
        let o := s.judgeBefore
        let code := commitCode o (s.shadow r) (named || s.manager.roleLive == 0)
        ∃ t, exec (.commitApply r) s = .next t ∧ t.commits = mapDel (roleNum r) s.commits ∧
          t.reg (perRole Reg.commitState r) = (if code = 0 then 2 else 3) ∧
          (code ≠ 0 → t.shadow r = s.shadow r ∧ t.doms = o.doms ∧ t.reg (perRole Reg.commitAbort r) = code ∧
            ∀ k ∈ committedNumbers, t.reg k = s.reg k) ∧
          (code = 0 → t.shadow r = ⟨[], []⟩ ∧ t.reg (perRole Reg.lastAppliedBeat r) = s.nextBeat ∧
            (∀ k ∈ committedNumbers, t.reg k = (o.overlay (s.shadow r)).reg k) ∧
            ∀ k ∈ committedTables, t.dom k = (o.overlay (s.shadow r)).dom k)) ∧
      (s.noBeat = false → s.nextBeat < b → exec (.commitApply r) s = .next s)) ∧
    (mapGet (roleNum r) s.commits = none → (s.shadow r).size ≠ 0 → ∃ t, exec (.commitDiscard r) s = .next t ∧
      t.shadow r = ⟨[], []⟩ ∧ t.doms = s.doms ∧ t.commits = s.commits)

/-! ### Frames of the device's own commands -/

/-- Every command of homes, images and flash, of managers and partitions, of the swap's arming, of loader objects, of
cancelled and discarded commits, of stores, reports and diagnostics, and of the I3C target completes, and its frame: it
changes the named fields of the state and the named numbers, and nothing else; a refused one its own role's LAST_ABORT. -/
def Obligations.ManagementFrame : Prop :=
  ∀ (s : State) (i : Instr),
    ((∃ r a b c d e, i = .alloc r a b c d e) ∨ (∃ r a b, i = .free r a b) ∨ (∃ r a b c d e, i = .move r a b c d e) ∨
      (∃ r a b c d, i = .park r a b c d) ∨ (∃ r a b, i = .unpark r a b) →
      ∃ t, exec i s = .next t ∧ t = { s with regs := t.regs, free := t.free, tiers := t.tiers } ∧
        t.tiers.images = s.tiers.images ∧ t.tiers.shared = s.tiers.shared ∧ t.tiers.log = s.tiers.log ∧
        ∀ k, k ∉ answerRegs ++ [Reg.movesFailed] → t.reg k = s.reg k) ∧
    ((∃ a b, i = .moveDone a b) → ∃ t, exec i s = .next t ∧ t = { s with regs := t.regs, free := t.free, tiers := t.tiers } ∧
      t.tiers.images = s.tiers.images ∧ t.tiers.shared = s.tiers.shared ∧
      ∀ k, k ∉ [Reg.cxlPoison, Reg.cxlTimeouts, Reg.flashUe, Reg.hbmUe, Reg.movesDone, Reg.movesFailed] → t.reg k = s.reg k) ∧
    ((∃ r b, i = .imageStore r b) → ∃ t, exec i s = .next t ∧
      t = { s with regs := t.regs, free := t.free,
                   tiers := { s.tiers with images := t.tiers.images, erases := t.tiers.erases, written := t.tiers.written } } ∧
      ∀ k, k ∉ answerRegs → t.reg k = s.reg k) ∧
    ((∃ r a, i = .imageDelete r a) → ∃ t, exec i s = .next t ∧ t = { s with regs := t.regs, tiers := t.tiers } ∧
      t.tiers.homes = s.tiers.homes ∧ t.tiers.kv = s.tiers.kv ∧ ∀ k, k ∉ answerRegs → t.reg k = s.reg k) ∧
    ((∃ a b, i = .readDisturbRelocate a b) ∨ (∃ a b, i = .forcedRelocation a b) → ∃ t, exec i s = .next t ∧
      t = { s with regs := t.regs, tiers := { s.tiers with reads := t.tiers.reads, erases := t.tiers.erases,
                                                           deferred := t.tiers.deferred, forced := t.tiers.forced } } ∧
      ∀ k, k ∉ [Reg.flashReloc, Reg.flashForced] → t.reg k = s.reg k) ∧
    ((∃ a b c, i = .blockRetire a b c) ∨ (∃ a b, i = .cxlPortRetrain a b) ∨ (∃ a b, i = .dramRefresh a b) →
      ∃ t, exec i s = .next t ∧ t = { s with tiers := { s.tiers with retired := t.tiers.retired, cxlState := t.tiers.cxlState,
                                                                     refreshDue := t.tiers.refreshDue } }) ∧
    ((∃ a b c d, i = .hello a b c d) → ∃ t, exec i s = .next t ∧
      t = { s with regs := t.regs, fabric := { s.fabric with inject := t.fabric.inject, landing := t.fabric.landing },
                   manager := { s.manager with domain := t.manager.domain } } ∧
      ∀ k, k ∉ [Reg.admitRefused, Reg.domainSize] → t.reg k = s.reg k) ∧
    ((∃ a b, i = .admitReply a b) ∨ (∃ a b, i = .adopt a b) → ∃ t, exec i s = .next t ∧
      t = { s with regs := t.regs, fabric := { s.fabric with landing := t.fabric.landing },
                   manager := { s.manager with lastHeard := t.manager.lastHeard, silent := t.manager.silent } } ∧
      ∀ k, k ∉ [Reg.managerLoc, Reg.mgrState, Reg.adoptions] → t.reg k = s.reg k) ∧
    (i = .heartbeatSend → ∃ t, exec i s = .next t ∧ t = { s with fabric := { s.fabric with inject := t.fabric.inject } }) ∧
    ((∃ a, i = .heartbeatReceive a) → ∃ t, exec i s = .next t ∧
      t = { s with regs := t.regs, free := t.free,
                   fabric := { s.fabric with inject := t.fabric.inject, landing := t.fabric.landing },
                   manager := { s.manager with domain := t.manager.domain, lastHeard := t.manager.lastHeard,
                                               silent := t.manager.silent } } ∧
      ∀ k, k ≠ Reg.domainSize → t.reg k = s.reg k) ∧
    ((∃ a, i = .heartbeatMissing a) → ∃ t, exec i s = .next t ∧
      t = { s with regs := t.regs, fabric := { s.fabric with ports := t.fabric.ports },
                   manager := { s.manager with domain := t.manager.domain }, time := { s.time with hallTime := t.time.hallTime } } ∧
      t.reg Reg.partState = s.reg Reg.partState ∧ t.reg Reg.beatNumber = s.reg Reg.beatNumber) ∧
    ((∃ a b c, i = .portFailed a b c) ∨ (∃ a b c, i = .laneRemapped a b c) → ∃ t, exec i s = .next t ∧
      t = { s with regs := t.regs, fabric := { s.fabric with landing := t.fabric.landing },
                   manager := { s.manager with domain := t.manager.domain, faultLog := t.manager.faultLog } } ∧
      ∀ k, k ∉ [Reg.devicesLost, Reg.domainSize, Reg.faultReports] → t.reg k = s.reg k) ∧
    ((∃ a b c, i = .tenantError a b c) → ∃ t, exec i s = .next t ∧
      t = { s with regs := t.regs, fabric := { s.fabric with inject := t.fabric.inject, landing := t.fabric.landing },
                   manager := { s.manager with faultLog := t.manager.faultLog } } ∧
      ∀ k, k ≠ Reg.faultReports → t.reg k = s.reg k) ∧
    ((∃ a b, i = .failover a b) → ∃ t, exec i s = .next t ∧
      t = { s with fabric := { s.fabric with landing := t.fabric.landing },
                   manager := { s.manager with ended := t.manager.ended, replica := t.manager.replica } }) ∧
    ((∃ a b, i = .replicaLoadDone a b) → ∃ t, exec i s = .next t ∧
      t = { s with regs := t.regs, free := t.free, manager := { s.manager with replica := t.manager.replica },
                   platforms := { s.platforms with reserve := t.platforms.reserve },
                   tiers := { s.tiers with hbmBad := t.tiers.hbmBad, reads := t.tiers.reads, slowBad := t.tiers.slowBad } } ∧
      ∀ k, k ∉ [Reg.cxlPoison, Reg.flashUe, Reg.hbmUe, Reg.replicaFails] → t.reg k = s.reg k) ∧
    ((∃ r, i = .start r) ∨ (∃ r, i = .teardown r) → ∃ t, exec i s = .next t ∧
      t = { s with regs := t.regs, manager := { s.manager with partDue := t.manager.partDue } } ∧
      ∀ k, k ∉ answerRegs ++ [Reg.partState, Reg.startHolds] → t.reg k = s.reg k) ∧
    ((∃ r b, i = .readmit r b) → ∃ t, exec i s = .next t ∧
      t = { s with regs := t.regs, manager := { s.manager with admitBeat := t.manager.admitBeat } } ∧
      ∀ k, k ∉ answerRegs → t.reg k = s.reg k) ∧
    (i = .partitionRun → ∃ t, exec i s = .next t ∧
      t = { s with regs := t.regs, manager := { s.manager with partDue := t.manager.partDue },
                   time := { s.time with joined := t.time.joined } } ∧
      ∀ k, k ≠ Reg.partState → t.reg k = s.reg k) ∧
    ((∃ r b, i = .hallTimeSet r b) → ∃ t, exec i s = .next t ∧
      t = { s with regs := t.regs, time := { s.time with hallTime := t.time.hallTime, hallTimeSet := t.time.hallTimeSet } } ∧
      ∀ k, k ∉ answerRegs → t.reg k = s.reg k) ∧
    ((∃ r, i = .swapArm r) ∨ (∃ r, i = .swapDisarm r) → ∃ t, exec i s = .next t ∧ t = { s with regs := t.regs, swap := t.swap } ∧
      t.swap.times = s.swap.times ∧ ∀ k, k ∉ answerRegs ++ [Reg.swapResumeBeat, Reg.swapState] → t.reg k = s.reg k) ∧
    ((∃ r a b c, i = .bankWrite r a b c) → ∃ t, exec i s = .next t ∧ t = { s with regs := t.regs, cores := t.cores } ∧
      ∀ k, k ∉ answerRegs → (∀ c, k ≠ Reg.loadAbort c) → t.reg k = s.reg k) ∧
    ((∃ r a b, i = .segTemplatesWrite r a b) → ∃ t, exec i s = .next t ∧ t = { s with regs := t.regs, shadows := t.shadows } ∧
      ∀ k, k ∉ answerRegs → (∀ c, k ≠ Reg.loadAbort c) → t.reg k = s.reg k) ∧
    ((∃ r, i = .commitCancel r) → ∃ t, exec i s = .next t ∧ t = { s with regs := t.regs, commits := t.commits } ∧
      ∀ k, k ∉ answerRegs → (∀ r, k ≠ perRole Reg.commitState r) → t.reg k = s.reg k) ∧
    ((∃ r, i = .commitDiscard r) → ∃ t, exec i s = .next t ∧ t = { s with regs := t.regs, shadows := t.shadows, yards := t.yards } ∧
      t.yards.replies = s.yards.replies ∧ t.yards.inputs = s.yards.inputs ∧ t.yards.kept = s.yards.kept ∧
      ∀ k, k ∉ answerRegs ++ [Reg.gateOwner, Reg.gateCopyBusy] → t.reg k = s.reg k) ∧
    ((∃ r v, i = .store r v) ∨ (∃ r v, i = .restoreDefaults r v) → ∃ t, exec i s = .next t ∧
      t = { s with regs := t.regs, nv := { s.nv with storing := t.nv.storing } } ∧
      ∀ k, k ∉ answerRegs ++ [Reg.storeState] → t.reg k = s.reg k) ∧
    ((∃ b, i = .storeDone b) → ∃ t, exec i s = .next t ∧
      t = { s with regs := t.regs, nv := { s.nv with bankA := t.nv.bankA, bankB := t.nv.bankB, storesA := t.nv.storesA,
                                                     storesB := t.nv.storesB, storing := t.nv.storing } } ∧
      ∀ k, k ≠ Reg.storeState → t.reg k = s.reg k) ∧
    ((∃ r b, i = .fwUpdate r b) → ∃ t, exec i s = .next t ∧
      t = { s with regs := t.regs, nv := { s.nv with fwA := t.nv.fwA, fwB := t.nv.fwB, fwBytes := t.nv.fwBytes } } ∧
      ∀ k, k ∉ answerRegs ++ [Reg.fwUpdateState] → t.reg k = s.reg k) ∧
    ((∃ r b, i = .attestNonce r b) ∨ i = .attestCapture ∨ (∃ r, i = .attestSigned r) → ∃ t, exec i s = .next t ∧
      t = { s with regs := t.regs, security := { s.security with attests := t.security.attests } } ∧
      ∀ k, k ∉ answerRegs → (∀ r, k ≠ perRole Reg.attestState r) → t.reg k = s.reg k) ∧
    ((∃ r, i = .hbmMargin r) ∨ (∃ r, i = .eyeScan r) ∨ (∃ r, i = .flashCheck r) ∨ (∃ r, i = .sramTest r) →
      ∃ t, exec i s = .next t ∧
        t = { s with regs := t.regs, package := { s.package with diagArg := t.package.diagArg, diagCmd := t.package.diagCmd } } ∧
        ∀ k, k ∉ answerRegs ++ [Reg.diagState] → t.reg k = s.reg k) ∧
    ((∃ r b, i = .clipFlagsClear r b) ∨ (∃ r v, i = .auditAlarmClear r v) ∨ i = .reproKeyRecompute → ∃ t, exec i s = .next t ∧
      t = { s with regs := t.regs, doms := t.doms, security := { s.security with repro := t.security.repro } } ∧
      (∀ k, k ∉ answerRegs ++ [Reg.auditAlarm, Reg.reproStale] → t.reg k = s.reg k) ∧
      ∀ k, k ≠ Reg.clipFlags → k ≠ Reg.reproKey → t.dom k = s.dom k) ∧
    ((∃ v, i = .vidStep v) → ∃ t, exec i s = .next t ∧
      t = { s with regs := t.regs, package := { s.package with vid := t.package.vid } } ∧
      ∀ k, k ≠ Reg.vddCoreSet → t.reg k = s.reg k) ∧
    ((∃ a b, i = .i3cRead a b) ∨ i = .i3cStatusRead ∨ (∃ a b, i = .setdasa a b) ∨ (∃ a, i = .entdaa a) ∨
      i = .i3cTargetReady ∨ (∃ a b, i = .badWindowAccess a b) → ∃ t, exec i s = .next t ∧
      t = { s with regs := t.regs, host := { s.host with i3c := t.host.i3c, reply := t.host.reply } } ∧
      ∀ k, k ∉ [Reg.dxTransfers, Reg.badAccess] → t.reg k = s.reg k)
end

