-- ==== Sys2Proof/Laws/Dispatch.lean ====
section
/-! SUPPORT. The dispatch, one equation for each command, and the step at a queue with a command in front. -/

namespace Sys2Proof.Machine

open Sys2Proof

@[simp] theorem exec_tick (s : State) (unfinished : List Unfinished) : exec (.tick unfinished) s = execTick unfinished s := rfl
@[simp] theorem exec_cut (s : State) (unit : Nat) : exec (.cut unit) s = execCut unit s := rfl
@[simp] theorem exec_commitApply (s : State) (r : Role) : exec (.commitApply r) s = execCommitApply r s := rfl
@[simp] theorem exec_tokenLost (s : State) (tag lane : Nat) : exec (.tokenLost tag lane) s = execTokenLost tag lane s := rfl
@[simp] theorem exec_maintenanceSlot (s : State) (corrected : Nat) (audited : List Nat) : exec (.maintenanceSlot corrected audited) s = execMaintenanceSlot corrected audited s := rfl
@[simp] theorem exec_dramRefresh (s : State) (channel : Nat) (foreground : Bool) : exec (.dramRefresh channel foreground) s = execDramRefresh channel foreground s := rfl
@[simp] theorem exec_timeExchange (s : State) (port domain managerTime : Nat) (offsetPs : Int) (delayPs boundPs managerBoundPs : Nat) : exec (.timeExchange port domain managerTime offsetPs delayPs boundPs managerBoundPs) s = execTimeExchange port domain managerTime offsetPs delayPs boundPs managerBoundPs s := rfl
@[simp] theorem exec_holdoverEntry (s : State) : exec (.holdoverEntry) s = execHoldoverEntry s := rfl
@[simp] theorem exec_timeHoldEntry (s : State) : exec (.timeHoldEntry) s = execTimeHoldEntry s := rfl
@[simp] theorem exec_hallTimeSet (s : State) (r : Role) (t : Nat) : exec (.hallTimeSet r t) s = execHallTimeSet r t s := rfl
@[simp] theorem exec_commitNextTick (s : State) (r : Role) : exec (.commitNextTick r) s = execCommitNextTick r s := rfl
@[simp] theorem exec_commitAtBeat (s : State) (r : Role) : exec (.commitAtBeat r) s = execCommitAtBeat r s := rfl
@[simp] theorem exec_commitCancel (s : State) (r : Role) : exec (.commitCancel r) s = execCommitCancel r s := rfl
@[simp] theorem exec_commitDiscard (s : State) (r : Role) : exec (.commitDiscard r) s = execCommitDiscard r s := rfl
@[simp] theorem exec_dictionaryWrite (s : State) (r : Role) (index sub : Nat) (value : List Byte) : exec (.dictionaryWrite r index sub value) s = execDictionaryWrite r index sub value s := rfl
@[simp] theorem exec_stage2Result (s : State) (tok : TokenId) (lslot nextRank nextCluster : Nat) (hidden residual : List BF16) : exec (.stage2Result tok lslot nextRank nextCluster hidden residual) s = execStage2Result tok lslot nextRank nextCluster hidden residual s := rfl
@[simp] theorem exec_stripedGroupRequest (s : State) (lslot group : Nat) (tok : TokenId) (hidden : List BF16) : exec (.stripedGroupRequest lslot group tok hidden) s = execStripedGroupRequest lslot group tok hidden s := rfl
@[simp] theorem exec_kvBlockSelection (s : State) (core ctr lslot : Nat) (tok : TokenId) (entry summary : List Byte) (scores : List FP32) : exec (.kvBlockSelection core ctr lslot tok entry summary scores) s = execKvBlockSelection core ctr lslot tok entry summary scores s := rfl
@[simp] theorem exec_gateCopyDone (s : State) : exec (.gateCopyDone) s = execGateCopyDone s := rfl
@[simp] theorem exec_consistHeaderArrival (s : State) (p : BeatPacket) : exec (.consistHeaderArrival p) s = execConsistHeaderArrival p s := rfl
@[simp] theorem exec_chainAllocate (s : State) (cluster : Nat) : exec (.chainAllocate cluster) s = execChainAllocate cluster s := rfl
@[simp] theorem exec_consistArrival (s : State) (cluster : Nat) (p : BeatPacket) : exec (.consistArrival cluster p) s = execConsistArrival cluster p s := rfl
@[simp] theorem exec_intakeClose (s : State) : exec (.intakeClose) s = execIntakeClose s := rfl
@[simp] theorem exec_predictionComplete (s : State) (pslot : Nat) (tok : TokenId) (choice : Nat) : exec (.predictionComplete pslot tok choice) s = execPredictionComplete pslot tok choice s := rfl
@[simp] theorem exec_segmentSeal (s : State) (core : Nat) : exec (.segmentSeal core) s = execSegmentSeal core s := rfl
@[simp] theorem exec_expertAnswerSend (s : State) (pslot : Nat) (tok : TokenId) (choice : Nat) (overrun : Bool) (src : Nat) : exec (.expertAnswerSend pslot tok choice overrun src) s = execExpertAnswerSend pslot tok choice overrun src s := rfl
@[simp] theorem exec_answerArrival (s : State) (p : BeatPacket) : exec (.answerArrival p) s = execAnswerArrival p s := rfl
@[simp] theorem exec_refusalArrival (s : State) (p : BeatPacket) : exec (.refusalArrival p) s = execRefusalArrival p s := rfl
@[simp] theorem exec_manifestArrival (s : State) (p : BeatPacket) : exec (.manifestArrival p) s = execManifestArrival p s := rfl
@[simp] theorem exec_orphanSweep (s : State) : exec (.orphanSweep) s = execOrphanSweep s := rfl
@[simp] theorem exec_pendingExpiry (s : State) : exec (.pendingExpiry) s = execPendingExpiry s := rfl
@[simp] theorem exec_batchCancel (s : State) (r : Role) (tag : Nat) : exec (.batchCancel r tag) s = execBatchCancel r tag s := rfl
@[simp] theorem exec_cancelNoticeArrival (s : State) (tag gen cb : Nat) : exec (.cancelNoticeArrival tag gen cb) s = execCancelNoticeArrival tag gen cb s := rfl
@[simp] theorem exec_cancelTakesEffect (s : State) (tag : Nat) : exec (.cancelTakesEffect tag) s = execCancelTakesEffect tag s := rfl
@[simp] theorem exec_cancelNoticeExpiry (s : State) (tag gen : Nat) : exec (.cancelNoticeExpiry tag gen) s = execCancelNoticeExpiry tag gen s := rfl
@[simp] theorem exec_vocabularyRequestArrival (s : State) (p : BeatPacket) (logits : List FP32) (exitCluster : Nat) : exec (.vocabularyRequestArrival p logits exitCluster) s = execVocabularyRequestArrival p logits exitCluster s := rfl
@[simp] theorem exec_candidateSetArrival (s : State) (p : BeatPacket) : exec (.candidateSetArrival p) s = execCandidateSetArrival p s := rfl
@[simp] theorem exec_vocabMerge (s : State) (tag lane entryCluster : Nat) : exec (.vocabMerge tag lane entryCluster) s = execVocabMerge tag lane entryCluster s := rfl
@[simp] theorem exec_sampleEndExpiry (s : State) (entryCluster : Nat) : exec (.sampleEndExpiry entryCluster) s = execSampleEndExpiry entryCluster s := rfl
@[simp] theorem exec_sampledTokenArrival (s : State) (p : BeatPacket) : exec (.sampledTokenArrival p) s = execSampledTokenArrival p s := rfl

@[simp] theorem exec_wordIssue (s : State) (core : Nat) : exec (.wordIssue core) s = execWordIssue core s := rfl
@[simp] theorem exec_fence (s : State) (core : Nat) (mask : List Engine) : exec (.fence core mask) s = execFence core mask s := rfl
@[simp] theorem exec_raise (s : State) (core : Nat) (line : LineRef) (n : Nat) : exec (.raise core line n) s = execRaise core line n s := rfl
@[simp] theorem exec_wait (s : State) (core : Nat) (line : LineRef) : exec (.wait core line) s = execWait core line s := rfl
@[simp] theorem exec_barrier (s : State) (core : Nat) (line : LineRef) (n : Nat) : exec (.barrier core line n) s = execBarrier core line n s := rfl
@[simp] theorem exec_waitOffset (s : State) (core : Nat) (t : Nat) : exec (.waitOffset core t) s = execWaitOffset core t s := rfl
@[simp] theorem exec_hold (s : State) (core cp : Nat) : exec (.hold core cp) s = execHold core cp s := rfl
@[simp] theorem exec_config (s : State) (core cp : Nat) (setting : CmpSetting) : exec (.config core cp setting) s = execConfig core cp setting s := rfl
@[simp] theorem exec_splice (s : State) (core : Nat) : exec (.splice core) s = execSplice core s := rfl
@[simp] theorem exec_aePass (s : State) (core : Nat) (p : AePass) : exec (.aePass core p) s = execAePass core p s := rfl
@[simp] theorem exec_aeTileLoad (s : State) (core : Nat) (t : TileDesc) : exec (.aeTileLoad core t) s = execAeTileLoad core t s := rfl
@[simp] theorem exec_weightSwap (s : State) (core waited : Nat) : exec (.weightSwap core waited) s = execWeightSwap core waited s := rfl
@[simp] theorem exec_readout (s : State) (core : Nat) (d : ReadOut) : exec (.readout core d) s = execReadout core d s := rfl
@[simp] theorem exec_sePass (s : State) (core : Nat) (p : SePass) : exec (.sePass core p) s = execSePass core p s := rfl
@[simp] theorem exec_veOperation (s : State) (core : Nat) (o : VeOp) : exec (.veOperation core o) s = execVeOperation core o s := rfl
@[simp] theorem exec_quantise (s : State) (core : Nat) (d : QuantDesc) : exec (.quantise core d) s = execQuantise core d s := rfl
@[simp] theorem exec_dequantise (s : State) (core : Nat) (d : DequantDesc) : exec (.dequantise core d) s = execDequantise core d s := rfl
@[simp] theorem exec_rotate (s : State) (core : Nat) (d : DequantDesc) : exec (.rotate core d) s = execRotate core d s := rfl
@[simp] theorem exec_readOutToMx (s : State) (core : Nat) (d : ReadMx) : exec (.readOutToMx core d) s = execReadOutToMx core d s := rfl
@[simp] theorem exec_readOutWithInverseRotation (s : State) (core : Nat) (d : ReadMx) : exec (.readOutWithInverseRotation core d) s = execReadOutWithInverseRotation core d s := rfl
@[simp] theorem exec_moverTransfer (s : State) (core : Nat) (add : Option AddType) (src dst : MvPlace) (len : Nat) : exec (.moverTransfer core add src dst len) s = execMoverTransfer core add src dst len s := rfl
@[simp] theorem exec_mvRemoteRead (s : State) (core rank jva len : Nat) (dst : Addr) (cache : Bool) : exec (.mvRemoteRead core rank jva len dst cache) s = execMvRemoteRead core rank jva len dst cache s := rfl
@[simp] theorem exec_mvRemoteWrite (s : State) (core rank jva len : Nat) (src : Addr) : exec (.mvRemoteWrite core rank jva len src) s = execMvRemoteWrite core rank jva len src s := rfl
@[simp] theorem exec_mvRemoteAdd (s : State) (core rank jva : Nat) (dtype : AddType) (src : Addr) : exec (.mvRemoteAdd core rank jva dtype src) s = execMvRemoteAdd core rank jva dtype src s := rfl
@[simp] theorem exec_mvInvalidate (s : State) (core rank jva len : Nat) : exec (.mvInvalidate core rank jva len) s = execMvInvalidate core rank jva len s := rfl
@[simp] theorem exec_atomicAdd (s : State) (core cluster off : Nat) (wide : Bool) (v : Nat) (dst : Addr) : exec (.atomicAdd core cluster off wide v dst) s = execAtomicAdd core cluster off wide v dst s := rfl
@[simp] theorem exec_atomicMin (s : State) (core cluster off : Nat) (wide : Bool) (v : Nat) (dst : Addr) : exec (.atomicMin core cluster off wide v dst) s = execAtomicMin core cluster off wide v dst s := rfl
@[simp] theorem exec_atomicMax (s : State) (core cluster off : Nat) (wide : Bool) (v : Nat) (dst : Addr) : exec (.atomicMax core cluster off wide v dst) s = execAtomicMax core cluster off wide v dst s := rfl
@[simp] theorem exec_atomicSwap (s : State) (core cluster off : Nat) (wide : Bool) (v : Nat) (dst : Addr) : exec (.atomicSwap core cluster off wide v dst) s = execAtomicSwap core cluster off wide v dst s := rfl
@[simp] theorem exec_compareSwap (s : State) (core cluster off : Nat) (wide : Bool) (expected v : Nat) (dst : Addr) : exec (.compareSwap core cluster off wide expected v dst) s = execCompareSwap core cluster off wide expected v dst s := rfl
@[simp] theorem exec_bankWrite (s : State) (r : Role) (core bank : Nat) (obj : List Byte) : exec (.bankWrite r core bank obj) s = execBankWrite r core bank obj s := rfl
@[simp] theorem exec_segTemplatesWrite (s : State) (r : Role) (core : Nat) (obj : List Byte) : exec (.segTemplatesWrite r core obj) s = execSegTemplatesWrite r core obj s := rfl
@[simp] theorem exec_flitReceive (s : State) (port : Nat) (flit : List Byte) (fixed lost : Nat) : exec (.flitReceive port flit fixed lost) s = execFlitReceive port flit fixed lost s := rfl
@[simp] theorem exec_retryRequest (s : State) (port seqNo : Nat) : exec (.retryRequest port seqNo) s = execRetryRequest port seqNo s := rfl
@[simp] theorem exec_laneFault (s : State) (port lane : Nat) : exec (.laneFault port lane) s = execLaneFault port lane s := rfl
@[simp] theorem exec_laneRemapDone (s : State) (port : Nat) : exec (.laneRemapDone port) s = execLaneRemapDone port s := rfl
@[simp] theorem exec_portSilenceTimeout (s : State) (port : Nat) : exec (.portSilenceTimeout port) s = execPortSilenceTimeout port s := rfl
@[simp] theorem exec_portFail (s : State) (port : Nat) : exec (.portFail port) s = execPortFail port s := rfl
@[simp] theorem exec_portTrainingDone (s : State) (port : Nat) (up : Bool) (peer peerPort : Nat) : exec (.portTrainingDone port up peer peerPort) s = execPortTrainingDone port up peer peerPort s := rfl
@[simp] theorem exec_packetRoute (s : State) (inPort : Option Nat) (p : Packet) : exec (.packetRoute inPort p) s = execPacketRoute inPort p s := rfl

@[simp] theorem exec_truncatedPacketArrival (s : State) (p : Packet) : exec (.truncatedPacketArrival p) s = execTruncatedPacketArrival p s := rfl
@[simp] theorem exec_multicastInject (s : State) (cls group mask srcCluster : Nat) (body : Body) : exec (.multicastInject cls group mask srcCluster body) s = execMulticastInject cls group mask srcCluster body s := rfl
@[simp] theorem exec_undeliverableNoticeArrival (s : State) (cause : Nat) (copy : List Byte) : exec (.undeliverableNoticeArrival cause copy) s = execUndeliverableNoticeArrival cause copy s := rfl
@[simp] theorem exec_endNoticeArrival (s : State) (tag lane position gen cause : Nat) : exec (.endNoticeArrival tag lane position gen cause) s = execEndNoticeArrival tag lane position gen cause s := rfl
@[simp] theorem exec_drainStart (s : State) (r : Role) : exec (.drainStart r) s = execDrainStart r s := rfl
@[simp] theorem exec_drainRelease (s : State) (r : Role) : exec (.drainRelease r) s = execDrainRelease r s := rfl
@[simp] theorem exec_drainDone (s : State) : exec (.drainDone) s = execDrainDone s := rfl
@[simp] theorem exec_drainTimeout (s : State) : exec (.drainTimeout) s = execDrainTimeout s := rfl
@[simp] theorem exec_rmRead (s : State) (p : RmPacket) : exec (.rmRead p) s = execRmRead p s := rfl
@[simp] theorem exec_rmWrite (s : State) (p : RmPacket) : exec (.rmWrite p) s = execRmWrite p s := rfl
@[simp] theorem exec_rmAdd (s : State) (p : RmPacket) : exec (.rmAdd p) s = execRmAdd p s := rfl
@[simp] theorem exec_readData (s : State) (p : RmPacket) : exec (.readData p) s = execReadData p s := rfl
@[simp] theorem exec_ack (s : State) (p : RmPacket) : exec (.ack p) s = execAck p s := rfl
@[simp] theorem exec_nak (s : State) (p : RmPacket) : exec (.nak p) s = execNak p s := rfl
@[simp] theorem exec_invalidate (s : State) (p : RmPacket) : exec (.invalidate p) s = execInvalidate p s := rfl
@[simp] theorem exec_invAck (s : State) (p : RmPacket) : exec (.invAck p) s = execInvAck p s := rfl
@[simp] theorem exec_rmTimeout (s : State) (core tag : Nat) : exec (.rmTimeout core tag) s = execRmTimeout core tag s := rfl
@[simp] theorem exec_rmRecall (s : State) (r : Role) (jpn : Nat) : exec (.rmRecall r jpn) s = execRmRecall r jpn s := rfl
@[simp] theorem exec_recallDone (s : State) : exec (.recallDone) s = execRecallDone s := rfl
@[simp] theorem exec_collStart (s : State) (src : CollSource) : exec (.collStart src) s = execCollStart src s := rfl
@[simp] theorem exec_ready (s : State) (p : CollPacket) : exec (.ready p) s = execReady p s := rfl
@[simp] theorem exec_data (s : State) (p : CollPacket) : exec (.data p) s = execData p s := rfl
@[simp] theorem exec_collAck (s : State) (p : CollPacket) : exec (.collAck p) s = execCollAck p s := rfl
@[simp] theorem exec_resend (s : State) (p : CollPacket) : exec (.resend p) s = execResend p s := rfl
@[simp] theorem exec_abort (s : State) (p : CollPacket) : exec (.abort p) s = execAbort p s := rfl
@[simp] theorem exec_collTimeout (s : State) (group seqNo : Nat) : exec (.collTimeout group seqNo) s = execCollTimeout group seqNo s := rfl
@[simp] theorem exec_alloc (s : State) (r : Role) (tier : Nat) (spread : Bool) (port cluster count : Nat) : exec (.alloc r tier spread port cluster count) s = execAlloc r tier spread port cluster count s := rfl
@[simp] theorem exec_free (s : State) (r : Role) (home tier : Nat) : exec (.free r home tier) s = execFree r home tier s := rfl
@[simp] theorem exec_move (s : State) (r : Role) (home tier : Nat) (spread : Bool) (port cluster : Nat) : exec (.move r home tier spread port cluster) s = execMove r home tier spread port cluster s := rfl
@[simp] theorem exec_park (s : State) (r : Role) (tag lane tier port : Nat) : exec (.park r tag lane tier port) s = execPark r tag lane tier port s := rfl
@[simp] theorem exec_unpark (s : State) (r : Role) (tag lane : Nat) : exec (.unpark r tag lane) s = execUnpark r tag lane s := rfl
@[simp] theorem exec_moveDone (s : State) (home : Nat) (cause : Nat) : exec (.moveDone home cause) s = execMoveDone home cause s := rfl
@[simp] theorem exec_imageStore (s : State) (r : Role) (bytes : List Byte) : exec (.imageStore r bytes) s = execImageStore r bytes s := rfl
@[simp] theorem exec_imageDelete (s : State) (r : Role) (id : Nat) : exec (.imageDelete r id) s = execImageDelete r id s := rfl
@[simp] theorem exec_imageLoad (s : State) (r : Role) (pslot : Nat) : exec (.imageLoad r pslot) s = execImageLoad r pslot s := rfl
@[simp] theorem exec_imageLoadDone (s : State) (pslot : Nat) (readOk : Bool) : exec (.imageLoadDone pslot readOk) s = execImageLoadDone pslot readOk s := rfl
@[simp] theorem exec_sramUeDetect (s : State) (store : SramStore) (corrected : Bool) : exec (.sramUeDetect store corrected) s = execSramUeDetect store corrected s := rfl
@[simp] theorem exec_hbmUeDetect (s : State) (line : Nat) (patrol corrected : Bool) (reader : Option (Nat × Nat)) : exec (.hbmUeDetect line patrol corrected reader) s = execHbmUeDetect line patrol corrected reader s := rfl
@[simp] theorem exec_forcedRelocation (s : State) (stack channel : Nat) : exec (.forcedRelocation stack channel) s = execForcedRelocation stack channel s := rfl
@[simp] theorem exec_readDisturbRelocate (s : State) (stack block : Nat) : exec (.readDisturbRelocate stack block) s = execReadDisturbRelocate stack block s := rfl

@[simp] theorem exec_blockRetire (s : State) (stack block spare : Nat) : exec (.blockRetire stack block spare) s = execBlockRetire stack block spare s := rfl
@[simp] theorem exec_cxlTimeout (s : State) (core id : Nat) : exec (.cxlTimeout core id) s = execCxlTimeout core id s := rfl
@[simp] theorem exec_cxlCompletion (s : State) (core id : Nat) (poisoned : Bool) : exec (.cxlCompletion core id poisoned) s = execCxlCompletion core id poisoned s := rfl
@[simp] theorem exec_tenantRegister (s : State) (r : Role) (slot tenant share : Nat) : exec (.tenantRegister r slot tenant share) s = execTenantRegister r slot tenant share s := rfl
@[simp] theorem exec_tenantDeregister (s : State) (r : Role) (slot : Nat) : exec (.tenantDeregister r slot) s = execTenantDeregister r slot s := rfl
@[simp] theorem exec_sessionBind (s : State) (r : Role) (slot : Nat) : exec (.sessionBind r slot) s = execSessionBind r slot s := rfl
@[simp] theorem exec_swapArm (s : State) (r : Role) : exec (.swapArm r) s = execSwapArm r s := rfl
@[simp] theorem exec_swapDisarm (s : State) (r : Role) : exec (.swapDisarm r) s = execSwapDisarm r s := rfl
@[simp] theorem exec_swapEpoch (s : State) : exec (.swapEpoch) s = execSwapEpoch s := rfl
@[simp] theorem exec_swapSaveStart (s : State) : exec (.swapSaveStart) s = execSwapSaveStart s := rfl
@[simp] theorem exec_swapSaveDone (s : State) : exec (.swapSaveDone) s = execSwapSaveDone s := rfl
@[simp] theorem exec_swapScrubDone (s : State) : exec (.swapScrubDone) s = execSwapScrubDone s := rfl
@[simp] theorem exec_swapRestoreDone (s : State) (readOk : Bool) : exec (.swapRestoreDone readOk) s = execSwapRestoreDone readOk s := rfl
@[simp] theorem exec_swapResume (s : State) : exec (.swapResume) s = execSwapResume s := rfl
@[simp] theorem exec_interferenceMinuteClose (s : State) : exec (.interferenceMinuteClose) s = execInterferenceMinuteClose s := rfl
@[simp] theorem exec_reproKeyRecompute (s : State) : exec (.reproKeyRecompute) s = execReproKeyRecompute s := rfl
@[simp] theorem exec_hello (s : State) (location grade stepping domain : Nat) : exec (.hello location grade stepping domain) s = execHello location grade stepping domain s := rfl
@[simp] theorem exec_admitReply (s : State) (manager domain : Nat) : exec (.admitReply manager domain) s = execAdmitReply manager domain s := rfl
@[simp] theorem exec_adopt (s : State) (standby domain : Nat) : exec (.adopt standby domain) s = execAdopt standby domain s := rfl
@[simp] theorem exec_heartbeatSend (s : State) : exec (.heartbeatSend) s = execHeartbeatSend s := rfl
@[simp] theorem exec_heartbeatReceive (s : State) (sender : Nat) : exec (.heartbeatReceive sender) s = execHeartbeatReceive sender s := rfl
@[simp] theorem exec_mgrSilenceExpiry (s : State) : exec (.mgrSilenceExpiry) s = execMgrSilenceExpiry s := rfl
@[simp] theorem exec_heartbeatMissing (s : State) (dev : Nat) : exec (.heartbeatMissing dev) s = execHeartbeatMissing dev s := rfl
@[simp] theorem exec_portFailed (s : State) (port peer reporter : Nat) : exec (.portFailed port peer reporter) s = execPortFailed port peer reporter s := rfl
@[simp] theorem exec_laneRemapped (s : State) (port lane reporter : Nat) : exec (.laneRemapped port lane reporter) s = execLaneRemapped port lane reporter s := rfl
@[simp] theorem exec_deviceFault (s : State) (cause reporter : Nat) : exec (.deviceFault cause reporter) s = execDeviceFault cause reporter s := rfl
@[simp] theorem exec_tenantError (s : State) (unit cause reporter : Nat) : exec (.tenantError unit cause reporter) s = execTenantError unit cause reporter s := rfl
@[simp] theorem exec_mgmtCoreMiss (s : State) : exec (.mgmtCoreMiss) s = execMgmtCoreMiss s := rfl
@[simp] theorem exec_start (s : State) (r : Role) : exec (.start r) s = execStart r s := rfl
@[simp] theorem exec_partitionRun (s : State) : exec (.partitionRun) s = execPartitionRun s := rfl
@[simp] theorem exec_teardown (s : State) (r : Role) : exec (.teardown r) s = execTeardown r s := rfl
@[simp] theorem exec_teardownBeat (s : State) : exec (.teardownBeat) s = execTeardownBeat s := rfl
@[simp] theorem exec_readmit (s : State) (r : Role) (beat : Nat) : exec (.readmit r beat) s = execReadmit r beat s := rfl
@[simp] theorem exec_rejoin (s : State) : exec (.rejoin) s = execRejoin s := rfl
@[simp] theorem exec_failover (s : State) (lost standin : Nat) : exec (.failover lost standin) s = execFailover lost standin s := rfl
@[simp] theorem exec_replicaLoadDone (s : State) (rank : Nat) (ok : Bool) : exec (.replicaLoadDone rank ok) s = execReplicaLoadDone rank ok s := rfl
@[simp] theorem exec_dxRequest (s : State) (src : Nat) (h : DxHdr) (payload : List Byte) : exec (.dxRequest src h payload) s = execDxRequest src h payload s := rfl
@[simp] theorem exec_dxResponse (s : State) (h : DxHdr) (payload : List Byte) : exec (.dxResponse h payload) s = execDxResponse h payload s := rfl
@[simp] theorem exec_dxRemoteTimeout (s : State) (seqNo : Nat) : exec (.dxRemoteTimeout seqNo) s = execDxRemoteTimeout seqNo s := rfl
@[simp] theorem exec_read (s : State) (r : Role) (sel len : Word64) : exec (.read r sel len) s = execRead r sel len s := rfl

@[simp] theorem exec_write (s : State) (r : Role) (sel len : Word64) : exec (.write r sel len) s = execWrite r sel len s := rfl
@[simp] theorem exec_patch (s : State) (r : Role) (sel len : Word64) : exec (.patch r sel len) s = execPatch r sel len s := rfl
@[simp] theorem exec_cancel (s : State) (r : Role) : exec (.cancel r) s = execCancel r s := rfl
@[simp] theorem exec_dxDataWrite (s : State) (r : Role) (words : List Word64) : exec (.dxDataWrite r words) s = execDxDataWrite r words s := rfl
@[simp] theorem exec_dxDataRead (s : State) (r : Role) (n : Nat) : exec (.dxDataRead r n) s = execDxDataRead r n s := rfl
@[simp] theorem exec_dxSegmentMove (s : State) (r : Role) : exec (.dxSegmentMove r) s = execDxSegmentMove r s := rfl
@[simp] theorem exec_dxIdleTimeout (s : State) (r : Role) : exec (.dxIdleTimeout r) s = execDxIdleTimeout r s := rfl
@[simp] theorem exec_badWindowAccess (s : State) (isRead : Bool) (len : Nat) : exec (.badWindowAccess isRead len) s = execBadWindowAccess isRead len s := rfl
@[simp] theorem exec_batch (s : State) (r : Role) (rec : BitVec 128) : exec (.batch r rec) s = execBatch r rec s := rfl
@[simp] theorem exec_lane (s : State) (r : Role) (rec : BitVec 128) : exec (.lane r rec) s = execLane r rec s := rfl
@[simp] theorem exec_tokens (s : State) (r : Role) (rec : BitVec 128) : exec (.tokens r rec) s = execTokens r rec s := rfl
@[simp] theorem exec_close (s : State) (r : Role) (rec : BitVec 128) : exec (.close r rec) s = execClose r rec s := rfl
@[simp] theorem exec_streamOutRead (s : State) (r : Role) (n : Nat) : exec (.streamOutRead r n) s = execStreamOutRead r n s := rfl
@[simp] theorem exec_i3cRead (s : State) (index sub : Nat) : exec (.i3cRead index sub) s = execI3cRead index sub s := rfl
@[simp] theorem exec_i3cWrite (s : State) (index sub : Nat) (value : List Byte) : exec (.i3cWrite index sub value) s = execI3cWrite index sub value s := rfl
@[simp] theorem exec_i3cStatusRead (s : State) : exec (.i3cStatusRead) s = execI3cStatusRead s := rfl
@[simp] theorem exec_setdasa (s : State) (static dyn : Nat) : exec (.setdasa static dyn) s = execSetdasa static dyn s := rfl
@[simp] theorem exec_entdaa (s : State) (dyn : Nat) : exec (.entdaa dyn) s = execEntdaa dyn s := rfl
@[simp] theorem exec_store (s : State) (r : Role) (value : Nat) : exec (.store r value) s = execStore r value s := rfl
@[simp] theorem exec_storeDone (s : State) (readBackOk : Bool) : exec (.storeDone readBackOk) s = execStoreDone readBackOk s := rfl
@[simp] theorem exec_restoreDefaults (s : State) (r : Role) (value : Nat) : exec (.restoreDefaults r value) s = execRestoreDefaults r value s := rfl
@[simp] theorem exec_fwUpdate (s : State) (r : Role) (image : List Byte) : exec (.fwUpdate r image) s = execFwUpdate r image s := rfl
@[simp] theorem exec_fwUpdateDone (s : State) (readBackOk : Bool) : exec (.fwUpdateDone readBackOk) s = execFwUpdateDone readBackOk s := rfl
@[simp] theorem exec_attestNonce (s : State) (r : Role) (nonce : List Byte) : exec (.attestNonce r nonce) s = execAttestNonce r nonce s := rfl
@[simp] theorem exec_attestCapture (s : State) : exec (.attestCapture) s = execAttestCapture s := rfl
@[simp] theorem exec_attestSigned (s : State) (r : Role) : exec (.attestSigned r) s = execAttestSigned r s := rfl
@[simp] theorem exec_hbmMargin (s : State) (r : Role) : exec (.hbmMargin r) s = execHbmMargin r s := rfl
@[simp] theorem exec_eyeScan (s : State) (r : Role) : exec (.eyeScan r) s = execEyeScan r s := rfl
@[simp] theorem exec_flashCheck (s : State) (r : Role) : exec (.flashCheck r) s = execFlashCheck r s := rfl
@[simp] theorem exec_sramTest (s : State) (r : Role) : exec (.sramTest r) s = execSramTest r s := rfl
@[simp] theorem exec_diagDone (s : State) (recs : List DiagRec) : exec (.diagDone recs) s = execDiagDone recs s := rfl
@[simp] theorem exec_clipFlagsClear (s : State) (r : Role) (bits : List Byte) : exec (.clipFlagsClear r bits) s = execClipFlagsClear r bits s := rfl
@[simp] theorem exec_auditAlarmClear (s : State) (r : Role) (value : Nat) : exec (.auditAlarmClear r value) s = execAuditAlarmClear r value s := rfl
@[simp] theorem exec_clipWindowClose (s : State) : exec (.clipWindowClose) s = execClipWindowClose s := rfl
@[simp] theorem exec_auditWindowClose (s : State) : exec (.auditWindowClose) s = execAuditWindowClose s := rfl
@[simp] theorem exec_resetAssert (s : State) (pin : ResetPin) (widthNs : Nat) : exec (.resetAssert pin widthNs) s = execResetAssert pin widthNs s := rfl
@[simp] theorem exec_resetRelease (s : State) (pin : ResetPin) (devId : Nat) : exec (.resetRelease pin devId) s = execResetRelease pin devId s := rfl
@[simp] theorem exec_rom (s : State) (puf random : List Byte) : exec (.rom puf random) s = execRom puf random s := rfl
@[simp] theorem exec_nvBank (s : State) : exec (.nvBank) s = execNvBank s := rfl
@[simp] theorem exec_firmware (s : State) : exec (.firmware) s = execFirmware s := rfl

@[simp] theorem exec_hbm (s : State) (recs : List DiagRec) (trained : Bool) : exec (.hbm recs trained) s = execHbm recs trained s := rfl
@[simp] theorem exec_flash (s : State) (recs : List DiagRec) (cxl0 cxl1 : Nat) (ext0 ext1 : Nat) : exec (.flash recs cxl0 cxl1 ext0 ext1) s = execFlash recs cxl0 cxl1 ext0 ext1 s := rfl
@[simp] theorem exec_links (s : State) (recs : List DiagRec) : exec (.links recs) s = execLinks recs s := rfl
@[simp] theorem exec_discovery (s : State) : exec (.discovery) s = execDiscovery s := rfl
@[simp] theorem exec_thermalSample (s : State) (milliC : Int) (powerMw : Nat) : exec (.thermalSample milliC powerMw) s = execThermalSample milliC powerMw s := rfl
@[simp] theorem exec_thermalTrip (s : State) : exec (.thermalTrip) s = execThermalTrip s := rfl
@[simp] theorem exec_brefLoss (s : State) : exec (.brefLoss) s = execBrefLoss s := rfl
@[simp] theorem exec_brefValid (s : State) : exec (.brefValid) s = execBrefValid s := rfl
@[simp] theorem exec_vidStep (s : State) (target : Nat) : exec (.vidStep target) s = execVidStep target s := rfl
@[simp] theorem exec_combineRecordTimeout (s : State) (record : Nat) : exec (.combineRecordTimeout record) s = execCombineRecordTimeout record s := rfl
@[simp] theorem exec_cxlPortDown (s : State) (port : Nat) : exec (.cxlPortDown port) s = execCxlPortDown port s := rfl
@[simp] theorem exec_cxlPortRetrain (s : State) (port : Nat) (full : Bool) : exec (.cxlPortRetrain port full) s = execCxlPortRetrain port full s := rfl
@[simp] theorem exec_portPeerPresent (s : State) (port : Nat) : exec (.portPeerPresent port) s = execPortPeerPresent port s := rfl
@[simp] theorem exec_i3cTargetReady (s : State) : exec (.i3cTargetReady) s = execI3cTargetReady s := rfl
@[simp] theorem exec_reservedRecordKind (s : State) (r : Role) (rec : BitVec 128) : exec (.reservedRecordKind r rec) s = execReservedRecordKind r rec s := rfl

/-- A step at a queue with a command in front runs that command on the state with the queue's rest. -/
theorem step_cons (s : State) (c : Instr) (cs : List Instr) (h : s.pending = c :: cs) :
    step s = exec c { s with pending := cs } := by
  unfold step; rw [h]

/-- A step on an empty queue idles. -/
theorem step_nil (s : State) (h : s.pending = []) : step s = .next (idle s) := by
  unfold step; rw [h]

end Sys2Proof.Machine
end

