-- ==== Sys2Proof/Laws/Tables.lean ====
section
/-! SUPPORT. The laws of the sparse tables and byte stores: a read after a write, what a write leaves alone, and the
canonical form every operation keeps. -/

namespace Sys2Proof.Machine

open Sys2Proof

/-! ### Reading after writing -/

@[simp] theorem mapGet_nil (k : Nat) : mapGet k ([] : List (Nat × α)) = none := rfl

theorem mapGet_mapSet (k j : Nat) (v : α) (m : List (Nat × α)) :
    mapGet j (mapSet k v m) = if j = k then some v else mapGet j m := by
  induction m with
  | nil => by_cases h : k = j <;> simp [mapSet, mapGet, h, eq_comm]
  | cons e m ih =>
    obtain ⟨i, w⟩ := e
    unfold mapSet
    split
    · by_cases h : k = j <;> simp [mapGet, h, eq_comm]
    · split
      · rename_i h
        subst h
        by_cases h : k = j <;> simp [mapGet, h, eq_comm]
      · rename_i h1 h2
        by_cases h : i = j
        · have : ¬ j = k := fun e => h2 (e ▸ h.symm)
          simp [mapGet, h, this]
        · simp [mapGet, h, ih]

@[simp] theorem mapGet_mapSet_same (k : Nat) (v : α) (m : List (Nat × α)) : mapGet k (mapSet k v m) = some v := by
  simp [mapGet_mapSet]

theorem mapGet_mapSet_other {j k : Nat} (h : j ≠ k) (v : α) (m : List (Nat × α)) :
    mapGet j (mapSet k v m) = mapGet j m := by
  simp [mapGet_mapSet, h]

theorem mapGet_mapDel_other {j k : Nat} (h : j ≠ k) (m : List (Nat × α)) : mapGet j (mapDel k m) = mapGet j m := by
  induction m with
  | nil => rfl
  | cons e m ih =>
    obtain ⟨i, w⟩ := e
    unfold mapDel
    split
    · rename_i he
      have : ¬ i = j := fun e => h (e.symm.trans he)
      simp [mapGet, this]
    · by_cases hi : i = j <;> simp [mapGet, hi, ih]

theorem mapGetD_mapSet (d : α) (k j : Nat) (v : α) (m : List (Nat × α)) :
    mapGetD d j (mapSet k v m) = if j = k then v else mapGetD d j m := by
  unfold mapGetD
  rw [mapGet_mapSet]
  split <;> rfl

@[simp] theorem mapGetD_mapSet_same (d : α) (k : Nat) (v : α) (m : List (Nat × α)) : mapGetD d k (mapSet k v m) = v := by
  simp [mapGetD_mapSet]

/-! ### Rising keys -/

theorem keysAbove_le {a b : Nat} (h : a ≤ b) {m : List (Nat × α)} (hm : keysAbove b m = true) : keysAbove a m = true := by
  cases m with
  | nil => rfl
  | cons e m =>
    obtain ⟨i, w⟩ := e
    simp [keysAbove] at hm ⊢
    exact ⟨by omega, hm.2⟩

theorem keysAbove_mapSet {b k : Nat} (hb : b < k) (v : α) {m : List (Nat × α)} (hm : keysAbove b m = true) :
    keysAbove b (mapSet k v m) = true := by
  induction m generalizing b with
  | nil => simpa [mapSet, keysAbove] using hb
  | cons e m ih =>
    obtain ⟨i, w⟩ := e
    simp [keysAbove] at hm
    unfold mapSet
    split
    · rename_i h
      simp [keysAbove, hb, h, hm.2]
    · split
      · rename_i h
        subst h
        simp [keysAbove, hb, hm.2]
      · rename_i h1 h2
        have : i < k := by omega
        simp [keysAbove, hm.1, ih this hm.2]

/-- Setting a key keeps the keys rising. -/
theorem keysRise_mapSet (k : Nat) (v : α) {m : List (Nat × α)} (hm : keysRise m = true) :
    keysRise (mapSet k v m) = true := by
  cases m with
  | nil => simp [mapSet, keysRise, keysAbove]
  | cons e m =>
    obtain ⟨i, w⟩ := e
    simp [keysRise] at hm
    unfold mapSet
    split
    · rename_i h
      simp [keysRise, keysAbove, h, hm]
    · split
      · rename_i h
        subst h
        simpa [keysRise] using hm
      · have : i < k := by omega
        simpa [keysRise] using keysAbove_mapSet this v hm

theorem keysAbove_mapDel {b : Nat} (k : Nat) {m : List (Nat × α)} (hm : keysAbove b m = true) :
    keysAbove b (mapDel k m) = true := by
  induction m generalizing b with
  | nil => rfl
  | cons e m ih =>
    obtain ⟨i, w⟩ := e
    simp [keysAbove] at hm
    unfold mapDel
    split
    · exact keysAbove_le (by omega) hm.2
    · simp [keysAbove, hm.1, ih hm.2]

/-- Removing a key keeps the keys rising. -/
theorem keysRise_mapDel (k : Nat) {m : List (Nat × α)} (hm : keysRise m = true) : keysRise (mapDel k m) = true := by
  cases m with
  | nil => rfl
  | cons e m =>
    obtain ⟨i, w⟩ := e
    simp [keysRise] at hm
    unfold mapDel
    split
    · cases m with
      | nil => rfl
      | cons e m => obtain ⟨j, w⟩ := e; simp [keysAbove] at hm; simp [keysRise, hm.2]
    · simpa [keysRise] using keysAbove_mapDel k hm

theorem keysAbove_filter {b : Nat} (p : Nat × α → Bool) {m : List (Nat × α)} (hm : keysAbove b m = true) :
    keysAbove b (m.filter p) = true := by
  induction m generalizing b with
  | nil => rfl
  | cons e m ih =>
    obtain ⟨i, w⟩ := e
    simp [keysAbove] at hm
    by_cases h : p (i, w) = true
    · simp [h, keysAbove, hm.1, ih hm.2]
    · simp only [Bool.not_eq_true] at h
      rw [List.filter_cons, h]
      exact ih (keysAbove_le (by omega) hm.2)

/-- Dropping entries keeps the keys rising. -/
theorem keysRise_filter (p : Nat × α → Bool) {m : List (Nat × α)} (hm : keysRise m = true) :
    keysRise (m.filter p) = true := by
  induction m with
  | nil => rfl
  | cons e m ih =>
    obtain ⟨i, w⟩ := e
    simp [keysRise] at hm
    by_cases h : p (i, w) = true
    · simp [h, keysRise, keysAbove_filter p hm]
    · simp only [Bool.not_eq_true] at h
      rw [List.filter_cons, h]
      cases m with
      | nil => rfl
      | cons e m =>
        obtain ⟨j, x⟩ := e
        simp [keysAbove] at hm
        exact ih (by simp [keysRise, hm.2])

theorem mapGet_none_of_above {b j : Nat} (h : j ≤ b) {m : List (Nat × α)} (hm : keysAbove b m = true) :
    mapGet j m = none := by
  induction m generalizing b with
  | nil => rfl
  | cons e m ih =>
    obtain ⟨i, w⟩ := e
    simp [keysAbove] at hm
    have : ¬ i = j := by omega
    simp [mapGet, this]
    exact ih (b := i) (by omega) hm.2

/-- A key that is removed reads as not listed, where the keys rise. -/
theorem mapGet_mapDel_same (k : Nat) {m : List (Nat × α)} (hm : keysRise m = true) : mapGet k (mapDel k m) = none := by
  induction m with
  | nil => rfl
  | cons e m ih =>
    obtain ⟨i, w⟩ := e
    simp [keysRise] at hm
    unfold mapDel
    split
    · rename_i h
      subst h
      exact mapGet_none_of_above (Nat.le_refl _) hm
    · rename_i h
      have hm' : keysRise m = true := by
        cases m with
        | nil => rfl
        | cons e m => obtain ⟨j, x⟩ := e; simp [keysAbove] at hm; simp [keysRise, hm.2]
      simp [mapGet, h, ih hm']

/-! ### Byte stores -/

theorem all_mapSet {p : Nat × α → Bool} (k : Nat) (v : α) {m : List (Nat × α)} (hm : m.all p = true)
    (hp : p (k, v) = true) : (mapSet k v m).all p = true := by
  induction m with
  | nil => simp [mapSet, hp]
  | cons e m ih =>
    obtain ⟨i, w⟩ := e
    simp only [List.all_cons, Bool.and_eq_true] at hm
    unfold mapSet
    split
    · simp only [List.all_cons, Bool.and_eq_true]; exact ⟨hp, hm⟩
    · split
      · simp only [List.all_cons, Bool.and_eq_true]; exact ⟨hp, hm.2⟩
      · simp only [List.all_cons, Bool.and_eq_true]; exact ⟨hm.1, ih hm.2⟩

theorem all_mapDel {p : Nat × α → Bool} (k : Nat) {m : List (Nat × α)} (hm : m.all p = true) :
    (mapDel k m).all p = true := by
  induction m with
  | nil => rfl
  | cons e m ih =>
    obtain ⟨i, w⟩ := e
    simp only [List.all_cons, Bool.and_eq_true] at hm
    unfold mapDel
    split
    · exact hm.2
    · simp only [List.all_cons, Bool.and_eq_true]; exact ⟨hm.1, ih hm.2⟩

/-- Writing one byte keeps a store in canonical form. -/
theorem memSet_wf (m : Memory) (a : Nat) (b : Byte) (hm : Memory.wf m = true) : Memory.wf (memSet m a b) = true := by
  simp only [Memory.wf, Bool.and_eq_true] at hm ⊢
  unfold memSet
  split
  · exact ⟨keysRise_mapDel a hm.1, all_mapDel a hm.2⟩
  · rename_i h
    exact ⟨keysRise_mapSet a b hm.1, all_mapSet a b hm.2 (by simpa using h)⟩

/-- Writing bytes keeps a store in canonical form. -/
theorem memWrite_wf (m : Memory) (a : Nat) (bs : List Byte) (hm : Memory.wf m = true) :
    Memory.wf (memWrite m a bs) = true := by
  induction bs generalizing m a with
  | nil => exact hm
  | cons b bs ih => exact ih _ _ (memSet_wf m a b hm)

/-- Clearing a range keeps a store in canonical form. -/
theorem memClear_wf (m : Memory) (a n : Nat) (hm : Memory.wf m = true) : Memory.wf (memClear m a n) = true := by
  simp only [Memory.wf, Bool.and_eq_true] at hm ⊢
  refine ⟨keysRise_filter _ hm.1, ?_⟩
  simp only [memClear, List.all_filter]
  rw [List.all_eq_true] at hm ⊢
  intro c hc
  rw [hm.2 c hc, Bool.or_true]

/-- A byte written reads back, in a store in canonical form. -/
theorem memGet_memSet_same (m : Memory) (a : Nat) (b : Byte) (hm : Memory.wf m = true) : memGet (memSet m a b) a = b := by
  simp only [Memory.wf, Bool.and_eq_true] at hm
  unfold memSet memGet mapGetD
  split
  · rename_i h
    rw [mapGet_mapDel_same a hm.1]; exact h.symm
  · simp

/-- Writing one byte leaves every other byte. -/
theorem memGet_memSet_other (m : Memory) {a j : Nat} (b : Byte) (h : j ≠ a) : memGet (memSet m a b) j = memGet m j := by
  unfold memSet memGet mapGetD
  split
  · rw [mapGet_mapDel_other h]
  · rw [mapGet_mapSet_other h]

/-- Writing bytes leaves every byte outside them. -/
theorem memGet_memWrite_outside (m : Memory) (a : Nat) (bs : List Byte) (j : Nat) (h : j < a ∨ a + bs.length ≤ j) :
    memGet (memWrite m a bs) j = memGet m j := by
  induction bs generalizing m a with
  | nil => rfl
  | cons b bs ih =>
    simp only [List.length_cons] at h
    unfold memWrite
    rw [ih _ _ (by omega), memGet_memSet_other _ _ (by omega)]

/-- Byte i of what was written reads back, in a store in canonical form. -/
theorem memGet_memWrite_inside (m : Memory) (a : Nat) (bs : List Byte) (i : Nat) (h : i < bs.length)
    (hm : Memory.wf m = true) : memGet (memWrite m a bs) (a + i) = bs[i] := by
  induction bs generalizing m a i with
  | nil => simp at h
  | cons b bs ih =>
    unfold memWrite
    cases i with
    | zero =>
      rw [memGet_memWrite_outside _ _ _ _ (by omega)]
      simpa using memGet_memSet_same m a b hm
    | succ i =>
      have h' : i < bs.length := by simpa using h
      have := ih (memSet m a b) (a + 1) i h' (memSet_wf m a b hm)
      simp only [List.getElem_cons_succ]
      rw [← this]
      congr 1
      omega

/-- Clearing a range leaves every byte outside it. -/
theorem memGet_memClear_outside (m : Memory) (a n j : Nat) (h : j < a ∨ a + n ≤ j) :
    memGet (memClear m a n) j = memGet m j := by
  unfold memGet mapGetD
  congr 1
  induction m with
  | nil => rfl
  | cons e m ih =>
    obtain ⟨i, w⟩ := e
    unfold memClear at ih ⊢
    rw [List.filter_cons]
    split
    · by_cases hi : i = j
      · simp [mapGet, hi]
      · rw [mapGet, mapGet, if_neg hi, if_neg hi, ih]
    · rename_i hf
      have : ¬ i = j := by
        intro e
        subst e
        simp at hf
        omega
      rw [ih, mapGet, if_neg this]

end Sys2Proof.Machine
end

