-- ==== Sys2Proof/Laws/State.lean ====
section
/-! SUPPORT. What each shared update of the state leaves alone, one lemma for each field, and what the reads of a number, a
byte string and a core answer after it. -/

namespace Sys2Proof.Machine

open Sys2Proof

/-! ### setReg -/

@[simp] theorem State.setReg_pending (s : State) (k v : Nat) : (s.setReg k v).pending = s.pending := rfl
@[simp] theorem State.setReg_free (s : State) (k v : Nat) : (s.setReg k v).free = s.free := rfl
@[simp] theorem State.setReg_doms (s : State) (k v : Nat) : (s.setReg k v).doms = s.doms := rfl
@[simp] theorem State.setReg_latch (s : State) (k v : Nat) : (s.setReg k v).latch = s.latch := rfl
@[simp] theorem State.setReg_prior (s : State) (k v : Nat) : (s.setReg k v).prior = s.prior := rfl
@[simp] theorem State.setReg_latchDoms (s : State) (k v : Nat) : (s.setReg k v).latchDoms = s.latchDoms := rfl
@[simp] theorem State.setReg_shadows (s : State) (k v : Nat) : (s.setReg k v).shadows = s.shadows := rfl
@[simp] theorem State.setReg_commits (s : State) (k v : Nat) : (s.setReg k v).commits = s.commits := rfl
@[simp] theorem State.setReg_time (s : State) (k v : Nat) : (s.setReg k v).time = s.time := rfl
@[simp] theorem State.setReg_beat (s : State) (k v : Nat) : (s.setReg k v).beat = s.beat := rfl
@[simp] theorem State.setReg_cores (s : State) (k v : Nat) : (s.setReg k v).cores = s.cores := rfl
@[simp] theorem State.setReg_lines (s : State) (k v : Nat) : (s.setReg k v).lines = s.lines := rfl
@[simp] theorem State.setReg_yards (s : State) (k v : Nat) : (s.setReg k v).yards = s.yards := rfl
@[simp] theorem State.setReg_platforms (s : State) (k v : Nat) : (s.setReg k v).platforms = s.platforms := rfl
@[simp] theorem State.setReg_pools (s : State) (k v : Nat) : (s.setReg k v).pools = s.pools := rfl
@[simp] theorem State.setReg_combine (s : State) (k v : Nat) : (s.setReg k v).combine = s.combine := rfl
@[simp] theorem State.setReg_exits (s : State) (k v : Nat) : (s.setReg k v).exits = s.exits := rfl
@[simp] theorem State.setReg_streams (s : State) (k v : Nat) : (s.setReg k v).streams = s.streams := rfl
@[simp] theorem State.setReg_fabric (s : State) (k v : Nat) : (s.setReg k v).fabric = s.fabric := rfl
@[simp] theorem State.setReg_rmem (s : State) (k v : Nat) : (s.setReg k v).rmem = s.rmem := rfl
@[simp] theorem State.setReg_colls (s : State) (k v : Nat) : (s.setReg k v).colls = s.colls := rfl
@[simp] theorem State.setReg_tiers (s : State) (k v : Nat) : (s.setReg k v).tiers = s.tiers := rfl
@[simp] theorem State.setReg_clip (s : State) (k v : Nat) : (s.setReg k v).clip = s.clip := rfl
@[simp] theorem State.setReg_slots (s : State) (k v : Nat) : (s.setReg k v).slots = s.slots := rfl
@[simp] theorem State.setReg_swap (s : State) (k v : Nat) : (s.setReg k v).swap = s.swap := rfl
@[simp] theorem State.setReg_manager (s : State) (k v : Nat) : (s.setReg k v).manager = s.manager := rfl
@[simp] theorem State.setReg_host (s : State) (k v : Nat) : (s.setReg k v).host = s.host := rfl
@[simp] theorem State.setReg_nv (s : State) (k v : Nat) : (s.setReg k v).nv = s.nv := rfl
@[simp] theorem State.setReg_security (s : State) (k v : Nat) : (s.setReg k v).security = s.security := rfl
@[simp] theorem State.setReg_package (s : State) (k v : Nat) : (s.setReg k v).package = s.package := rfl

/-! ### setDom -/

@[simp] theorem State.setDom_pending (s : State) (k : Nat) (b : Blob) : (s.setDom k b).pending = s.pending := rfl
@[simp] theorem State.setDom_free (s : State) (k : Nat) (b : Blob) : (s.setDom k b).free = s.free := rfl
@[simp] theorem State.setDom_regs (s : State) (k : Nat) (b : Blob) : (s.setDom k b).regs = s.regs := rfl
@[simp] theorem State.setDom_latch (s : State) (k : Nat) (b : Blob) : (s.setDom k b).latch = s.latch := rfl
@[simp] theorem State.setDom_prior (s : State) (k : Nat) (b : Blob) : (s.setDom k b).prior = s.prior := rfl
@[simp] theorem State.setDom_latchDoms (s : State) (k : Nat) (b : Blob) : (s.setDom k b).latchDoms = s.latchDoms := rfl
@[simp] theorem State.setDom_shadows (s : State) (k : Nat) (b : Blob) : (s.setDom k b).shadows = s.shadows := rfl
@[simp] theorem State.setDom_commits (s : State) (k : Nat) (b : Blob) : (s.setDom k b).commits = s.commits := rfl
@[simp] theorem State.setDom_time (s : State) (k : Nat) (b : Blob) : (s.setDom k b).time = s.time := rfl
@[simp] theorem State.setDom_beat (s : State) (k : Nat) (b : Blob) : (s.setDom k b).beat = s.beat := rfl
@[simp] theorem State.setDom_cores (s : State) (k : Nat) (b : Blob) : (s.setDom k b).cores = s.cores := rfl
@[simp] theorem State.setDom_lines (s : State) (k : Nat) (b : Blob) : (s.setDom k b).lines = s.lines := rfl
@[simp] theorem State.setDom_yards (s : State) (k : Nat) (b : Blob) : (s.setDom k b).yards = s.yards := rfl
@[simp] theorem State.setDom_platforms (s : State) (k : Nat) (b : Blob) : (s.setDom k b).platforms = s.platforms := rfl
@[simp] theorem State.setDom_pools (s : State) (k : Nat) (b : Blob) : (s.setDom k b).pools = s.pools := rfl
@[simp] theorem State.setDom_combine (s : State) (k : Nat) (b : Blob) : (s.setDom k b).combine = s.combine := rfl
@[simp] theorem State.setDom_exits (s : State) (k : Nat) (b : Blob) : (s.setDom k b).exits = s.exits := rfl
@[simp] theorem State.setDom_streams (s : State) (k : Nat) (b : Blob) : (s.setDom k b).streams = s.streams := rfl
@[simp] theorem State.setDom_fabric (s : State) (k : Nat) (b : Blob) : (s.setDom k b).fabric = s.fabric := rfl
@[simp] theorem State.setDom_rmem (s : State) (k : Nat) (b : Blob) : (s.setDom k b).rmem = s.rmem := rfl
@[simp] theorem State.setDom_colls (s : State) (k : Nat) (b : Blob) : (s.setDom k b).colls = s.colls := rfl
@[simp] theorem State.setDom_tiers (s : State) (k : Nat) (b : Blob) : (s.setDom k b).tiers = s.tiers := rfl
@[simp] theorem State.setDom_clip (s : State) (k : Nat) (b : Blob) : (s.setDom k b).clip = s.clip := rfl
@[simp] theorem State.setDom_slots (s : State) (k : Nat) (b : Blob) : (s.setDom k b).slots = s.slots := rfl
@[simp] theorem State.setDom_swap (s : State) (k : Nat) (b : Blob) : (s.setDom k b).swap = s.swap := rfl
@[simp] theorem State.setDom_manager (s : State) (k : Nat) (b : Blob) : (s.setDom k b).manager = s.manager := rfl
@[simp] theorem State.setDom_host (s : State) (k : Nat) (b : Blob) : (s.setDom k b).host = s.host := rfl
@[simp] theorem State.setDom_nv (s : State) (k : Nat) (b : Blob) : (s.setDom k b).nv = s.nv := rfl
@[simp] theorem State.setDom_security (s : State) (k : Nat) (b : Blob) : (s.setDom k b).security = s.security := rfl
@[simp] theorem State.setDom_package (s : State) (k : Nat) (b : Blob) : (s.setDom k b).package = s.package := rfl

/-! ### count -/

@[simp] theorem State.count_pending (s : State) (k n : Nat) : (s.count k n).pending = s.pending := rfl
@[simp] theorem State.count_free (s : State) (k n : Nat) : (s.count k n).free = s.free := rfl
@[simp] theorem State.count_doms (s : State) (k n : Nat) : (s.count k n).doms = s.doms := rfl
@[simp] theorem State.count_latch (s : State) (k n : Nat) : (s.count k n).latch = s.latch := rfl
@[simp] theorem State.count_prior (s : State) (k n : Nat) : (s.count k n).prior = s.prior := rfl
@[simp] theorem State.count_latchDoms (s : State) (k n : Nat) : (s.count k n).latchDoms = s.latchDoms := rfl
@[simp] theorem State.count_shadows (s : State) (k n : Nat) : (s.count k n).shadows = s.shadows := rfl
@[simp] theorem State.count_commits (s : State) (k n : Nat) : (s.count k n).commits = s.commits := rfl
@[simp] theorem State.count_time (s : State) (k n : Nat) : (s.count k n).time = s.time := rfl
@[simp] theorem State.count_beat (s : State) (k n : Nat) : (s.count k n).beat = s.beat := rfl
@[simp] theorem State.count_cores (s : State) (k n : Nat) : (s.count k n).cores = s.cores := rfl
@[simp] theorem State.count_lines (s : State) (k n : Nat) : (s.count k n).lines = s.lines := rfl
@[simp] theorem State.count_yards (s : State) (k n : Nat) : (s.count k n).yards = s.yards := rfl
@[simp] theorem State.count_platforms (s : State) (k n : Nat) : (s.count k n).platforms = s.platforms := rfl
@[simp] theorem State.count_pools (s : State) (k n : Nat) : (s.count k n).pools = s.pools := rfl
@[simp] theorem State.count_combine (s : State) (k n : Nat) : (s.count k n).combine = s.combine := rfl
@[simp] theorem State.count_exits (s : State) (k n : Nat) : (s.count k n).exits = s.exits := rfl
@[simp] theorem State.count_streams (s : State) (k n : Nat) : (s.count k n).streams = s.streams := rfl
@[simp] theorem State.count_fabric (s : State) (k n : Nat) : (s.count k n).fabric = s.fabric := rfl
@[simp] theorem State.count_rmem (s : State) (k n : Nat) : (s.count k n).rmem = s.rmem := rfl
@[simp] theorem State.count_colls (s : State) (k n : Nat) : (s.count k n).colls = s.colls := rfl
@[simp] theorem State.count_tiers (s : State) (k n : Nat) : (s.count k n).tiers = s.tiers := rfl
@[simp] theorem State.count_clip (s : State) (k n : Nat) : (s.count k n).clip = s.clip := rfl
@[simp] theorem State.count_slots (s : State) (k n : Nat) : (s.count k n).slots = s.slots := rfl
@[simp] theorem State.count_swap (s : State) (k n : Nat) : (s.count k n).swap = s.swap := rfl
@[simp] theorem State.count_manager (s : State) (k n : Nat) : (s.count k n).manager = s.manager := rfl
@[simp] theorem State.count_host (s : State) (k n : Nat) : (s.count k n).host = s.host := rfl
@[simp] theorem State.count_nv (s : State) (k n : Nat) : (s.count k n).nv = s.nv := rfl
@[simp] theorem State.count_security (s : State) (k n : Nat) : (s.count k n).security = s.security := rfl
@[simp] theorem State.count_package (s : State) (k n : Nat) : (s.count k n).package = s.package := rfl

/-! ### count64 -/

@[simp] theorem State.count64_pending (s : State) (k n : Nat) : (s.count64 k n).pending = s.pending := rfl
@[simp] theorem State.count64_free (s : State) (k n : Nat) : (s.count64 k n).free = s.free := rfl
@[simp] theorem State.count64_doms (s : State) (k n : Nat) : (s.count64 k n).doms = s.doms := rfl
@[simp] theorem State.count64_latch (s : State) (k n : Nat) : (s.count64 k n).latch = s.latch := rfl
@[simp] theorem State.count64_prior (s : State) (k n : Nat) : (s.count64 k n).prior = s.prior := rfl
@[simp] theorem State.count64_latchDoms (s : State) (k n : Nat) : (s.count64 k n).latchDoms = s.latchDoms := rfl
@[simp] theorem State.count64_shadows (s : State) (k n : Nat) : (s.count64 k n).shadows = s.shadows := rfl
@[simp] theorem State.count64_commits (s : State) (k n : Nat) : (s.count64 k n).commits = s.commits := rfl
@[simp] theorem State.count64_time (s : State) (k n : Nat) : (s.count64 k n).time = s.time := rfl
@[simp] theorem State.count64_beat (s : State) (k n : Nat) : (s.count64 k n).beat = s.beat := rfl
@[simp] theorem State.count64_cores (s : State) (k n : Nat) : (s.count64 k n).cores = s.cores := rfl
@[simp] theorem State.count64_lines (s : State) (k n : Nat) : (s.count64 k n).lines = s.lines := rfl
@[simp] theorem State.count64_yards (s : State) (k n : Nat) : (s.count64 k n).yards = s.yards := rfl
@[simp] theorem State.count64_platforms (s : State) (k n : Nat) : (s.count64 k n).platforms = s.platforms := rfl
@[simp] theorem State.count64_pools (s : State) (k n : Nat) : (s.count64 k n).pools = s.pools := rfl
@[simp] theorem State.count64_combine (s : State) (k n : Nat) : (s.count64 k n).combine = s.combine := rfl
@[simp] theorem State.count64_exits (s : State) (k n : Nat) : (s.count64 k n).exits = s.exits := rfl
@[simp] theorem State.count64_streams (s : State) (k n : Nat) : (s.count64 k n).streams = s.streams := rfl
@[simp] theorem State.count64_fabric (s : State) (k n : Nat) : (s.count64 k n).fabric = s.fabric := rfl
@[simp] theorem State.count64_rmem (s : State) (k n : Nat) : (s.count64 k n).rmem = s.rmem := rfl
@[simp] theorem State.count64_colls (s : State) (k n : Nat) : (s.count64 k n).colls = s.colls := rfl
@[simp] theorem State.count64_tiers (s : State) (k n : Nat) : (s.count64 k n).tiers = s.tiers := rfl
@[simp] theorem State.count64_clip (s : State) (k n : Nat) : (s.count64 k n).clip = s.clip := rfl
@[simp] theorem State.count64_slots (s : State) (k n : Nat) : (s.count64 k n).slots = s.slots := rfl
@[simp] theorem State.count64_swap (s : State) (k n : Nat) : (s.count64 k n).swap = s.swap := rfl
@[simp] theorem State.count64_manager (s : State) (k n : Nat) : (s.count64 k n).manager = s.manager := rfl
@[simp] theorem State.count64_host (s : State) (k n : Nat) : (s.count64 k n).host = s.host := rfl
@[simp] theorem State.count64_nv (s : State) (k n : Nat) : (s.count64 k n).nv = s.nv := rfl
@[simp] theorem State.count64_security (s : State) (k n : Nat) : (s.count64 k n).security = s.security := rfl
@[simp] theorem State.count64_package (s : State) (k n : Nat) : (s.count64 k n).package = s.package := rfl

/-! ### setCore -/

@[simp] theorem State.setCore_pending (s : State) (c : Nat) (k : Core) : (s.setCore c k).pending = s.pending := rfl
@[simp] theorem State.setCore_free (s : State) (c : Nat) (k : Core) : (s.setCore c k).free = s.free := rfl
@[simp] theorem State.setCore_regs (s : State) (c : Nat) (k : Core) : (s.setCore c k).regs = s.regs := rfl
@[simp] theorem State.setCore_doms (s : State) (c : Nat) (k : Core) : (s.setCore c k).doms = s.doms := rfl
@[simp] theorem State.setCore_latch (s : State) (c : Nat) (k : Core) : (s.setCore c k).latch = s.latch := rfl
@[simp] theorem State.setCore_prior (s : State) (c : Nat) (k : Core) : (s.setCore c k).prior = s.prior := rfl
@[simp] theorem State.setCore_latchDoms (s : State) (c : Nat) (k : Core) : (s.setCore c k).latchDoms = s.latchDoms := rfl
@[simp] theorem State.setCore_shadows (s : State) (c : Nat) (k : Core) : (s.setCore c k).shadows = s.shadows := rfl
@[simp] theorem State.setCore_commits (s : State) (c : Nat) (k : Core) : (s.setCore c k).commits = s.commits := rfl
@[simp] theorem State.setCore_time (s : State) (c : Nat) (k : Core) : (s.setCore c k).time = s.time := rfl
@[simp] theorem State.setCore_beat (s : State) (c : Nat) (k : Core) : (s.setCore c k).beat = s.beat := rfl
@[simp] theorem State.setCore_lines (s : State) (c : Nat) (k : Core) : (s.setCore c k).lines = s.lines := rfl
@[simp] theorem State.setCore_yards (s : State) (c : Nat) (k : Core) : (s.setCore c k).yards = s.yards := rfl
@[simp] theorem State.setCore_platforms (s : State) (c : Nat) (k : Core) : (s.setCore c k).platforms = s.platforms := rfl
@[simp] theorem State.setCore_pools (s : State) (c : Nat) (k : Core) : (s.setCore c k).pools = s.pools := rfl
@[simp] theorem State.setCore_combine (s : State) (c : Nat) (k : Core) : (s.setCore c k).combine = s.combine := rfl
@[simp] theorem State.setCore_exits (s : State) (c : Nat) (k : Core) : (s.setCore c k).exits = s.exits := rfl
@[simp] theorem State.setCore_streams (s : State) (c : Nat) (k : Core) : (s.setCore c k).streams = s.streams := rfl
@[simp] theorem State.setCore_fabric (s : State) (c : Nat) (k : Core) : (s.setCore c k).fabric = s.fabric := rfl
@[simp] theorem State.setCore_rmem (s : State) (c : Nat) (k : Core) : (s.setCore c k).rmem = s.rmem := rfl
@[simp] theorem State.setCore_colls (s : State) (c : Nat) (k : Core) : (s.setCore c k).colls = s.colls := rfl
@[simp] theorem State.setCore_tiers (s : State) (c : Nat) (k : Core) : (s.setCore c k).tiers = s.tiers := rfl
@[simp] theorem State.setCore_clip (s : State) (c : Nat) (k : Core) : (s.setCore c k).clip = s.clip := rfl
@[simp] theorem State.setCore_slots (s : State) (c : Nat) (k : Core) : (s.setCore c k).slots = s.slots := rfl
@[simp] theorem State.setCore_swap (s : State) (c : Nat) (k : Core) : (s.setCore c k).swap = s.swap := rfl
@[simp] theorem State.setCore_manager (s : State) (c : Nat) (k : Core) : (s.setCore c k).manager = s.manager := rfl
@[simp] theorem State.setCore_host (s : State) (c : Nat) (k : Core) : (s.setCore c k).host = s.host := rfl
@[simp] theorem State.setCore_nv (s : State) (c : Nat) (k : Core) : (s.setCore c k).nv = s.nv := rfl
@[simp] theorem State.setCore_security (s : State) (c : Nat) (k : Core) : (s.setCore c k).security = s.security := rfl
@[simp] theorem State.setCore_package (s : State) (c : Nat) (k : Core) : (s.setCore c k).package = s.package := rfl

/-! ### updCore -/

@[simp] theorem State.updCore_pending (s : State) (c : Nat) (f : Core → Core) : (s.updCore c f).pending = s.pending := rfl
@[simp] theorem State.updCore_free (s : State) (c : Nat) (f : Core → Core) : (s.updCore c f).free = s.free := rfl
@[simp] theorem State.updCore_regs (s : State) (c : Nat) (f : Core → Core) : (s.updCore c f).regs = s.regs := rfl
@[simp] theorem State.updCore_doms (s : State) (c : Nat) (f : Core → Core) : (s.updCore c f).doms = s.doms := rfl
@[simp] theorem State.updCore_latch (s : State) (c : Nat) (f : Core → Core) : (s.updCore c f).latch = s.latch := rfl
@[simp] theorem State.updCore_prior (s : State) (c : Nat) (f : Core → Core) : (s.updCore c f).prior = s.prior := rfl
@[simp] theorem State.updCore_latchDoms (s : State) (c : Nat) (f : Core → Core) : (s.updCore c f).latchDoms = s.latchDoms := rfl
@[simp] theorem State.updCore_shadows (s : State) (c : Nat) (f : Core → Core) : (s.updCore c f).shadows = s.shadows := rfl
@[simp] theorem State.updCore_commits (s : State) (c : Nat) (f : Core → Core) : (s.updCore c f).commits = s.commits := rfl
@[simp] theorem State.updCore_time (s : State) (c : Nat) (f : Core → Core) : (s.updCore c f).time = s.time := rfl
@[simp] theorem State.updCore_beat (s : State) (c : Nat) (f : Core → Core) : (s.updCore c f).beat = s.beat := rfl
@[simp] theorem State.updCore_lines (s : State) (c : Nat) (f : Core → Core) : (s.updCore c f).lines = s.lines := rfl
@[simp] theorem State.updCore_yards (s : State) (c : Nat) (f : Core → Core) : (s.updCore c f).yards = s.yards := rfl
@[simp] theorem State.updCore_platforms (s : State) (c : Nat) (f : Core → Core) : (s.updCore c f).platforms = s.platforms := rfl
@[simp] theorem State.updCore_pools (s : State) (c : Nat) (f : Core → Core) : (s.updCore c f).pools = s.pools := rfl
@[simp] theorem State.updCore_combine (s : State) (c : Nat) (f : Core → Core) : (s.updCore c f).combine = s.combine := rfl
@[simp] theorem State.updCore_exits (s : State) (c : Nat) (f : Core → Core) : (s.updCore c f).exits = s.exits := rfl
@[simp] theorem State.updCore_streams (s : State) (c : Nat) (f : Core → Core) : (s.updCore c f).streams = s.streams := rfl
@[simp] theorem State.updCore_fabric (s : State) (c : Nat) (f : Core → Core) : (s.updCore c f).fabric = s.fabric := rfl
@[simp] theorem State.updCore_rmem (s : State) (c : Nat) (f : Core → Core) : (s.updCore c f).rmem = s.rmem := rfl
@[simp] theorem State.updCore_colls (s : State) (c : Nat) (f : Core → Core) : (s.updCore c f).colls = s.colls := rfl
@[simp] theorem State.updCore_tiers (s : State) (c : Nat) (f : Core → Core) : (s.updCore c f).tiers = s.tiers := rfl
@[simp] theorem State.updCore_clip (s : State) (c : Nat) (f : Core → Core) : (s.updCore c f).clip = s.clip := rfl
@[simp] theorem State.updCore_slots (s : State) (c : Nat) (f : Core → Core) : (s.updCore c f).slots = s.slots := rfl
@[simp] theorem State.updCore_swap (s : State) (c : Nat) (f : Core → Core) : (s.updCore c f).swap = s.swap := rfl
@[simp] theorem State.updCore_manager (s : State) (c : Nat) (f : Core → Core) : (s.updCore c f).manager = s.manager := rfl
@[simp] theorem State.updCore_host (s : State) (c : Nat) (f : Core → Core) : (s.updCore c f).host = s.host := rfl
@[simp] theorem State.updCore_nv (s : State) (c : Nat) (f : Core → Core) : (s.updCore c f).nv = s.nv := rfl
@[simp] theorem State.updCore_security (s : State) (c : Nat) (f : Core → Core) : (s.updCore c f).security = s.security := rfl
@[simp] theorem State.updCore_package (s : State) (c : Nat) (f : Core → Core) : (s.updCore c f).package = s.package := rfl

/-! ### inject -/

@[simp] theorem State.inject_pending (s : State) (p : Packet) : (s.inject p).pending = s.pending := rfl
@[simp] theorem State.inject_free (s : State) (p : Packet) : (s.inject p).free = s.free := rfl
@[simp] theorem State.inject_regs (s : State) (p : Packet) : (s.inject p).regs = s.regs := rfl
@[simp] theorem State.inject_doms (s : State) (p : Packet) : (s.inject p).doms = s.doms := rfl
@[simp] theorem State.inject_latch (s : State) (p : Packet) : (s.inject p).latch = s.latch := rfl
@[simp] theorem State.inject_prior (s : State) (p : Packet) : (s.inject p).prior = s.prior := rfl
@[simp] theorem State.inject_latchDoms (s : State) (p : Packet) : (s.inject p).latchDoms = s.latchDoms := rfl
@[simp] theorem State.inject_shadows (s : State) (p : Packet) : (s.inject p).shadows = s.shadows := rfl
@[simp] theorem State.inject_commits (s : State) (p : Packet) : (s.inject p).commits = s.commits := rfl
@[simp] theorem State.inject_time (s : State) (p : Packet) : (s.inject p).time = s.time := rfl
@[simp] theorem State.inject_beat (s : State) (p : Packet) : (s.inject p).beat = s.beat := rfl
@[simp] theorem State.inject_cores (s : State) (p : Packet) : (s.inject p).cores = s.cores := rfl
@[simp] theorem State.inject_lines (s : State) (p : Packet) : (s.inject p).lines = s.lines := rfl
@[simp] theorem State.inject_yards (s : State) (p : Packet) : (s.inject p).yards = s.yards := rfl
@[simp] theorem State.inject_platforms (s : State) (p : Packet) : (s.inject p).platforms = s.platforms := rfl
@[simp] theorem State.inject_pools (s : State) (p : Packet) : (s.inject p).pools = s.pools := rfl
@[simp] theorem State.inject_combine (s : State) (p : Packet) : (s.inject p).combine = s.combine := rfl
@[simp] theorem State.inject_exits (s : State) (p : Packet) : (s.inject p).exits = s.exits := rfl
@[simp] theorem State.inject_streams (s : State) (p : Packet) : (s.inject p).streams = s.streams := rfl
@[simp] theorem State.inject_rmem (s : State) (p : Packet) : (s.inject p).rmem = s.rmem := rfl
@[simp] theorem State.inject_colls (s : State) (p : Packet) : (s.inject p).colls = s.colls := rfl
@[simp] theorem State.inject_tiers (s : State) (p : Packet) : (s.inject p).tiers = s.tiers := rfl
@[simp] theorem State.inject_clip (s : State) (p : Packet) : (s.inject p).clip = s.clip := rfl
@[simp] theorem State.inject_slots (s : State) (p : Packet) : (s.inject p).slots = s.slots := rfl
@[simp] theorem State.inject_swap (s : State) (p : Packet) : (s.inject p).swap = s.swap := rfl
@[simp] theorem State.inject_manager (s : State) (p : Packet) : (s.inject p).manager = s.manager := rfl
@[simp] theorem State.inject_host (s : State) (p : Packet) : (s.inject p).host = s.host := rfl
@[simp] theorem State.inject_nv (s : State) (p : Packet) : (s.inject p).nv = s.nv := rfl
@[simp] theorem State.inject_security (s : State) (p : Packet) : (s.inject p).security = s.security := rfl
@[simp] theorem State.inject_package (s : State) (p : Packet) : (s.inject p).package = s.package := rfl

/-! ### sendMgmt -/

@[simp] theorem State.sendMgmt_pending (s : State) (d : Nat) (m : MgmtMsg) : (s.sendMgmt d m).pending = s.pending := rfl
@[simp] theorem State.sendMgmt_free (s : State) (d : Nat) (m : MgmtMsg) : (s.sendMgmt d m).free = s.free := rfl
@[simp] theorem State.sendMgmt_regs (s : State) (d : Nat) (m : MgmtMsg) : (s.sendMgmt d m).regs = s.regs := rfl
@[simp] theorem State.sendMgmt_doms (s : State) (d : Nat) (m : MgmtMsg) : (s.sendMgmt d m).doms = s.doms := rfl
@[simp] theorem State.sendMgmt_latch (s : State) (d : Nat) (m : MgmtMsg) : (s.sendMgmt d m).latch = s.latch := rfl
@[simp] theorem State.sendMgmt_prior (s : State) (d : Nat) (m : MgmtMsg) : (s.sendMgmt d m).prior = s.prior := rfl
@[simp] theorem State.sendMgmt_latchDoms (s : State) (d : Nat) (m : MgmtMsg) : (s.sendMgmt d m).latchDoms = s.latchDoms := rfl
@[simp] theorem State.sendMgmt_shadows (s : State) (d : Nat) (m : MgmtMsg) : (s.sendMgmt d m).shadows = s.shadows := rfl
@[simp] theorem State.sendMgmt_commits (s : State) (d : Nat) (m : MgmtMsg) : (s.sendMgmt d m).commits = s.commits := rfl
@[simp] theorem State.sendMgmt_time (s : State) (d : Nat) (m : MgmtMsg) : (s.sendMgmt d m).time = s.time := rfl
@[simp] theorem State.sendMgmt_beat (s : State) (d : Nat) (m : MgmtMsg) : (s.sendMgmt d m).beat = s.beat := rfl
@[simp] theorem State.sendMgmt_cores (s : State) (d : Nat) (m : MgmtMsg) : (s.sendMgmt d m).cores = s.cores := rfl
@[simp] theorem State.sendMgmt_lines (s : State) (d : Nat) (m : MgmtMsg) : (s.sendMgmt d m).lines = s.lines := rfl
@[simp] theorem State.sendMgmt_yards (s : State) (d : Nat) (m : MgmtMsg) : (s.sendMgmt d m).yards = s.yards := rfl
@[simp] theorem State.sendMgmt_platforms (s : State) (d : Nat) (m : MgmtMsg) : (s.sendMgmt d m).platforms = s.platforms := rfl
@[simp] theorem State.sendMgmt_pools (s : State) (d : Nat) (m : MgmtMsg) : (s.sendMgmt d m).pools = s.pools := rfl
@[simp] theorem State.sendMgmt_combine (s : State) (d : Nat) (m : MgmtMsg) : (s.sendMgmt d m).combine = s.combine := rfl
@[simp] theorem State.sendMgmt_exits (s : State) (d : Nat) (m : MgmtMsg) : (s.sendMgmt d m).exits = s.exits := rfl
@[simp] theorem State.sendMgmt_streams (s : State) (d : Nat) (m : MgmtMsg) : (s.sendMgmt d m).streams = s.streams := rfl
@[simp] theorem State.sendMgmt_rmem (s : State) (d : Nat) (m : MgmtMsg) : (s.sendMgmt d m).rmem = s.rmem := rfl
@[simp] theorem State.sendMgmt_colls (s : State) (d : Nat) (m : MgmtMsg) : (s.sendMgmt d m).colls = s.colls := rfl
@[simp] theorem State.sendMgmt_tiers (s : State) (d : Nat) (m : MgmtMsg) : (s.sendMgmt d m).tiers = s.tiers := rfl
@[simp] theorem State.sendMgmt_clip (s : State) (d : Nat) (m : MgmtMsg) : (s.sendMgmt d m).clip = s.clip := rfl
@[simp] theorem State.sendMgmt_slots (s : State) (d : Nat) (m : MgmtMsg) : (s.sendMgmt d m).slots = s.slots := rfl
@[simp] theorem State.sendMgmt_swap (s : State) (d : Nat) (m : MgmtMsg) : (s.sendMgmt d m).swap = s.swap := rfl
@[simp] theorem State.sendMgmt_manager (s : State) (d : Nat) (m : MgmtMsg) : (s.sendMgmt d m).manager = s.manager := rfl
@[simp] theorem State.sendMgmt_host (s : State) (d : Nat) (m : MgmtMsg) : (s.sendMgmt d m).host = s.host := rfl
@[simp] theorem State.sendMgmt_nv (s : State) (d : Nat) (m : MgmtMsg) : (s.sendMgmt d m).nv = s.nv := rfl
@[simp] theorem State.sendMgmt_security (s : State) (d : Nat) (m : MgmtMsg) : (s.sendMgmt d m).security = s.security := rfl
@[simp] theorem State.sendMgmt_package (s : State) (d : Nat) (m : MgmtMsg) : (s.sendMgmt d m).package = s.package := rfl

/-! ### setSession -/

@[simp] theorem State.setSession_pending (s : State) (b : Nat) (x : Session) : (s.setSession b x).pending = s.pending := rfl
@[simp] theorem State.setSession_free (s : State) (b : Nat) (x : Session) : (s.setSession b x).free = s.free := rfl
@[simp] theorem State.setSession_regs (s : State) (b : Nat) (x : Session) : (s.setSession b x).regs = s.regs := rfl
@[simp] theorem State.setSession_doms (s : State) (b : Nat) (x : Session) : (s.setSession b x).doms = s.doms := rfl
@[simp] theorem State.setSession_latch (s : State) (b : Nat) (x : Session) : (s.setSession b x).latch = s.latch := rfl
@[simp] theorem State.setSession_prior (s : State) (b : Nat) (x : Session) : (s.setSession b x).prior = s.prior := rfl
@[simp] theorem State.setSession_latchDoms (s : State) (b : Nat) (x : Session) : (s.setSession b x).latchDoms = s.latchDoms := rfl
@[simp] theorem State.setSession_shadows (s : State) (b : Nat) (x : Session) : (s.setSession b x).shadows = s.shadows := rfl
@[simp] theorem State.setSession_commits (s : State) (b : Nat) (x : Session) : (s.setSession b x).commits = s.commits := rfl
@[simp] theorem State.setSession_time (s : State) (b : Nat) (x : Session) : (s.setSession b x).time = s.time := rfl
@[simp] theorem State.setSession_beat (s : State) (b : Nat) (x : Session) : (s.setSession b x).beat = s.beat := rfl
@[simp] theorem State.setSession_cores (s : State) (b : Nat) (x : Session) : (s.setSession b x).cores = s.cores := rfl
@[simp] theorem State.setSession_lines (s : State) (b : Nat) (x : Session) : (s.setSession b x).lines = s.lines := rfl
@[simp] theorem State.setSession_yards (s : State) (b : Nat) (x : Session) : (s.setSession b x).yards = s.yards := rfl
@[simp] theorem State.setSession_platforms (s : State) (b : Nat) (x : Session) : (s.setSession b x).platforms = s.platforms := rfl
@[simp] theorem State.setSession_pools (s : State) (b : Nat) (x : Session) : (s.setSession b x).pools = s.pools := rfl
@[simp] theorem State.setSession_combine (s : State) (b : Nat) (x : Session) : (s.setSession b x).combine = s.combine := rfl
@[simp] theorem State.setSession_exits (s : State) (b : Nat) (x : Session) : (s.setSession b x).exits = s.exits := rfl
@[simp] theorem State.setSession_streams (s : State) (b : Nat) (x : Session) : (s.setSession b x).streams = s.streams := rfl
@[simp] theorem State.setSession_fabric (s : State) (b : Nat) (x : Session) : (s.setSession b x).fabric = s.fabric := rfl
@[simp] theorem State.setSession_rmem (s : State) (b : Nat) (x : Session) : (s.setSession b x).rmem = s.rmem := rfl
@[simp] theorem State.setSession_colls (s : State) (b : Nat) (x : Session) : (s.setSession b x).colls = s.colls := rfl
@[simp] theorem State.setSession_tiers (s : State) (b : Nat) (x : Session) : (s.setSession b x).tiers = s.tiers := rfl
@[simp] theorem State.setSession_clip (s : State) (b : Nat) (x : Session) : (s.setSession b x).clip = s.clip := rfl
@[simp] theorem State.setSession_slots (s : State) (b : Nat) (x : Session) : (s.setSession b x).slots = s.slots := rfl
@[simp] theorem State.setSession_swap (s : State) (b : Nat) (x : Session) : (s.setSession b x).swap = s.swap := rfl
@[simp] theorem State.setSession_manager (s : State) (b : Nat) (x : Session) : (s.setSession b x).manager = s.manager := rfl
@[simp] theorem State.setSession_nv (s : State) (b : Nat) (x : Session) : (s.setSession b x).nv = s.nv := rfl
@[simp] theorem State.setSession_security (s : State) (b : Nat) (x : Session) : (s.setSession b x).security = s.security := rfl
@[simp] theorem State.setSession_package (s : State) (b : Nat) (x : Session) : (s.setSession b x).package = s.package := rfl

/-! ### logReport -/

@[simp] theorem State.logReport_pending (s : State) (kind mid cause : Nat) : (s.logReport kind mid cause).pending = s.pending := rfl
@[simp] theorem State.logReport_free (s : State) (kind mid cause : Nat) : (s.logReport kind mid cause).free = s.free := rfl
@[simp] theorem State.logReport_doms (s : State) (kind mid cause : Nat) : (s.logReport kind mid cause).doms = s.doms := rfl
@[simp] theorem State.logReport_latch (s : State) (kind mid cause : Nat) : (s.logReport kind mid cause).latch = s.latch := rfl
@[simp] theorem State.logReport_prior (s : State) (kind mid cause : Nat) : (s.logReport kind mid cause).prior = s.prior := rfl
@[simp] theorem State.logReport_latchDoms (s : State) (kind mid cause : Nat) : (s.logReport kind mid cause).latchDoms = s.latchDoms := rfl
@[simp] theorem State.logReport_shadows (s : State) (kind mid cause : Nat) : (s.logReport kind mid cause).shadows = s.shadows := rfl
@[simp] theorem State.logReport_commits (s : State) (kind mid cause : Nat) : (s.logReport kind mid cause).commits = s.commits := rfl
@[simp] theorem State.logReport_time (s : State) (kind mid cause : Nat) : (s.logReport kind mid cause).time = s.time := rfl
@[simp] theorem State.logReport_beat (s : State) (kind mid cause : Nat) : (s.logReport kind mid cause).beat = s.beat := rfl
@[simp] theorem State.logReport_cores (s : State) (kind mid cause : Nat) : (s.logReport kind mid cause).cores = s.cores := rfl
@[simp] theorem State.logReport_lines (s : State) (kind mid cause : Nat) : (s.logReport kind mid cause).lines = s.lines := rfl
@[simp] theorem State.logReport_yards (s : State) (kind mid cause : Nat) : (s.logReport kind mid cause).yards = s.yards := rfl
@[simp] theorem State.logReport_platforms (s : State) (kind mid cause : Nat) : (s.logReport kind mid cause).platforms = s.platforms := rfl
@[simp] theorem State.logReport_pools (s : State) (kind mid cause : Nat) : (s.logReport kind mid cause).pools = s.pools := rfl
@[simp] theorem State.logReport_combine (s : State) (kind mid cause : Nat) : (s.logReport kind mid cause).combine = s.combine := rfl
@[simp] theorem State.logReport_exits (s : State) (kind mid cause : Nat) : (s.logReport kind mid cause).exits = s.exits := rfl
@[simp] theorem State.logReport_streams (s : State) (kind mid cause : Nat) : (s.logReport kind mid cause).streams = s.streams := rfl
@[simp] theorem State.logReport_fabric (s : State) (kind mid cause : Nat) : (s.logReport kind mid cause).fabric = s.fabric := rfl
@[simp] theorem State.logReport_rmem (s : State) (kind mid cause : Nat) : (s.logReport kind mid cause).rmem = s.rmem := rfl
@[simp] theorem State.logReport_colls (s : State) (kind mid cause : Nat) : (s.logReport kind mid cause).colls = s.colls := rfl
@[simp] theorem State.logReport_tiers (s : State) (kind mid cause : Nat) : (s.logReport kind mid cause).tiers = s.tiers := rfl
@[simp] theorem State.logReport_clip (s : State) (kind mid cause : Nat) : (s.logReport kind mid cause).clip = s.clip := rfl
@[simp] theorem State.logReport_slots (s : State) (kind mid cause : Nat) : (s.logReport kind mid cause).slots = s.slots := rfl
@[simp] theorem State.logReport_swap (s : State) (kind mid cause : Nat) : (s.logReport kind mid cause).swap = s.swap := rfl
@[simp] theorem State.logReport_host (s : State) (kind mid cause : Nat) : (s.logReport kind mid cause).host = s.host := rfl
@[simp] theorem State.logReport_nv (s : State) (kind mid cause : Nat) : (s.logReport kind mid cause).nv = s.nv := rfl
@[simp] theorem State.logReport_security (s : State) (kind mid cause : Nat) : (s.logReport kind mid cause).security = s.security := rfl
@[simp] theorem State.logReport_package (s : State) (kind mid cause : Nat) : (s.logReport kind mid cause).package = s.package := rfl

/-! ### ibi -/

@[simp] theorem State.ibi_pending (s : State) (n : Nat) : (s.ibi n).pending = s.pending := by unfold State.ibi; split <;> rfl
@[simp] theorem State.ibi_free (s : State) (n : Nat) : (s.ibi n).free = s.free := by unfold State.ibi; split <;> rfl
@[simp] theorem State.ibi_regs (s : State) (n : Nat) : (s.ibi n).regs = s.regs := by unfold State.ibi; split <;> rfl
@[simp] theorem State.ibi_doms (s : State) (n : Nat) : (s.ibi n).doms = s.doms := by unfold State.ibi; split <;> rfl
@[simp] theorem State.ibi_latch (s : State) (n : Nat) : (s.ibi n).latch = s.latch := by unfold State.ibi; split <;> rfl
@[simp] theorem State.ibi_prior (s : State) (n : Nat) : (s.ibi n).prior = s.prior := by unfold State.ibi; split <;> rfl
@[simp] theorem State.ibi_latchDoms (s : State) (n : Nat) : (s.ibi n).latchDoms = s.latchDoms := by unfold State.ibi; split <;> rfl
@[simp] theorem State.ibi_shadows (s : State) (n : Nat) : (s.ibi n).shadows = s.shadows := by unfold State.ibi; split <;> rfl
@[simp] theorem State.ibi_commits (s : State) (n : Nat) : (s.ibi n).commits = s.commits := by unfold State.ibi; split <;> rfl
@[simp] theorem State.ibi_time (s : State) (n : Nat) : (s.ibi n).time = s.time := by unfold State.ibi; split <;> rfl
@[simp] theorem State.ibi_beat (s : State) (n : Nat) : (s.ibi n).beat = s.beat := by unfold State.ibi; split <;> rfl
@[simp] theorem State.ibi_cores (s : State) (n : Nat) : (s.ibi n).cores = s.cores := by unfold State.ibi; split <;> rfl
@[simp] theorem State.ibi_lines (s : State) (n : Nat) : (s.ibi n).lines = s.lines := by unfold State.ibi; split <;> rfl
@[simp] theorem State.ibi_yards (s : State) (n : Nat) : (s.ibi n).yards = s.yards := by unfold State.ibi; split <;> rfl
@[simp] theorem State.ibi_platforms (s : State) (n : Nat) : (s.ibi n).platforms = s.platforms := by unfold State.ibi; split <;> rfl
@[simp] theorem State.ibi_pools (s : State) (n : Nat) : (s.ibi n).pools = s.pools := by unfold State.ibi; split <;> rfl
@[simp] theorem State.ibi_combine (s : State) (n : Nat) : (s.ibi n).combine = s.combine := by unfold State.ibi; split <;> rfl
@[simp] theorem State.ibi_exits (s : State) (n : Nat) : (s.ibi n).exits = s.exits := by unfold State.ibi; split <;> rfl
@[simp] theorem State.ibi_streams (s : State) (n : Nat) : (s.ibi n).streams = s.streams := by unfold State.ibi; split <;> rfl
@[simp] theorem State.ibi_fabric (s : State) (n : Nat) : (s.ibi n).fabric = s.fabric := by unfold State.ibi; split <;> rfl
@[simp] theorem State.ibi_rmem (s : State) (n : Nat) : (s.ibi n).rmem = s.rmem := by unfold State.ibi; split <;> rfl
@[simp] theorem State.ibi_colls (s : State) (n : Nat) : (s.ibi n).colls = s.colls := by unfold State.ibi; split <;> rfl
@[simp] theorem State.ibi_tiers (s : State) (n : Nat) : (s.ibi n).tiers = s.tiers := by unfold State.ibi; split <;> rfl
@[simp] theorem State.ibi_clip (s : State) (n : Nat) : (s.ibi n).clip = s.clip := by unfold State.ibi; split <;> rfl
@[simp] theorem State.ibi_slots (s : State) (n : Nat) : (s.ibi n).slots = s.slots := by unfold State.ibi; split <;> rfl
@[simp] theorem State.ibi_swap (s : State) (n : Nat) : (s.ibi n).swap = s.swap := by unfold State.ibi; split <;> rfl
@[simp] theorem State.ibi_manager (s : State) (n : Nat) : (s.ibi n).manager = s.manager := by unfold State.ibi; split <;> rfl
@[simp] theorem State.ibi_nv (s : State) (n : Nat) : (s.ibi n).nv = s.nv := by unfold State.ibi; split <;> rfl
@[simp] theorem State.ibi_security (s : State) (n : Nat) : (s.ibi n).security = s.security := by unfold State.ibi; split <;> rfl
@[simp] theorem State.ibi_package (s : State) (n : Nat) : (s.ibi n).package = s.package := by unfold State.ibi; split <;> rfl

/-! ### setBoot -/

@[simp] theorem State.setBoot_pending (s : State) (v : Nat) : (s.setBoot v).pending = s.pending := by unfold State.setBoot; split <;> simp
@[simp] theorem State.setBoot_free (s : State) (v : Nat) : (s.setBoot v).free = s.free := by unfold State.setBoot; split <;> simp
@[simp] theorem State.setBoot_doms (s : State) (v : Nat) : (s.setBoot v).doms = s.doms := by unfold State.setBoot; split <;> simp
@[simp] theorem State.setBoot_latch (s : State) (v : Nat) : (s.setBoot v).latch = s.latch := by unfold State.setBoot; split <;> simp
@[simp] theorem State.setBoot_prior (s : State) (v : Nat) : (s.setBoot v).prior = s.prior := by unfold State.setBoot; split <;> simp
@[simp] theorem State.setBoot_latchDoms (s : State) (v : Nat) : (s.setBoot v).latchDoms = s.latchDoms := by unfold State.setBoot; split <;> simp
@[simp] theorem State.setBoot_shadows (s : State) (v : Nat) : (s.setBoot v).shadows = s.shadows := by unfold State.setBoot; split <;> simp
@[simp] theorem State.setBoot_commits (s : State) (v : Nat) : (s.setBoot v).commits = s.commits := by unfold State.setBoot; split <;> simp
@[simp] theorem State.setBoot_time (s : State) (v : Nat) : (s.setBoot v).time = s.time := by unfold State.setBoot; split <;> simp
@[simp] theorem State.setBoot_beat (s : State) (v : Nat) : (s.setBoot v).beat = s.beat := by unfold State.setBoot; split <;> simp
@[simp] theorem State.setBoot_cores (s : State) (v : Nat) : (s.setBoot v).cores = s.cores := by unfold State.setBoot; split <;> simp
@[simp] theorem State.setBoot_lines (s : State) (v : Nat) : (s.setBoot v).lines = s.lines := by unfold State.setBoot; split <;> simp
@[simp] theorem State.setBoot_yards (s : State) (v : Nat) : (s.setBoot v).yards = s.yards := by unfold State.setBoot; split <;> simp
@[simp] theorem State.setBoot_platforms (s : State) (v : Nat) : (s.setBoot v).platforms = s.platforms := by unfold State.setBoot; split <;> simp
@[simp] theorem State.setBoot_pools (s : State) (v : Nat) : (s.setBoot v).pools = s.pools := by unfold State.setBoot; split <;> simp
@[simp] theorem State.setBoot_combine (s : State) (v : Nat) : (s.setBoot v).combine = s.combine := by unfold State.setBoot; split <;> simp
@[simp] theorem State.setBoot_exits (s : State) (v : Nat) : (s.setBoot v).exits = s.exits := by unfold State.setBoot; split <;> simp
@[simp] theorem State.setBoot_streams (s : State) (v : Nat) : (s.setBoot v).streams = s.streams := by unfold State.setBoot; split <;> simp
@[simp] theorem State.setBoot_fabric (s : State) (v : Nat) : (s.setBoot v).fabric = s.fabric := by unfold State.setBoot; split <;> simp
@[simp] theorem State.setBoot_rmem (s : State) (v : Nat) : (s.setBoot v).rmem = s.rmem := by unfold State.setBoot; split <;> simp
@[simp] theorem State.setBoot_colls (s : State) (v : Nat) : (s.setBoot v).colls = s.colls := by unfold State.setBoot; split <;> simp
@[simp] theorem State.setBoot_tiers (s : State) (v : Nat) : (s.setBoot v).tiers = s.tiers := by unfold State.setBoot; split <;> simp
@[simp] theorem State.setBoot_clip (s : State) (v : Nat) : (s.setBoot v).clip = s.clip := by unfold State.setBoot; split <;> simp
@[simp] theorem State.setBoot_slots (s : State) (v : Nat) : (s.setBoot v).slots = s.slots := by unfold State.setBoot; split <;> simp
@[simp] theorem State.setBoot_swap (s : State) (v : Nat) : (s.setBoot v).swap = s.swap := by unfold State.setBoot; split <;> simp
@[simp] theorem State.setBoot_manager (s : State) (v : Nat) : (s.setBoot v).manager = s.manager := by unfold State.setBoot; split <;> simp
@[simp] theorem State.setBoot_nv (s : State) (v : Nat) : (s.setBoot v).nv = s.nv := by unfold State.setBoot; split <;> simp
@[simp] theorem State.setBoot_security (s : State) (v : Nat) : (s.setBoot v).security = s.security := by unfold State.setBoot; split <;> simp
@[simp] theorem State.setBoot_package (s : State) (v : Nat) : (s.setBoot v).package = s.package := by unfold State.setBoot; split <;> simp

/-! ### sendRank -/

@[simp] theorem State.sendRank_pending (s : State) (rank cluster srcCluster func cls : Nat) (b : Body) : (s.sendRank rank cluster srcCluster func cls b).pending = s.pending := by unfold State.sendRank; split <;> rfl
@[simp] theorem State.sendRank_free (s : State) (rank cluster srcCluster func cls : Nat) (b : Body) : (s.sendRank rank cluster srcCluster func cls b).free = s.free := by unfold State.sendRank; split <;> rfl
@[simp] theorem State.sendRank_doms (s : State) (rank cluster srcCluster func cls : Nat) (b : Body) : (s.sendRank rank cluster srcCluster func cls b).doms = s.doms := by unfold State.sendRank; split <;> rfl
@[simp] theorem State.sendRank_latch (s : State) (rank cluster srcCluster func cls : Nat) (b : Body) : (s.sendRank rank cluster srcCluster func cls b).latch = s.latch := by unfold State.sendRank; split <;> rfl
@[simp] theorem State.sendRank_prior (s : State) (rank cluster srcCluster func cls : Nat) (b : Body) : (s.sendRank rank cluster srcCluster func cls b).prior = s.prior := by unfold State.sendRank; split <;> rfl
@[simp] theorem State.sendRank_latchDoms (s : State) (rank cluster srcCluster func cls : Nat) (b : Body) : (s.sendRank rank cluster srcCluster func cls b).latchDoms = s.latchDoms := by unfold State.sendRank; split <;> rfl
@[simp] theorem State.sendRank_shadows (s : State) (rank cluster srcCluster func cls : Nat) (b : Body) : (s.sendRank rank cluster srcCluster func cls b).shadows = s.shadows := by unfold State.sendRank; split <;> rfl
@[simp] theorem State.sendRank_commits (s : State) (rank cluster srcCluster func cls : Nat) (b : Body) : (s.sendRank rank cluster srcCluster func cls b).commits = s.commits := by unfold State.sendRank; split <;> rfl
@[simp] theorem State.sendRank_time (s : State) (rank cluster srcCluster func cls : Nat) (b : Body) : (s.sendRank rank cluster srcCluster func cls b).time = s.time := by unfold State.sendRank; split <;> rfl
@[simp] theorem State.sendRank_beat (s : State) (rank cluster srcCluster func cls : Nat) (b : Body) : (s.sendRank rank cluster srcCluster func cls b).beat = s.beat := by unfold State.sendRank; split <;> rfl
@[simp] theorem State.sendRank_cores (s : State) (rank cluster srcCluster func cls : Nat) (b : Body) : (s.sendRank rank cluster srcCluster func cls b).cores = s.cores := by unfold State.sendRank; split <;> rfl
@[simp] theorem State.sendRank_lines (s : State) (rank cluster srcCluster func cls : Nat) (b : Body) : (s.sendRank rank cluster srcCluster func cls b).lines = s.lines := by unfold State.sendRank; split <;> rfl
@[simp] theorem State.sendRank_yards (s : State) (rank cluster srcCluster func cls : Nat) (b : Body) : (s.sendRank rank cluster srcCluster func cls b).yards = s.yards := by unfold State.sendRank; split <;> rfl
@[simp] theorem State.sendRank_platforms (s : State) (rank cluster srcCluster func cls : Nat) (b : Body) : (s.sendRank rank cluster srcCluster func cls b).platforms = s.platforms := by unfold State.sendRank; split <;> rfl
@[simp] theorem State.sendRank_pools (s : State) (rank cluster srcCluster func cls : Nat) (b : Body) : (s.sendRank rank cluster srcCluster func cls b).pools = s.pools := by unfold State.sendRank; split <;> rfl
@[simp] theorem State.sendRank_combine (s : State) (rank cluster srcCluster func cls : Nat) (b : Body) : (s.sendRank rank cluster srcCluster func cls b).combine = s.combine := by unfold State.sendRank; split <;> rfl
@[simp] theorem State.sendRank_exits (s : State) (rank cluster srcCluster func cls : Nat) (b : Body) : (s.sendRank rank cluster srcCluster func cls b).exits = s.exits := by unfold State.sendRank; split <;> rfl
@[simp] theorem State.sendRank_streams (s : State) (rank cluster srcCluster func cls : Nat) (b : Body) : (s.sendRank rank cluster srcCluster func cls b).streams = s.streams := by unfold State.sendRank; split <;> rfl
@[simp] theorem State.sendRank_rmem (s : State) (rank cluster srcCluster func cls : Nat) (b : Body) : (s.sendRank rank cluster srcCluster func cls b).rmem = s.rmem := by unfold State.sendRank; split <;> rfl
@[simp] theorem State.sendRank_colls (s : State) (rank cluster srcCluster func cls : Nat) (b : Body) : (s.sendRank rank cluster srcCluster func cls b).colls = s.colls := by unfold State.sendRank; split <;> rfl
@[simp] theorem State.sendRank_tiers (s : State) (rank cluster srcCluster func cls : Nat) (b : Body) : (s.sendRank rank cluster srcCluster func cls b).tiers = s.tiers := by unfold State.sendRank; split <;> rfl
@[simp] theorem State.sendRank_clip (s : State) (rank cluster srcCluster func cls : Nat) (b : Body) : (s.sendRank rank cluster srcCluster func cls b).clip = s.clip := by unfold State.sendRank; split <;> rfl
@[simp] theorem State.sendRank_slots (s : State) (rank cluster srcCluster func cls : Nat) (b : Body) : (s.sendRank rank cluster srcCluster func cls b).slots = s.slots := by unfold State.sendRank; split <;> rfl
@[simp] theorem State.sendRank_swap (s : State) (rank cluster srcCluster func cls : Nat) (b : Body) : (s.sendRank rank cluster srcCluster func cls b).swap = s.swap := by unfold State.sendRank; split <;> rfl
@[simp] theorem State.sendRank_manager (s : State) (rank cluster srcCluster func cls : Nat) (b : Body) : (s.sendRank rank cluster srcCluster func cls b).manager = s.manager := by unfold State.sendRank; split <;> rfl
@[simp] theorem State.sendRank_host (s : State) (rank cluster srcCluster func cls : Nat) (b : Body) : (s.sendRank rank cluster srcCluster func cls b).host = s.host := by unfold State.sendRank; split <;> rfl
@[simp] theorem State.sendRank_nv (s : State) (rank cluster srcCluster func cls : Nat) (b : Body) : (s.sendRank rank cluster srcCluster func cls b).nv = s.nv := by unfold State.sendRank; split <;> rfl
@[simp] theorem State.sendRank_security (s : State) (rank cluster srcCluster func cls : Nat) (b : Body) : (s.sendRank rank cluster srcCluster func cls b).security = s.security := by unfold State.sendRank; split <;> rfl
@[simp] theorem State.sendRank_package (s : State) (rank cluster srcCluster func cls : Nat) (b : Body) : (s.sendRank rank cluster srcCluster func cls b).package = s.package := by unfold State.sendRank; split <;> rfl

/-! ### sendNotice -/

@[simp] theorem State.sendNotice_pending (s : State) (rank : Nat) (m : MgmtMsg) : (s.sendNotice rank m).pending = s.pending := by unfold State.sendNotice; simp
@[simp] theorem State.sendNotice_free (s : State) (rank : Nat) (m : MgmtMsg) : (s.sendNotice rank m).free = s.free := by unfold State.sendNotice; simp
@[simp] theorem State.sendNotice_doms (s : State) (rank : Nat) (m : MgmtMsg) : (s.sendNotice rank m).doms = s.doms := by unfold State.sendNotice; simp
@[simp] theorem State.sendNotice_latch (s : State) (rank : Nat) (m : MgmtMsg) : (s.sendNotice rank m).latch = s.latch := by unfold State.sendNotice; simp
@[simp] theorem State.sendNotice_prior (s : State) (rank : Nat) (m : MgmtMsg) : (s.sendNotice rank m).prior = s.prior := by unfold State.sendNotice; simp
@[simp] theorem State.sendNotice_latchDoms (s : State) (rank : Nat) (m : MgmtMsg) : (s.sendNotice rank m).latchDoms = s.latchDoms := by unfold State.sendNotice; simp
@[simp] theorem State.sendNotice_shadows (s : State) (rank : Nat) (m : MgmtMsg) : (s.sendNotice rank m).shadows = s.shadows := by unfold State.sendNotice; simp
@[simp] theorem State.sendNotice_commits (s : State) (rank : Nat) (m : MgmtMsg) : (s.sendNotice rank m).commits = s.commits := by unfold State.sendNotice; simp
@[simp] theorem State.sendNotice_time (s : State) (rank : Nat) (m : MgmtMsg) : (s.sendNotice rank m).time = s.time := by unfold State.sendNotice; simp
@[simp] theorem State.sendNotice_beat (s : State) (rank : Nat) (m : MgmtMsg) : (s.sendNotice rank m).beat = s.beat := by unfold State.sendNotice; simp
@[simp] theorem State.sendNotice_cores (s : State) (rank : Nat) (m : MgmtMsg) : (s.sendNotice rank m).cores = s.cores := by unfold State.sendNotice; simp
@[simp] theorem State.sendNotice_lines (s : State) (rank : Nat) (m : MgmtMsg) : (s.sendNotice rank m).lines = s.lines := by unfold State.sendNotice; simp
@[simp] theorem State.sendNotice_yards (s : State) (rank : Nat) (m : MgmtMsg) : (s.sendNotice rank m).yards = s.yards := by unfold State.sendNotice; simp
@[simp] theorem State.sendNotice_platforms (s : State) (rank : Nat) (m : MgmtMsg) : (s.sendNotice rank m).platforms = s.platforms := by unfold State.sendNotice; simp
@[simp] theorem State.sendNotice_pools (s : State) (rank : Nat) (m : MgmtMsg) : (s.sendNotice rank m).pools = s.pools := by unfold State.sendNotice; simp
@[simp] theorem State.sendNotice_combine (s : State) (rank : Nat) (m : MgmtMsg) : (s.sendNotice rank m).combine = s.combine := by unfold State.sendNotice; simp
@[simp] theorem State.sendNotice_exits (s : State) (rank : Nat) (m : MgmtMsg) : (s.sendNotice rank m).exits = s.exits := by unfold State.sendNotice; simp
@[simp] theorem State.sendNotice_streams (s : State) (rank : Nat) (m : MgmtMsg) : (s.sendNotice rank m).streams = s.streams := by unfold State.sendNotice; simp
@[simp] theorem State.sendNotice_rmem (s : State) (rank : Nat) (m : MgmtMsg) : (s.sendNotice rank m).rmem = s.rmem := by unfold State.sendNotice; simp
@[simp] theorem State.sendNotice_colls (s : State) (rank : Nat) (m : MgmtMsg) : (s.sendNotice rank m).colls = s.colls := by unfold State.sendNotice; simp
@[simp] theorem State.sendNotice_tiers (s : State) (rank : Nat) (m : MgmtMsg) : (s.sendNotice rank m).tiers = s.tiers := by unfold State.sendNotice; simp
@[simp] theorem State.sendNotice_clip (s : State) (rank : Nat) (m : MgmtMsg) : (s.sendNotice rank m).clip = s.clip := by unfold State.sendNotice; simp
@[simp] theorem State.sendNotice_slots (s : State) (rank : Nat) (m : MgmtMsg) : (s.sendNotice rank m).slots = s.slots := by unfold State.sendNotice; simp
@[simp] theorem State.sendNotice_swap (s : State) (rank : Nat) (m : MgmtMsg) : (s.sendNotice rank m).swap = s.swap := by unfold State.sendNotice; simp
@[simp] theorem State.sendNotice_manager (s : State) (rank : Nat) (m : MgmtMsg) : (s.sendNotice rank m).manager = s.manager := by unfold State.sendNotice; simp
@[simp] theorem State.sendNotice_host (s : State) (rank : Nat) (m : MgmtMsg) : (s.sendNotice rank m).host = s.host := by unfold State.sendNotice; simp
@[simp] theorem State.sendNotice_nv (s : State) (rank : Nat) (m : MgmtMsg) : (s.sendNotice rank m).nv = s.nv := by unfold State.sendNotice; simp
@[simp] theorem State.sendNotice_security (s : State) (rank : Nat) (m : MgmtMsg) : (s.sendNotice rank m).security = s.security := by unfold State.sendNotice; simp
@[simp] theorem State.sendNotice_package (s : State) (rank : Nat) (m : MgmtMsg) : (s.sendNotice rank m).package = s.package := by unfold State.sendNotice; simp

/-! ### report -/

@[simp] theorem State.report_pending (s : State) (kind mid cause : Nat) : (s.report kind mid cause).pending = s.pending := by unfold State.report; simp only []; split <;> rfl
@[simp] theorem State.report_free (s : State) (kind mid cause : Nat) : (s.report kind mid cause).free = s.free := by unfold State.report; simp only []; split <;> rfl
@[simp] theorem State.report_doms (s : State) (kind mid cause : Nat) : (s.report kind mid cause).doms = s.doms := by unfold State.report; simp only []; split <;> rfl
@[simp] theorem State.report_latch (s : State) (kind mid cause : Nat) : (s.report kind mid cause).latch = s.latch := by unfold State.report; simp only []; split <;> rfl
@[simp] theorem State.report_prior (s : State) (kind mid cause : Nat) : (s.report kind mid cause).prior = s.prior := by unfold State.report; simp only []; split <;> rfl
@[simp] theorem State.report_latchDoms (s : State) (kind mid cause : Nat) : (s.report kind mid cause).latchDoms = s.latchDoms := by unfold State.report; simp only []; split <;> rfl
@[simp] theorem State.report_shadows (s : State) (kind mid cause : Nat) : (s.report kind mid cause).shadows = s.shadows := by unfold State.report; simp only []; split <;> rfl
@[simp] theorem State.report_commits (s : State) (kind mid cause : Nat) : (s.report kind mid cause).commits = s.commits := by unfold State.report; simp only []; split <;> rfl
@[simp] theorem State.report_time (s : State) (kind mid cause : Nat) : (s.report kind mid cause).time = s.time := by unfold State.report; simp only []; split <;> rfl
@[simp] theorem State.report_beat (s : State) (kind mid cause : Nat) : (s.report kind mid cause).beat = s.beat := by unfold State.report; simp only []; split <;> rfl
@[simp] theorem State.report_cores (s : State) (kind mid cause : Nat) : (s.report kind mid cause).cores = s.cores := by unfold State.report; simp only []; split <;> rfl
@[simp] theorem State.report_lines (s : State) (kind mid cause : Nat) : (s.report kind mid cause).lines = s.lines := by unfold State.report; simp only []; split <;> rfl
@[simp] theorem State.report_yards (s : State) (kind mid cause : Nat) : (s.report kind mid cause).yards = s.yards := by unfold State.report; simp only []; split <;> rfl
@[simp] theorem State.report_platforms (s : State) (kind mid cause : Nat) : (s.report kind mid cause).platforms = s.platforms := by unfold State.report; simp only []; split <;> rfl
@[simp] theorem State.report_pools (s : State) (kind mid cause : Nat) : (s.report kind mid cause).pools = s.pools := by unfold State.report; simp only []; split <;> rfl
@[simp] theorem State.report_combine (s : State) (kind mid cause : Nat) : (s.report kind mid cause).combine = s.combine := by unfold State.report; simp only []; split <;> rfl
@[simp] theorem State.report_exits (s : State) (kind mid cause : Nat) : (s.report kind mid cause).exits = s.exits := by unfold State.report; simp only []; split <;> rfl
@[simp] theorem State.report_streams (s : State) (kind mid cause : Nat) : (s.report kind mid cause).streams = s.streams := by unfold State.report; simp only []; split <;> rfl
@[simp] theorem State.report_rmem (s : State) (kind mid cause : Nat) : (s.report kind mid cause).rmem = s.rmem := by unfold State.report; simp only []; split <;> rfl
@[simp] theorem State.report_colls (s : State) (kind mid cause : Nat) : (s.report kind mid cause).colls = s.colls := by unfold State.report; simp only []; split <;> rfl
@[simp] theorem State.report_tiers (s : State) (kind mid cause : Nat) : (s.report kind mid cause).tiers = s.tiers := by unfold State.report; simp only []; split <;> rfl
@[simp] theorem State.report_clip (s : State) (kind mid cause : Nat) : (s.report kind mid cause).clip = s.clip := by unfold State.report; simp only []; split <;> rfl
@[simp] theorem State.report_slots (s : State) (kind mid cause : Nat) : (s.report kind mid cause).slots = s.slots := by unfold State.report; simp only []; split <;> rfl
@[simp] theorem State.report_swap (s : State) (kind mid cause : Nat) : (s.report kind mid cause).swap = s.swap := by unfold State.report; simp only []; split <;> rfl
@[simp] theorem State.report_host (s : State) (kind mid cause : Nat) : (s.report kind mid cause).host = s.host := by unfold State.report; simp only []; split <;> rfl
@[simp] theorem State.report_nv (s : State) (kind mid cause : Nat) : (s.report kind mid cause).nv = s.nv := by unfold State.report; simp only []; split <;> rfl
@[simp] theorem State.report_security (s : State) (kind mid cause : Nat) : (s.report kind mid cause).security = s.security := by unfold State.report; simp only []; split <;> rfl
@[simp] theorem State.report_package (s : State) (kind mid cause : Nat) : (s.report kind mid cause).package = s.package := by unfold State.report; simp only []; split <;> rfl

/-! ### tenantFault -/

@[simp] theorem State.tenantFault_pending (s : State) (unit cause : Nat) : (s.tenantFault unit cause).pending = s.pending := by unfold State.tenantFault; simp
@[simp] theorem State.tenantFault_free (s : State) (unit cause : Nat) : (s.tenantFault unit cause).free = s.free := by unfold State.tenantFault; simp
@[simp] theorem State.tenantFault_doms (s : State) (unit cause : Nat) : (s.tenantFault unit cause).doms = s.doms := by unfold State.tenantFault; simp
@[simp] theorem State.tenantFault_latch (s : State) (unit cause : Nat) : (s.tenantFault unit cause).latch = s.latch := by unfold State.tenantFault; simp
@[simp] theorem State.tenantFault_prior (s : State) (unit cause : Nat) : (s.tenantFault unit cause).prior = s.prior := by unfold State.tenantFault; simp
@[simp] theorem State.tenantFault_latchDoms (s : State) (unit cause : Nat) : (s.tenantFault unit cause).latchDoms = s.latchDoms := by unfold State.tenantFault; simp
@[simp] theorem State.tenantFault_shadows (s : State) (unit cause : Nat) : (s.tenantFault unit cause).shadows = s.shadows := by unfold State.tenantFault; simp
@[simp] theorem State.tenantFault_commits (s : State) (unit cause : Nat) : (s.tenantFault unit cause).commits = s.commits := by unfold State.tenantFault; simp
@[simp] theorem State.tenantFault_time (s : State) (unit cause : Nat) : (s.tenantFault unit cause).time = s.time := by unfold State.tenantFault; simp
@[simp] theorem State.tenantFault_beat (s : State) (unit cause : Nat) : (s.tenantFault unit cause).beat = s.beat := by unfold State.tenantFault; simp
@[simp] theorem State.tenantFault_cores (s : State) (unit cause : Nat) : (s.tenantFault unit cause).cores = s.cores := by unfold State.tenantFault; simp
@[simp] theorem State.tenantFault_lines (s : State) (unit cause : Nat) : (s.tenantFault unit cause).lines = s.lines := by unfold State.tenantFault; simp
@[simp] theorem State.tenantFault_yards (s : State) (unit cause : Nat) : (s.tenantFault unit cause).yards = s.yards := by unfold State.tenantFault; simp
@[simp] theorem State.tenantFault_platforms (s : State) (unit cause : Nat) : (s.tenantFault unit cause).platforms = s.platforms := by unfold State.tenantFault; simp
@[simp] theorem State.tenantFault_pools (s : State) (unit cause : Nat) : (s.tenantFault unit cause).pools = s.pools := by unfold State.tenantFault; simp
@[simp] theorem State.tenantFault_combine (s : State) (unit cause : Nat) : (s.tenantFault unit cause).combine = s.combine := by unfold State.tenantFault; simp
@[simp] theorem State.tenantFault_exits (s : State) (unit cause : Nat) : (s.tenantFault unit cause).exits = s.exits := by unfold State.tenantFault; simp
@[simp] theorem State.tenantFault_streams (s : State) (unit cause : Nat) : (s.tenantFault unit cause).streams = s.streams := by unfold State.tenantFault; simp
@[simp] theorem State.tenantFault_rmem (s : State) (unit cause : Nat) : (s.tenantFault unit cause).rmem = s.rmem := by unfold State.tenantFault; simp
@[simp] theorem State.tenantFault_colls (s : State) (unit cause : Nat) : (s.tenantFault unit cause).colls = s.colls := by unfold State.tenantFault; simp
@[simp] theorem State.tenantFault_tiers (s : State) (unit cause : Nat) : (s.tenantFault unit cause).tiers = s.tiers := by unfold State.tenantFault; simp
@[simp] theorem State.tenantFault_clip (s : State) (unit cause : Nat) : (s.tenantFault unit cause).clip = s.clip := by unfold State.tenantFault; simp
@[simp] theorem State.tenantFault_slots (s : State) (unit cause : Nat) : (s.tenantFault unit cause).slots = s.slots := by unfold State.tenantFault; simp
@[simp] theorem State.tenantFault_swap (s : State) (unit cause : Nat) : (s.tenantFault unit cause).swap = s.swap := by unfold State.tenantFault; simp
@[simp] theorem State.tenantFault_host (s : State) (unit cause : Nat) : (s.tenantFault unit cause).host = s.host := by unfold State.tenantFault; simp
@[simp] theorem State.tenantFault_nv (s : State) (unit cause : Nat) : (s.tenantFault unit cause).nv = s.nv := by unfold State.tenantFault; simp
@[simp] theorem State.tenantFault_security (s : State) (unit cause : Nat) : (s.tenantFault unit cause).security = s.security := by unfold State.tenantFault; simp
@[simp] theorem State.tenantFault_package (s : State) (unit cause : Nat) : (s.tenantFault unit cause).package = s.package := by unfold State.tenantFault; simp

/-! ### Numbers -/

theorem State.reg_setReg (s : State) (k v j : Nat) : (s.setReg k v).reg j = if j = k then v else s.reg j := by
  unfold State.reg State.setReg
  simp only [mapGet_mapSet]
  split <;> rfl

@[simp] theorem State.reg_setReg_same (s : State) (k v : Nat) : (s.setReg k v).reg k = v := by simp [State.reg_setReg]

theorem State.reg_setReg_other (s : State) {k j : Nat} (v : Nat) (h : j ≠ k) : (s.setReg k v).reg j = s.reg j := by
  simp [State.reg_setReg, h]

theorem State.reg_count (s : State) (k n j : Nat) :
    (s.count k n).reg j = if j = k then (s.reg k + n) % 2 ^ 32 else s.reg j := by
  simp [State.count, State.reg_setReg, wrapAdd]

@[simp] theorem State.reg_count_same (s : State) (k n : Nat) : (s.count k n).reg k = (s.reg k + n) % 2 ^ 32 := by
  simp [State.reg_count]

theorem State.reg_count_other (s : State) {k j : Nat} (n : Nat) (h : j ≠ k) : (s.count k n).reg j = s.reg j := by
  simp [State.reg_count, h]

theorem State.reg_count64 (s : State) (k n j : Nat) :
    (s.count64 k n).reg j = if j = k then (s.reg k + n) % 2 ^ 64 else s.reg j := by
  simp [State.count64, State.reg_setReg, wrapAdd]

/-- A number is read from the live numbers alone. -/
theorem State.reg_of_regs {s t : State} (h : t.regs = s.regs) (k : Nat) : t.reg k = s.reg k := by
  unfold State.reg; rw [h]

/-- A byte string is read from the live byte strings alone. -/
theorem State.dom_of_doms {s t : State} (h : t.doms = s.doms) (k : Nat) : t.dom k = s.dom k := by
  unfold State.dom; rw [h]

/-- A core is read from the cores alone. -/
theorem State.core_of_cores {s t : State} (h : t.cores = s.cores) (c : Nat) : t.core c = s.core c := by
  unfold State.core; rw [h]

@[simp] theorem State.dom_setReg (s : State) (k v : Nat) (j : Nat) : (s.setReg k v).dom j = s.dom j :=
  State.dom_of_doms (by simp) j
@[simp] theorem State.core_setReg (s : State) (k v : Nat) (j : Nat) : (s.setReg k v).core j = s.core j :=
  State.core_of_cores (by simp) j
@[simp] theorem State.reg_setDom (s : State) (k : Nat) (b : Blob) (j : Nat) : (s.setDom k b).reg j = s.reg j :=
  State.reg_of_regs (by simp) j
@[simp] theorem State.core_setDom (s : State) (k : Nat) (b : Blob) (j : Nat) : (s.setDom k b).core j = s.core j :=
  State.core_of_cores (by simp) j
@[simp] theorem State.dom_count (s : State) (k n : Nat) (j : Nat) : (s.count k n).dom j = s.dom j :=
  State.dom_of_doms (by simp) j
@[simp] theorem State.core_count (s : State) (k n : Nat) (j : Nat) : (s.count k n).core j = s.core j :=
  State.core_of_cores (by simp) j
@[simp] theorem State.dom_count64 (s : State) (k n : Nat) (j : Nat) : (s.count64 k n).dom j = s.dom j :=
  State.dom_of_doms (by simp) j
@[simp] theorem State.core_count64 (s : State) (k n : Nat) (j : Nat) : (s.count64 k n).core j = s.core j :=
  State.core_of_cores (by simp) j
@[simp] theorem State.reg_setCore (s : State) (c : Nat) (k : Core) (j : Nat) : (s.setCore c k).reg j = s.reg j :=
  State.reg_of_regs (by simp) j
@[simp] theorem State.dom_setCore (s : State) (c : Nat) (k : Core) (j : Nat) : (s.setCore c k).dom j = s.dom j :=
  State.dom_of_doms (by simp) j
@[simp] theorem State.reg_updCore (s : State) (c : Nat) (f : Core → Core) (j : Nat) : (s.updCore c f).reg j = s.reg j :=
  State.reg_of_regs (by simp) j
@[simp] theorem State.dom_updCore (s : State) (c : Nat) (f : Core → Core) (j : Nat) : (s.updCore c f).dom j = s.dom j :=
  State.dom_of_doms (by simp) j
@[simp] theorem State.reg_inject (s : State) (p : Packet) (j : Nat) : (s.inject p).reg j = s.reg j :=
  State.reg_of_regs (by simp) j
@[simp] theorem State.dom_inject (s : State) (p : Packet) (j : Nat) : (s.inject p).dom j = s.dom j :=
  State.dom_of_doms (by simp) j
@[simp] theorem State.core_inject (s : State) (p : Packet) (j : Nat) : (s.inject p).core j = s.core j :=
  State.core_of_cores (by simp) j
@[simp] theorem State.reg_sendMgmt (s : State) (d : Nat) (m : MgmtMsg) (j : Nat) : (s.sendMgmt d m).reg j = s.reg j :=
  State.reg_of_regs (by simp) j
@[simp] theorem State.dom_sendMgmt (s : State) (d : Nat) (m : MgmtMsg) (j : Nat) : (s.sendMgmt d m).dom j = s.dom j :=
  State.dom_of_doms (by simp) j
@[simp] theorem State.core_sendMgmt (s : State) (d : Nat) (m : MgmtMsg) (j : Nat) : (s.sendMgmt d m).core j = s.core j :=
  State.core_of_cores (by simp) j
@[simp] theorem State.reg_setSession (s : State) (b : Nat) (x : Session) (j : Nat) : (s.setSession b x).reg j = s.reg j :=
  State.reg_of_regs (by simp) j
@[simp] theorem State.dom_setSession (s : State) (b : Nat) (x : Session) (j : Nat) : (s.setSession b x).dom j = s.dom j :=
  State.dom_of_doms (by simp) j
@[simp] theorem State.core_setSession (s : State) (b : Nat) (x : Session) (j : Nat) : (s.setSession b x).core j = s.core j :=
  State.core_of_cores (by simp) j
@[simp] theorem State.dom_logReport (s : State) (kind mid cause : Nat) (j : Nat) : (s.logReport kind mid cause).dom j = s.dom j :=
  State.dom_of_doms (by simp) j
@[simp] theorem State.core_logReport (s : State) (kind mid cause : Nat) (j : Nat) : (s.logReport kind mid cause).core j = s.core j :=
  State.core_of_cores (by simp) j
@[simp] theorem State.reg_ibi (s : State) (n : Nat) (j : Nat) : (s.ibi n).reg j = s.reg j :=
  State.reg_of_regs (by simp) j
@[simp] theorem State.dom_ibi (s : State) (n : Nat) (j : Nat) : (s.ibi n).dom j = s.dom j :=
  State.dom_of_doms (by simp) j
@[simp] theorem State.core_ibi (s : State) (n : Nat) (j : Nat) : (s.ibi n).core j = s.core j :=
  State.core_of_cores (by simp) j
@[simp] theorem State.dom_setBoot (s : State) (v : Nat) (j : Nat) : (s.setBoot v).dom j = s.dom j :=
  State.dom_of_doms (by simp) j
@[simp] theorem State.core_setBoot (s : State) (v : Nat) (j : Nat) : (s.setBoot v).core j = s.core j :=
  State.core_of_cores (by simp) j
@[simp] theorem State.dom_sendRank (s : State) (rank cluster srcCluster func cls : Nat) (b : Body) (j : Nat) : (s.sendRank rank cluster srcCluster func cls b).dom j = s.dom j :=
  State.dom_of_doms (by simp) j
@[simp] theorem State.core_sendRank (s : State) (rank cluster srcCluster func cls : Nat) (b : Body) (j : Nat) : (s.sendRank rank cluster srcCluster func cls b).core j = s.core j :=
  State.core_of_cores (by simp) j
@[simp] theorem State.dom_sendNotice (s : State) (rank : Nat) (m : MgmtMsg) (j : Nat) : (s.sendNotice rank m).dom j = s.dom j :=
  State.dom_of_doms (by simp) j
@[simp] theorem State.core_sendNotice (s : State) (rank : Nat) (m : MgmtMsg) (j : Nat) : (s.sendNotice rank m).core j = s.core j :=
  State.core_of_cores (by simp) j
@[simp] theorem State.dom_report (s : State) (kind mid cause : Nat) (j : Nat) : (s.report kind mid cause).dom j = s.dom j :=
  State.dom_of_doms (by simp) j
@[simp] theorem State.core_report (s : State) (kind mid cause : Nat) (j : Nat) : (s.report kind mid cause).core j = s.core j :=
  State.core_of_cores (by simp) j
@[simp] theorem State.dom_tenantFault (s : State) (unit cause : Nat) (j : Nat) : (s.tenantFault unit cause).dom j = s.dom j :=
  State.dom_of_doms (by simp) j
@[simp] theorem State.core_tenantFault (s : State) (unit cause : Nat) (j : Nat) : (s.tenantFault unit cause).core j = s.core j :=
  State.core_of_cores (by simp) j

theorem State.dom_setDom (s : State) (k j : Nat) (b : Blob) : (s.setDom k b).dom j = if j = k then b else s.dom j := by
  unfold State.dom State.setDom
  simp only [mapGet_mapSet]
  split <;> rfl

@[simp] theorem State.dom_setDom_same (s : State) (k : Nat) (b : Blob) : (s.setDom k b).dom k = b := by
  simp [State.dom_setDom]

theorem State.core_setCore (s : State) (c d : Nat) (k : Core) :
    (s.setCore c k).core d = if d = c then k else s.core d := by
  unfold State.core State.setCore
  simp only [mapGetD_mapSet]

@[simp] theorem State.core_setCore_same (s : State) (c : Nat) (k : Core) : (s.setCore c k).core c = k := by
  simp [State.core_setCore]

theorem State.core_setCore_other (s : State) {c d : Nat} (k : Core) (h : d ≠ c) : (s.setCore c k).core d = s.core d := by
  simp [State.core_setCore, h]

theorem State.core_updCore (s : State) (c d : Nat) (f : Core → Core) :
    (s.updCore c f).core d = if d = c then f (s.core c) else s.core d := by
  simp [State.updCore, State.core_setCore]

theorem State.session_setSession (s : State) (b d : Nat) (x : Session) :
    (s.setSession b x).session d = if d = b then x else s.session d := by
  unfold State.session State.setSession
  simp only [mapGetD_mapSet]

@[simp] theorem State.session_setSession_same (s : State) (b : Nat) (x : Session) : (s.setSession b x).session b = x := by
  simp [State.session_setSession]

/-- Setting a number keeps one entry for each key. -/
theorem State.setReg_keysRise (s : State) (k v : Nat) (h : keysRise s.regs = true) : keysRise (s.setReg k v).regs = true :=
  keysRise_mapSet k v h

/-- Whether a core is enabled hangs on the factory record alone. -/
theorem State.coreOn_of_nv {s t : State} (h : t.nv = s.nv) (c : Nat) : t.coreOn c = s.coreOn c := by
  unfold State.coreOn; rw [h]

@[simp] theorem State.onCore_on {s : State} {c : Nat} (h : s.coreOn c = true) (t : State) : s.onCore c t = t := by
  unfold State.onCore; rw [if_pos h]

@[simp] theorem State.onCore_off {s : State} {c : Nat} (h : s.coreOn c = false) (t : State) : s.onCore c t = s := by
  unfold State.onCore; rw [if_neg (by simp [h])]

end Sys2Proof.Machine
end

