-- ==== Sys2Proof/Laws/Sequencer.lean ====
section
/-! SUPPORT. What the sequencer's operations can do: they change one core and three counters, and never its stores. -/

namespace Sys2Proof.Machine

open Sys2Proof

/-- The stores of a core: scratchpad, accumulators, weight registers and their poison. -/
def Core.stores (k : Core) : List Host.Cell × List Nat × List (Nat × AccEntry) × List Nat × Option LoadedTile × Option LoadedTile :=
  (k.scratch, k.scratchBad, k.acc, k.accBad, k.active, k.standby)

/-- What an operation of core c's sequencer may change: the core, but for its stores, and the counters of skipped gates,
clamped repeats and invocations. -/
structure SeqOnly (c : Nat) (s t : State) : Prop where
  rest  : t = { s with cores := t.cores, regs := t.regs }
  core  : ∀ d, d ≠ c → t.core d = s.core d
  store : (t.core c).stores = (s.core c).stores
  reg   : ∀ k, k ≠ Reg.gateSkips → k ≠ Reg.repeatClamp → k ≠ Reg.invocations → t.reg k = s.reg k

theorem SeqOnly.refl (c : Nat) (s : State) : SeqOnly c s s := ⟨rfl, fun _ _ => rfl, rfl, fun _ _ _ _ => rfl⟩

theorem SeqOnly.trans {c : Nat} {s t u : State} (h : SeqOnly c s t) (g : SeqOnly c t u) : SeqOnly c s u := by
  refine ⟨?_, fun d hd => (g.core d hd).trans (h.core d hd), g.store.trans h.store,
    fun k a b d => (g.reg k a b d).trans (h.reg k a b d)⟩
  rw [g.rest, h.rest]

/-- Setting the core itself, with its stores as they were. -/
theorem SeqOnly.setCore {c : Nat} (s : State) (k : Core) (h : k.stores = (s.core c).stores) : SeqOnly c s (s.setCore c k) :=
  ⟨rfl, fun d hd => State.core_setCore_other s k hd, by simp [h], fun k' _ _ _ => by simp⟩

theorem SeqOnly.count {c : Nat} (s : State) (k n : Nat) (h : k = Reg.gateSkips ∨ k = Reg.repeatClamp ∨ k = Reg.invocations) :
    SeqOnly c s (s.count k n) :=
  ⟨rfl, fun d _ => by simp, by simp, fun j a b d => State.reg_count_other s n (by rcases h with h | h | h <;> subst h <;> assumption)⟩

@[simp] theorem Core.setQueue_stores (k : Core) (e : Engine) (q : EngQueue) : (k.setQueue e q).stores = k.stores := by
  cases e <;> rfl

@[simp] theorem Core.setBank_stores (k : Core) (b : Nat) (x : Bank) : (k.setBank b x).stores = k.stores := by
  unfold Core.setBank; split <;> rfl

@[simp] theorem Core.setSeg_stores (k : Core) (n : Nat) (x : Segment) : (k.setSeg n x).stores = k.stores := by
  unfold Core.setSeg; split <;> rfl

@[simp] theorem Core.bankReleased_stores (k : Core) (b : Nat) : (k.bankReleased b).stores = k.stores := by
  unfold Core.bankReleased; split <;> simp

@[simp] theorem Core.stripSync_stores (k : Core) (op : SyncOp) : (k.stripSync op).stores = k.stores := by
  unfold Core.stripSync; rfl

@[simp] theorem Core.spliceEnd_stores (k : Core) : k.spliceEnd.stores = k.stores := by
  unfold Core.spliceEnd
  split
  · exact Core.setSeg_stores k k.seq.beat ⟨0, []⟩
  · rfl

@[simp] theorem Core.setCtr_stores (k : Core) (i n v : Nat) : (k.setCtr i n v).stores = k.stores := rfl

@[simp] theorem Core.incCtr_stores (k : Core) (i n : Nat) : (k.incCtr i n).stores = k.stores := rfl

theorem State.refill_only (s : State) (c : Nat) (e : Engine) : SeqOnly c s (s.refill c e) := by
  unfold State.refill
  simp only []
  split
  · exact SeqOnly.refl c s
  · exact ((SeqOnly.setCore s _ (by simp)).trans (SeqOnly.count _ _ _ (.inl rfl))).trans
      (SeqOnly.count _ _ _ (.inr (.inl rfl)))

theorem State.startInvocation_only (s : State) (c b : Nat) : SeqOnly c s (s.startInvocation c b) := by
  unfold State.startInvocation
  simp only []
  split
  · exact SeqOnly.refl c s
  · exact (SeqOnly.setCore s _ (by dsimp only [Core.stores])).trans (SeqOnly.count _ _ _ (.inr (.inr rfl)))

theorem State.endInvocation_only (s : State) (c n : Nat) : SeqOnly c s (s.endInvocation c n) := by
  unfold State.endInvocation
  simp only []
  have h : SeqOnly c s (s.setCore c { (s.core c).bankReleased (s.core c).seq.bank with lastEnd := n, seq := Sequencer.idle }) :=
    SeqOnly.setCore s _ (Core.bankReleased_stores (s.core c) _)
  split
  · exact h.trans (State.startInvocation_only _ c _)
  · exact h

theorem State.checkEnd_only (s : State) (c : Nat) : SeqOnly c s (s.checkEnd c) := by
  unfold State.checkEnd
  simp only []
  split
  · exact State.endInvocation_only s c _
  · exact SeqOnly.refl c s

theorem State.syncDone_only (s : State) (c : Nat) (op : SyncOp) : SeqOnly c s (s.syncDone c op) := by
  unfold State.syncDone
  exact (SeqOnly.setCore s _ (by simp)).trans (State.checkEnd_only _ c)

theorem State.syncHold_only (s : State) (c : Nat) (op : SyncOp) : SeqOnly c s (s.syncHold c op) := by
  unfold State.syncHold State.updCore
  exact SeqOnly.setCore s _ rfl

theorem State.repeatDone_only (s : State) (c : Nat) (e : Engine) : SeqOnly c s (s.repeatDone c e) := by
  unfold State.repeatDone
  simp only []
  split
  · exact SeqOnly.refl c s
  · rename_i a _
    have hk : ∀ (o : Option Nat), (match o with
        | none => s.core c
        | some i => (s.core c).incCtr i (s.core c).seq.beat).stores = (s.core c).stores := by
      intro o; cases o <;> rfl
    split
    · exact SeqOnly.setCore s _ (by rw [Core.setQueue_stores]; exact hk _)
    · refine ((SeqOnly.setCore s _ ?_).trans (State.refill_only _ c e)).trans (State.checkEnd_only _ c)
      rw [Core.setQueue_stores]; exact hk a.slot.inc

/-! ### What holds issue -/

@[simp] theorem Core.spliceEnd_holding (k : Core) : k.spliceEnd.seq.holding = k.seq.holding := by
  unfold Core.spliceEnd; split <;> rfl

@[simp] theorem Core.stripSync_holding (k : Core) (op : SyncOp) : (k.stripSync op).seq.holding = none := rfl

theorem State.startInvocation_holding (s : State) (c b : Nat) (h : (s.core c).seq.holding = none) :
    ((s.startInvocation c b).core c).seq.holding = none := by
  unfold State.startInvocation
  simp only []
  split
  · exact h
  · simp [Sequencer.idle, apply_ite Sequencer.holding]

theorem State.endInvocation_holding (s : State) (c n : Nat) : ((s.endInvocation c n).core c).seq.holding = none := by
  unfold State.endInvocation
  simp only []
  split
  · exact State.startInvocation_holding _ c _ (by simp [Sequencer.idle])
  · simp [Sequencer.idle]

theorem State.checkEnd_holding (s : State) (c : Nat) (h : (s.core c).seq.holding = none) :
    ((s.checkEnd c).core c).seq.holding = none := by
  unfold State.checkEnd
  simp only []
  split
  · exact State.endInvocation_holding s c _
  · exact h

/-- A satisfied SYNC operation holds issue no longer. -/
@[simp] theorem State.syncDone_holding (s : State) (c : Nat) (op : SyncOp) : ((s.syncDone c op).core c).seq.holding = none := by
  unfold State.syncDone
  exact State.checkEnd_holding _ c (by simp)

/-- A SYNC operation that is not satisfied holds issue. -/
@[simp] theorem State.syncHold_holding (s : State) (c : Nat) (op : SyncOp) :
    ((s.syncHold c op).core c).seq.holding = some op := by
  simp [State.syncHold, State.core_updCore]

/-- With words still to issue, an invocation does not end. -/
theorem State.checkEnd_left (s : State) (c : Nat) (h : (s.core c).seq.left ≠ []) : s.checkEnd c = s := by
  unfold State.checkEnd
  simp only []
  rw [if_neg]
  intro hh
  exact h hh.2.1

/-! ### Signal lines (R197) -/

/-- A line is read from the lines alone. -/
theorem State.line_of_lines {s t : State} (h : t.lines = s.lines) (k : Nat) : t.line k = s.line k := by
  unfold State.line; rw [h]

theorem SeqOnly.lines {c : Nat} {s t : State} (h : SeqOnly c s t) : t.lines = s.lines := by rw [h.rest]

/-- An arrival changes the lines and two counters alone. -/
theorem State.arrive_rest (s : State) (k n : Nat) :
    s.arrive k n = { s with lines := (s.arrive k n).lines, regs := (s.arrive k n).regs } := by
  unfold State.arrive
  simp only []
  split
  · rfl
  · split <;> rfl

@[simp] theorem State.arrive_core (s : State) (k n c : Nat) : (s.arrive k n).core c = s.core c := by
  rw [State.arrive_rest]; rfl

/-- What an arrival makes of every line. -/
theorem State.arrive_line (s : State) (k n j : Nat) :
    (s.arrive k n).line j =
      if j = k ∧ (s.line k).fired = false then
        ⟨(s.line k).arrivals + 1, if (s.line k).arrivals = 0 then n else (s.line k).parts,
          decide ((if (s.line k).arrivals = 0 then n else (s.line k).parts) ≤ (s.line k).arrivals + 1)⟩
      else s.line j := by
  unfold State.arrive
  simp only []
  cases h : (s.line k).fired
  · simp only [Bool.false_eq_true, if_false, and_true]
    by_cases hp : (s.line k).arrivals ≠ 0 ∧ n ≠ (s.line k).parts
    · simp only [if_pos hp]
      unfold State.line
      simp only [mapGetD_mapSet, State.count_lines]
    · simp only [if_neg hp]
      unfold State.line
      simp only [mapGetD_mapSet]
  · simp only [if_true, Bool.true_eq_false, and_false, if_false]
    exact State.line_of_lines (by simp) j

/-- What an arrival makes of the numbers. -/
theorem State.arrive_reg (s : State) (k n j : Nat) (h1 : j ≠ Reg.sigExcess) (h2 : j ≠ Reg.sigConflict) :
    (s.arrive k n).reg j = s.reg j := by
  unfold State.arrive
  simp only []
  split
  · exact State.reg_count_other s 1 h1
  · split
    · exact State.reg_count_other s 1 h2
    · rfl

end Sys2Proof.Machine
end

