-- ==== Sys2Proof/WellFormed.lean ====
section
/-! DEFINITION. Which commands are well formed: every operand lies in the range that the manual gives its field. exec has a
meaning for every command all the same; statements that speak of a field's value name well-formedness as a premise. -/

namespace Sys2Proof

/-! ### Fields -/

/-- A value that fits a field of n bits. -/
def fits (n v : Nat) : Bool := decide (v < 2 ^ n)

/-- A core number (R3, R11). -/
def coreOk (c : Nat) : Bool := decide (c < 128)

/-- A cluster number (R11). -/
def clusterOk (k : Nat) : Bool := decide (k < 16)

/-- A port number (R212, R222). -/
def portOk (p : Nat) : Bool := decide (p < 60)

/-- A device address of 14 bits (R225). -/
def deviceOk (d : Nat) : Bool := fits 14 d

/-- A byte offset in a scratchpad of 3 MiB (R11), or an operand of the slot. -/
def Addr.wf : Addr → Bool
  | .lit a => decide (a < 3145728)
  | .opnd _ => true

/-- A signal line: 256 of a cluster, 1,024 of the die (R15). -/
def LineRef.wf : LineRef → Bool
  | .cluster n => decide (n < 256)
  | .die n => decide (n < 1024)

/-- A comparator setting: counters CT0 to CT7 (R193, R194). -/
def CmpSetting.wf (c : CmpSetting) : Bool :=
  decide (c.ctr < 8) && (match c.rhs with
    | .imm n => fits 32 n
    | .ctr i => decide (i < 8))

/-! ### Packets -/

/-- A token's fields, at the widths of R92. -/
def TokenId.wf (t : TokenId) : Bool := fits 32 t.tag && fits 8 t.lane && fits 24 t.position && fits 16 t.gen && fits 16 t.entryRank

/-- A choice entry, at the widths of R93. -/
def ChoiceEntry.wf (e : ChoiceEntry) : Bool := decide (e.choice < 16) && fits 8 e.pslot && fits 14 e.expert

/-- A beat-class header, at the widths of R92; KIND is 1 to 7. -/
def BeatHdr.wf (h : BeatHdr) : Bool :=
  decide (1 ≤ h.kind) && decide (h.kind ≤ 7) && fits 8 h.lslot && fits 16 h.srcRank && fits 16 h.dstRank && fits 32 h.batchTag &&
    fits 8 h.lane && fits 24 h.position && fits 16 h.gen && fits 16 h.entryRank && fits 32 h.beat && fits 16 h.nextRank &&
    fits 4 h.homeCluster

/-- A beat-class packet: at most 16 entries (R92) and 64 candidates (R79). -/
def BeatPacket.wf (p : BeatPacket) : Bool :=
  p.hdr.wf && decide (p.entries.length ≤ 16) && p.entries.all ChoiceEntry.wf && decide (p.cands.length ≤ 64) && fits 32 p.token

/-- A packet of one kind. -/
def BeatPacket.wfKind (k : Nat) (p : BeatPacket) : Bool := p.wf && p.hdr.kind == k

/-- A remote-memory packet, at the widths of R253. -/
def RmPacket.wf (p : RmPacket) : Bool :=
  fits 4 p.opc && fits 3 p.dtype && fits 4 p.cause && fits 16 p.srcRank && fits 16 p.dstRank && fits 16 p.tag && fits 6 p.len &&
    fits 64 p.jva

/-- A remote-memory packet of one operation. -/
def RmPacket.wfOp (k : Nat) (p : RmPacket) : Bool := p.wf && p.opc == k

/-- A collective packet, at the widths of R280. -/
def CollPacket.wf (p : CollPacket) : Bool :=
  fits 4 p.kind && fits 4 p.phase && fits 4 p.cause && fits 10 p.group && fits 32 p.seqNo && fits 16 p.srcOrd &&
    fits 16 p.dstOrd && fits 32 p.chunk && fits 32 p.crc

/-- A DX header, at the widths of R386. -/
def DxHdr.wf (h : DxHdr) : Bool :=
  fits 4 h.cmd && fits 8 h.sub && fits 16 h.index && fits 16 h.seqNo && fits 32 h.offset && fits 32 h.len && fits 32 h.abort

/-- A routing header, at the widths of R227. -/
def RouteHdr.wf (h : RouteHdr) : Bool := fits 20 h.dst && fits 20 h.src && fits 12 h.job && decide (h.cls < 6) && decide (h.lastLevel < 5)

/-! ### Engine work -/

/-- An address aligned to 64 B, where it is a literal one (R145). -/
def Addr.wf64 : Addr → Bool
  | .lit a => decide (a < 3145728) && decide (a % 64 = 0)
  | .opnd _ => true

/-- A tile (R133, R142, R145): an operand pair, an arrangement and a fold of the tables, and aligned addresses. -/
def TileDesc.wf (t : TileDesc) : Bool := Machine.tileFits t && t.elems.wf64 && t.scales.wf64

/-- A read-out's destination. -/
def ReadDst.wf : ReadDst → Bool
  | .scratch a => a.wf
  | .yard k l t _ => clusterOk k && fits 8 l && t.wf

/-- A quantise's source. -/
def QuantSrc.wf : QuantSrc → Bool
  | .scratch a => a.wf
  | .cell p t c _ => fits 8 p && t.wf && decide (c < 16)

/-- An accumulator entry number (R147). -/
def entryOk (e : Nat) : Bool := decide (e < 16384)

/-- A rotation block: none, or 32, 64, 128 or 256 (R159). -/
def rotOk (r : Nat) : Bool := r == 0 || r == 32 || r == 64 || r == 128 || r == 256

/-- A mover's place. -/
def MvPlace.wf : MvPlace → Bool
  | .scratch a => a.wf
  | .shared o => decide (o < 4194304)
  | .home a o => fits 32 a && decide (o < 2097152)
  | .cell p t c o _ => fits 8 p && t.wf && decide (c < 16) && decide (o < 32768)
  | .kv t l b o => t.wf && fits 8 l && fits 16 b && decide (o < 65536)

/-- An unfinished item: a unit of R49 and a cause of R49. -/
def Unfinished.wf (x : Unfinished) : Bool := decide (1 ≤ x.unit) && decide (x.unit ≤ 12) && decide (x.cause ≤ 7)

/-- A sender of RAISE or BARRIER: a core, or an agent that may raise the line (R197). -/
def senderOk (c : Nat) (l : LineRef) : Bool := coreOk c || Machine.mayArrive c l

/-- A store of R435 and a place in it. -/
def SramStore.wf : SramStore → Bool
  | .scratchpad c w => coreOk c && decide (w < 393216)
  | .accStore c e => coreOk c && entryOk e
  | .timetable c b w => coreOk c && decide (b < 2) && decide (w < 32768)
  | .yardTable k n _ => clusterOk k && fits 8 n
  | .softArea k w => clusterOk k && decide (w < 524288)
  | .cellPool k t l p c _ => clusterOk k && fits 32 t && fits 8 l && fits 24 p && decide (c < 16)
  | .linkTable k => clusterOk k
  | .lineCache r j => fits 16 r && fits 64 j
  | .junctionBuffer p => p.route.wf
  | .deviceTable => true

/-- Where a collective starts from (R277): a descriptor of 64 B, or a place in a core's scratchpad. -/
def CollSource.wf : CollSource → Bool
  | .host _ d => decide (d.length = 64)
  | .slot c a => coreOk c && a.wf

/-! ### Commands -/

/-- Whether every operand of a command lies in its range. -/
def Instr.wf : Instr → Bool
  | .tick xs => xs.all Unfinished.wf
  | .cut u => decide (1 ≤ u) && decide (u ≤ 12)
  | .commitApply _ => true
  | .tokenLost t l => fits 32 t && fits 8 l
  | .maintenanceSlot _ a => a.all coreOk
  | .dramRefresh c _ => decide (c < 256)
  | .timeExchange p d t _ _ _ _ => portOk p && fits 16 d && fits 64 t
  | .holdoverEntry => true
  | .timeHoldEntry => true
  | .hallTimeSet _ t => fits 64 t
  | .commitNextTick _ => true
  | .commitAtBeat _ => true
  | .commitCancel _ => true
  | .commitDiscard _ => true
  | .dictionaryWrite _ i b _ => fits 16 i && fits 8 b
  | .stage2Result t l n m h r => t.wf && fits 8 l && fits 16 n && clusterOk m && decide (h.length = r.length)
  | .stripedGroupRequest l g t _ => fits 8 l && fits 8 g && t.wf
  | .kvBlockSelection c i l t _ _ xs => coreOk c && decide (i < 8) && fits 8 l && t.wf && decide (xs.length ≤ 65536)
  | .gateCopyDone => true
  | .consistHeaderArrival p => p.wfKind 1
  | .chainAllocate k => clusterOk k
  | .consistArrival k p => clusterOk k && p.wfKind 1
  | .intakeClose => true
  | .predictionComplete p t c => fits 8 p && t.wf && decide (c < 16)
  | .segmentSeal c => coreOk c
  | .expertAnswerSend p t c _ a => fits 8 p && t.wf && decide (c < 16) && decide (a < 3145728)
  | .answerArrival p => p.wfKind 2
  | .refusalArrival p => p.wfKind 4
  | .manifestArrival p => p.wfKind 3
  | .orphanSweep => true
  | .pendingExpiry => true
  | .batchCancel _ t => fits 32 t
  | .cancelNoticeArrival t g _ => fits 32 t && fits 16 g
  | .cancelTakesEffect t => fits 32 t
  | .cancelNoticeExpiry t g => fits 32 t && fits 16 g
  | .vocabularyRequestArrival p _ k => p.wfKind 5 && clusterOk k
  | .candidateSetArrival p => p.wfKind 6
  | .vocabMerge t l k => fits 32 t && fits 8 l && clusterOk k
  | .sampleEndExpiry k => clusterOk k
  | .sampledTokenArrival p => p.wfKind 7
  | .wordIssue c => coreOk c
  | .fence c _ => coreOk c
  | .raise c l n => senderOk c l && l.wf && decide (1 ≤ n)
  | .wait c l => coreOk c && l.wf
  | .barrier c l n => senderOk c l && l.wf && decide (1 ≤ n)
  | .waitOffset c _ => coreOk c
  | .hold c i => coreOk c && decide (i < 4)
  | .config c i x => coreOk c && decide (i < 4) && x.wf
  | .splice c => coreOk c
  | .aePass c p => coreOk c && p.act.wf && p.actScale.wf && entryOk p.entry0 && Machine.baseFits p.base
  | .aeTileLoad c t => coreOk c && t.wf
  | .weightSwap c _ => coreOk c
  | .readout c d => coreOk c && entryOk d.entry0 && decide (d.count ≤ 16384) && d.dst.wf
  | .sePass c p => coreOk c && p.tile.wf && p.act.wf && entryOk p.entry0 && Machine.baseFits p.base && Machine.sePairOk p.wfmt p.afmt
  | .veOperation c o => coreOk c && decide (1 ≤ o.n) && o.srcA.wf && o.dst.wf
  | .quantise c d => coreOk c && Machine.quantFits d.n d.rot d.fmt && fits 8 d.clipSlot && d.src.wf && d.dst.wf
  | .dequantise c d => coreOk c && Machine.quantFits d.n d.rot d.fmt && d.src.wf && d.dst.wf
  | .rotate c d => coreOk c && rotOk d.rot && d.src.wf && d.dst.wf
  | .readOutToMx c d => coreOk c && entryOk d.entry0 && fits 8 d.clipSlot && d.dst.wf
  | .readOutWithInverseRotation c d => coreOk c && entryOk d.entry0 && rotOk d.rot && d.dst.wf
  | .moverTransfer c _ s d _ => coreOk c && s.wf && d.wf
  | .mvRemoteRead c r j _ d _ => coreOk c && fits 16 r && fits 64 j && d.wf
  | .mvRemoteWrite c r j _ a => coreOk c && fits 16 r && fits 64 j && a.wf
  | .mvRemoteAdd c r j _ a => coreOk c && fits 16 r && fits 64 j && a.wf
  | .mvInvalidate c r j _ => coreOk c && fits 16 r && fits 64 j
  | .atomicAdd c k _ _ v _ => coreOk c && clusterOk k && fits 64 v
  | .atomicMin c k _ _ v _ => coreOk c && clusterOk k && fits 64 v
  | .atomicMax c k _ _ v _ => coreOk c && clusterOk k && fits 64 v
  | .atomicSwap c k _ _ v _ => coreOk c && clusterOk k && fits 64 v
  | .compareSwap c k _ _ e v _ => coreOk c && clusterOk k && fits 64 e && fits 64 v
  | .bankWrite _ c b _ => coreOk c && decide (b < 2)
  | .segTemplatesWrite _ c _ => coreOk c
  | .flitReceive p f _ _ => portOk p && decide (f.length = 256)
  | .retryRequest p n => portOk p && fits 16 n
  | .laneFault p _ => portOk p
  | .laneRemapDone p => portOk p
  | .portSilenceTimeout p => portOk p
  | .portFail p => portOk p
  | .portTrainingDone p _ d q => portOk p && deviceOk d && portOk q
  | .packetRoute i p => (match i with
      | some x => portOk x
      | none => true) && p.route.wf
  | .truncatedPacketArrival p => p.route.wf
  | .multicastInject c g m k _ => decide (c < 6) && fits 12 g && fits 16 m && clusterOk k
  | .undeliverableNoticeArrival c b => decide (1 ≤ c) && decide (c ≤ 3) && decide (b.length ≤ 168)
  | .endNoticeArrival t l p g c => fits 32 t && fits 8 l && fits 24 p && fits 16 g && decide (1 ≤ c) && decide (c ≤ 4)
  | .drainStart _ => true
  | .drainRelease _ => true
  | .drainDone => true
  | .drainTimeout => true
  | .rmRead p => p.wfOp 1
  | .rmWrite p => p.wfOp 2
  | .rmAdd p => p.wfOp 3
  | .readData p => p.wfOp 4
  | .ack p => p.wfOp 5
  | .nak p => p.wfOp 6
  | .invalidate p => p.wfOp 7
  | .invAck p => p.wfOp 8
  | .rmTimeout c t => coreOk c && fits 16 t
  | .rmRecall _ j => fits 27 j
  | .recallDone => true
  | .collStart x => x.wf
  | .ready p => p.wf
  | .data p => p.wf
  | .collAck p => p.wf
  | .resend p => p.wf
  | .abort p => p.wf
  | .collTimeout g n => fits 10 g && fits 32 n
  | .alloc _ t _ p k n => fits 2 t && fits 1 p && clusterOk k && fits 16 n
  | .free _ h t => fits 32 h && fits 2 t
  | .move _ h t _ p k => fits 32 h && fits 2 t && fits 1 p && clusterOk k
  | .park _ t l x p => fits 32 t && fits 8 l && fits 2 x && fits 1 p
  | .unpark _ t l => fits 32 t && fits 8 l
  | .moveDone h _ => fits 32 h
  | .imageStore _ _ => true
  | .imageDelete _ i => fits 16 i
  | .imageLoad _ p => fits 8 p
  | .imageLoadDone p _ => fits 8 p
  | .sramUeDetect x _ => x.wf
  | .hbmUeDetect l _ _ _ => decide (l < 6442450944)
  | .forcedRelocation s c => decide (s < 4) && decide (c < 16)
  | .readDisturbRelocate s b => decide (s < 4) && decide (b < 131072)
  | .blockRetire s b _ => decide (s < 4) && decide (b < 131072)
  | .cxlTimeout c _ => coreOk c
  | .cxlCompletion c _ _ => coreOk c
  | .tenantRegister _ i t x => decide (i < 16) && fits 32 t && fits 16 x
  | .tenantDeregister _ i => decide (i < 16)
  | .sessionBind _ i => decide (i < 16) || i == 0xFF
  | .swapArm _ => true
  | .swapDisarm _ => true
  | .swapEpoch => true
  | .swapSaveStart => true
  | .swapSaveDone => true
  | .swapScrubDone => true
  | .swapRestoreDone _ => true
  | .swapResume => true
  | .interferenceMinuteClose => true
  | .reproKeyRecompute => true
  | .hello l _ _ d => deviceOk l && fits 16 d
  | .admitReply m d => deviceOk m && fits 16 d
  | .adopt m d => deviceOk m && fits 16 d
  | .heartbeatSend => true
  | .heartbeatReceive d => deviceOk d
  | .mgrSilenceExpiry => true
  | .heartbeatMissing d => deviceOk d
  | .portFailed p d r => portOk p && deviceOk d && deviceOk r
  | .laneRemapped p _ r => portOk p && deviceOk r
  | .deviceFault c r => decide (1 ≤ c) && decide (c ≤ 6) && deviceOk r
  | .tenantError u c r => decide (u ≤ 144) && decide (1 ≤ c) && decide (c ≤ 9) && deviceOk r
  | .mgmtCoreMiss => true
  | .start _ => true
  | .partitionRun => true
  | .teardown _ => true
  | .teardownBeat => true
  | .readmit _ b => fits 64 b
  | .rejoin => true
  | .failover a b => fits 16 a && fits 16 b
  | .replicaLoadDone r _ => fits 16 r
  | .dxRequest d h _ => deviceOk d && h.wf
  | .dxResponse h _ => h.wf
  | .dxRemoteTimeout n => fits 16 n
  | .read _ _ _ => true
  | .write _ _ _ => true
  | .patch _ _ _ => true
  | .cancel _ => true
  | .dxDataWrite _ ws => decide (1 ≤ ws.length) && decide (ws.length ≤ 8)
  | .dxDataRead _ n => decide (1 ≤ n) && decide (n ≤ 8)
  | .dxSegmentMove _ => true
  | .dxIdleTimeout _ => true
  | .badWindowAccess _ _ => true
  | .batch _ _ => true
  | .lane _ _ => true
  | .tokens _ _ => true
  | .close _ _ => true
  | .streamOutRead _ n => decide (1 ≤ n) && decide (n ≤ 4)
  | .i3cRead i b => fits 16 i && fits 8 b
  | .i3cWrite i b _ => fits 16 i && fits 8 b
  | .i3cStatusRead => true
  | .setdasa a b => fits 7 a && fits 7 b
  | .entdaa b => fits 7 b
  | .store _ v => fits 32 v
  | .storeDone _ => true
  | .restoreDefaults _ v => fits 32 v
  | .fwUpdate _ _ => true
  | .fwUpdateDone _ => true
  | .attestNonce _ n => decide (n.length = 32)
  | .attestCapture => true
  | .attestSigned _ => true
  | .hbmMargin _ => true
  | .eyeScan _ => true
  | .flashCheck _ => true
  | .sramTest _ => true
  | .diagDone _ => true
  | .clipFlagsClear _ b => decide (b.length = 32)
  | .auditAlarmClear _ v => fits 8 v
  | .clipWindowClose => true
  | .auditWindowClose => true
  | .resetAssert _ _ => true
  | .resetRelease _ d => fits 2 d
  | .rom _ _ => true
  | .nvBank => true
  | .firmware => true
  | .hbm _ _ => true
  | .flash _ _ _ _ _ => true
  | .links _ => true
  | .discovery => true
  | .thermalSample _ _ => true
  | .thermalTrip => true
  | .brefLoss => true
  | .brefValid => true
  | .vidStep t => decide (t ≤ 40)
  | .combineRecordTimeout _ => true
  | .cxlPortDown p => decide (p < 2)
  | .cxlPortRetrain p _ => decide (p < 2)
  | .portPeerPresent p => portOk p
  | .i3cTargetReady => true
  | .reservedRecordKind _ _ => true

end Sys2Proof
end

