-- ==== Sys2Proof/Tests/Slice0.lean ====
section
/-! SUPPORT. Tests: a command with an operand out of its range for every check of well-formedness, a state and operands that
meet the hypotheses of every statement together, and single steps whose results the manual gives. -/

namespace Sys2Proof.Tests

set_option Elab.async false

open Sys2Proof Sys2Proof.Machine

/-- A state past boot, with some numbers set. -/
def ready (l : List (Nat × Nat)) : State := l.foldl (fun s e => s.setReg e.1 e.2) (State.reset.setReg Reg.bootStage 9)

/-! ### Ill-formed commands are refused -/

/-- A beat-class header of kind k, all of whose fields fit. -/
def hdr (k : Nat) : BeatHdr := ⟨k, 0, 0, 0, 1, 5, 2, 9, 0, 1, 7, 1, 0⟩

/-- A beat-class packet of kind k with an empty payload. -/
def pkt (k : Nat) : BeatPacket := ⟨hdr k, [], [], [], 0, 0⟩

/-- A remote-memory packet of operation o. -/
def rmp (o : Nat) : RmPacket := ⟨o, 0, false, false, 0, 0, 0, 0, 0, 0, 1, 0, []⟩

/-- A collective packet of kind k. -/
def clp (k : Nat) : CollPacket := ⟨k, 0, 0, 0, 0, 0, 0, 0, 0, []⟩

/-- The token of hdr. -/
def tok : TokenId := ⟨5, 2, 9, 0, 1⟩

/-- A routing header from device src to device dst. -/
def rte (src dst : Nat) : RouteHdr := ⟨physAddr dst 0 0, physAddr src 0 0, 0, 0, false, false, 0⟩

/-- A tile of MXINT8 in the arrangement of 256 columns and depth 32. -/
def tile : TileDesc := ⟨.mxint8, .mxint8, 256, 32, 1, .lit 0, .lit 8192⟩

theorem test_wf_beat_and_tables : ∀ i ∈ [Instr.tick [⟨0, 0, none⟩], .tick [⟨13, 0, none⟩], .tick [⟨1, 8, none⟩], .cut 0, .cut 13,
    .tokenLost (2 ^ 32) 0, .tokenLost 0 256, .maintenanceSlot 0 [128],
    .dramRefresh 256 false, .timeExchange 60 0 0 0 0 0 0, .timeExchange 0 65536 0 0 0 0 0,
    .timeExchange 0 0 (2 ^ 64) 0 0 0 0, .hallTimeSet .op (2 ^ 64),
    .dictionaryWrite .op 65536 0 [], .dictionaryWrite .op 0 256 []], i.wf = false := by decide +kernel

theorem test_wf_dispatch : ∀ i ∈ [Instr.stage2Result { tok with tag := 2 ^ 32 } 0 0 0 [] [],
    .stage2Result { tok with lane := 256 } 0 0 0 [] [], .stage2Result { tok with position := 2 ^ 24 } 0 0 0 [] [],
    .stage2Result { tok with gen := 65536 } 0 0 0 [] [], .stage2Result { tok with entryRank := 65536 } 0 0 0 [] [],
    .stage2Result tok 256 0 0 [] [], .stage2Result tok 0 65536 0 [] [], .stage2Result tok 0 0 16 [] [],
    .stage2Result tok 0 0 0 [0] [], .stripedGroupRequest 256 0 tok [], .stripedGroupRequest 0 256 tok [],
    .kvBlockSelection 128 0 0 tok [] [] [], .kvBlockSelection 0 8 0 tok [] [] [], .kvBlockSelection 0 0 256 tok [] [] [],
    .consistHeaderArrival (pkt 2), .chainAllocate 16, .consistArrival 16 (pkt 1), .consistArrival 0 (pkt 3),
    .predictionComplete 256 tok 0, .predictionComplete 0 tok 16, .segmentSeal 128, .expertAnswerSend 256 tok 0 false 0,
    .expertAnswerSend 0 tok 16 false 0, .expertAnswerSend 0 tok 0 false 3145728], i.wf = false := by decide +kernel

theorem test_wf_packets : ∀ p ∈ [{ pkt 1 with hdr := { hdr 1 with kind := 0 } }, { pkt 1 with hdr := { hdr 1 with kind := 8 } },
    { pkt 1 with hdr := { hdr 1 with lslot := 256 } }, { pkt 1 with hdr := { hdr 1 with srcRank := 65536 } },
    { pkt 1 with hdr := { hdr 1 with dstRank := 65536 } }, { pkt 1 with hdr := { hdr 1 with batchTag := 2 ^ 32 } },
    { pkt 1 with hdr := { hdr 1 with lane := 256 } }, { pkt 1 with hdr := { hdr 1 with position := 2 ^ 24 } },
    { pkt 1 with hdr := { hdr 1 with gen := 65536 } }, { pkt 1 with hdr := { hdr 1 with entryRank := 65536 } },
    { pkt 1 with hdr := { hdr 1 with beat := 2 ^ 32 } }, { pkt 1 with hdr := { hdr 1 with nextRank := 65536 } },
    { pkt 1 with hdr := { hdr 1 with homeCluster := 16 } },
    { pkt 1 with entries := List.replicate 17 ⟨0, 0, 0, 0, false, false⟩ },
    { pkt 1 with entries := [⟨16, 0, 0, 0, false, false⟩] }, { pkt 1 with entries := [⟨0, 256, 0, 0, false, false⟩] },
    { pkt 1 with entries := [⟨0, 0, 16384, 0, false, false⟩] }, { pkt 1 with cands := List.replicate 65 (0, 0) },
    { pkt 1 with token := 2 ^ 32 }], (Instr.consistHeaderArrival p).wf = false := by decide +kernel

theorem test_wf_combine : ∀ i ∈ [Instr.answerArrival (pkt 4), .refusalArrival (pkt 2), .manifestArrival (pkt 1),
    .batchCancel .op (2 ^ 32), .cancelNoticeArrival (2 ^ 32) 0 0, .cancelNoticeArrival 0 65536 0, .cancelTakesEffect (2 ^ 32),
    .cancelNoticeExpiry (2 ^ 32) 0, .cancelNoticeExpiry 0 65536, .vocabularyRequestArrival (pkt 1) [] 0,
    .vocabularyRequestArrival (pkt 5) [] 16, .candidateSetArrival (pkt 5), .vocabMerge (2 ^ 32) 0 0, .vocabMerge 0 256 0,
    .vocabMerge 0 0 16, .sampleEndExpiry 16, .sampledTokenArrival (pkt 6)], i.wf = false := by decide +kernel

theorem test_wf_sequencer : ∀ i ∈ [Instr.wordIssue 128, .fence 128 [], .raise 176 (.cluster 0) 1, .raise 160 (.die 0) 1, .raise 0 (.cluster 256) 1,
    .raise 0 (.die 1024) 1, .raise 0 (.die 0) 0, .wait 128 (.die 0), .wait 0 (.die 1024), .barrier 181 (.die 0) 1,
    .barrier 0 (.cluster 256) 1, .barrier 0 (.die 0) 0, .waitOffset 128 0, .hold 128 0, .hold 0 4,
    .config 128 0 ⟨0, .eq, .imm 0⟩, .config 0 4 ⟨0, .eq, .imm 0⟩, .config 0 0 ⟨8, .eq, .imm 0⟩,
    .config 0 0 ⟨0, .eq, .imm (2 ^ 32)⟩, .config 0 0 ⟨0, .eq, .ctr 8⟩, .splice 128], i.wf = false := by decide +kernel

theorem test_wf_engines : ∀ i ∈ [Instr.aePass 128 ⟨.lit 0, .lit 0, 0, true, 0⟩, .aePass 0 ⟨.lit 3145728, .lit 0, 0, true, 0⟩,
    .aePass 0 ⟨.lit 0, .lit 3145728, 0, true, 0⟩, .aePass 0 ⟨.lit 0, .lit 0, 16384, true, 0⟩,
    .aePass 0 ⟨.lit 0, .lit 0, 0, true, 89⟩, .aeTileLoad 128 tile,
    .aeTileLoad 0 { tile with cols := 0 }, .aeTileLoad 0 { tile with depth := 0 }, .aeTileLoad 0 { tile with fold := 0 },
    .aeTileLoad 0 { tile with fold := 3 }, .aeTileLoad 0 { tile with wfmt := .bf16 }, .aeTileLoad 0 { tile with elems := .lit 32 },
    .aeTileLoad 0 { tile with elems := .lit 3145728 },
    .aeTileLoad 0 { tile with scales := .lit 3145728 }, .weightSwap 128 0, .readout 128 ⟨0, 1, .fp32, none, .scratch (.lit 0)⟩,
    .readout 0 ⟨16384, 1, .fp32, none, .scratch (.lit 0)⟩, .readout 0 ⟨0, 16385, .fp32, none, .scratch (.lit 0)⟩,
    .readout 0 ⟨0, 1, .fp32, none, .scratch (.lit 3145728)⟩, .readout 0 ⟨0, 1, .fp32, none, .yard 16 0 tok 0⟩,
    .sePass 128 ⟨.lit 0, 0, .mxint8, .mxint8, .lit 0, .lit 0, .lit 0, 0, true, 0⟩,
    .sePass 0 ⟨.lit 3145728, 0, .mxint8, .mxint8, .lit 0, .lit 0, .lit 0, 0, true, 0⟩,
    .sePass 0 ⟨.lit 0, 0, .mxint8, .mxint8, .lit 0, .lit 3145728, .lit 0, 0, true, 0⟩,
    .sePass 0 ⟨.lit 0, 0, .mxint8, .mxint8, .lit 0, .lit 0, .lit 0, 16384, true, 0⟩,
    .sePass 0 ⟨.lit 0, 0, .mxint8, .mxint8, .lit 0, .lit 0, .lit 0, 0, true, -129⟩,
    .sePass 0 ⟨.lit 0, 0, .bf16, .bf16, .lit 0, .lit 0, .lit 0, 0, true, 0⟩,
    .veOperation 128 ⟨.add, 1, .lit 0, .lit 0, .lit 0, .lit 0, 0, .lit 0⟩,
    .veOperation 0 ⟨.add, 0, .lit 0, .lit 0, .lit 0, .lit 0, 0, .lit 0⟩,
    .veOperation 0 ⟨.add, 1, .lit 3145728, .lit 0, .lit 0, .lit 0, 0, .lit 0⟩,
    .veOperation 0 ⟨.add, 1, .lit 0, .lit 0, .lit 0, .lit 0, 0, .lit 3145728⟩], i.wf = false := by decide +kernel

theorem test_wf_turntable_and_mover : ∀ i ∈ [Instr.quantise 0 ⟨31, 0, true, .fp4, .scratch (.lit 0), .lit 0, .lit 0, .lit 0, 0⟩,
    .quantise 0 ⟨32, 0, true, .fp4, .cell 256 tok 0 false, .lit 0, .lit 0, .lit 0, 0⟩,
    .quantise 128 ⟨32, 0, true, .fp4, .scratch (.lit 0), .lit 0, .lit 0, .lit 0, 0⟩,
    .quantise 0 ⟨32, 16, true, .fp4, .scratch (.lit 0), .lit 0, .lit 0, .lit 0, 0⟩,
    .quantise 0 ⟨32, 0, true, .fp4, .scratch (.lit 3145728), .lit 0, .lit 0, .lit 0, 0⟩,
    .quantise 0 ⟨32, 0, true, .fp4, .scratch (.lit 0), .lit 0, .lit 3145728, .lit 0, 0⟩,
    .quantise 0 ⟨32, 0, true, .fp4, .scratch (.lit 0), .lit 0, .lit 0, .lit 0, 256⟩,
    .dequantise 128 ⟨32, 0, false, .fp4, .lit 0, .lit 0, true, .lit 0⟩,
    .dequantise 0 ⟨32, 48, false, .fp4, .lit 0, .lit 0, true, .lit 0⟩,
    .rotate 128 ⟨32, 32, false, .fp32, .lit 0, .lit 0, true, .lit 0⟩,
    .rotate 0 ⟨32, 32, false, .fp32, .lit 3145728, .lit 0, true, .lit 0⟩,
    .readOutToMx 128 ⟨0, 32, none, 0, .fp4, true, .lit 0, .lit 0, .lit 0, 0⟩,
    .readOutToMx 0 ⟨16384, 32, none, 0, .fp4, true, .lit 0, .lit 0, .lit 0, 0⟩,
    .readOutToMx 0 ⟨0, 32, none, 0, .fp4, true, .lit 0, .lit 0, .lit 0, 256⟩,
    .readOutWithInverseRotation 0 ⟨0, 32, none, 3, .fp32, true, .lit 0, .lit 0, .lit 0, 0⟩,
    .moverTransfer 128 none (.scratch (.lit 0)) (.shared 0) 4, .moverTransfer 0 none (.scratch (.lit 3145728)) (.shared 0) 4,
    .moverTransfer 0 none (.scratch (.lit 0)) (.shared 4194304) 4, .moverTransfer 0 none (.home (2 ^ 32) 0) (.shared 0) 4,
    .moverTransfer 0 none (.home 0 2097152) (.shared 0) 4, .mvRemoteRead 128 0 0 4 (.lit 0) false,
    .mvRemoteRead 0 65536 0 4 (.lit 0) false, .mvRemoteRead 0 0 (2 ^ 64) 4 (.lit 0) false,
    .mvRemoteRead 0 0 0 4 (.lit 3145728) false, .mvRemoteWrite 0 65536 0 4 (.lit 0), .mvRemoteAdd 0 0 (2 ^ 64) .int32 (.lit 0),
    .mvInvalidate 0 65536 0 4, .atomicAdd 128 0 0 true 0 (.lit 0), .atomicMin 0 16 0 true 0 (.lit 0),
    .atomicMax 0 0 0 true (2 ^ 64) (.lit 0), .atomicSwap 128 0 0 true 0 (.lit 0),
    .compareSwap 0 0 0 true (2 ^ 64) 0 (.lit 0), .compareSwap 0 0 0 true 0 (2 ^ 64) (.lit 0)], i.wf = false := by decide +kernel

theorem test_wf_fabric : ∀ i ∈ [Instr.bankWrite .op 128 0 [], .bankWrite .op 0 2 [], .segTemplatesWrite .op 128 [],
    .flitReceive 60 (List.replicate 256 0) 0 0, .flitReceive 0 [0] 0 0, .retryRequest 60 0, .retryRequest 0 65536, .laneFault 60 0,
    .laneRemapDone 60, .portSilenceTimeout 60, .portFail 60, .portTrainingDone 60 true 0 0, .portTrainingDone 0 true 16384 0,
    .portTrainingDone 0 true 0 60, .packetRoute (some 60) ⟨rte 0 1, 0, [], .beat (pkt 1)⟩,
    .packetRoute none ⟨{ rte 0 1 with dst := 2 ^ 20 }, 0, [], .beat (pkt 1)⟩,
    .packetRoute none ⟨{ rte 0 1 with src := 2 ^ 20 }, 0, [], .beat (pkt 1)⟩,
    .packetRoute none ⟨{ rte 0 1 with job := 4096 }, 0, [], .beat (pkt 1)⟩,
    .packetRoute none ⟨{ rte 0 1 with cls := 6 }, 0, [], .beat (pkt 1)⟩,
    .packetRoute none ⟨{ rte 0 1 with lastLevel := 5 }, 0, [], .beat (pkt 1)⟩,
    .truncatedPacketArrival ⟨{ rte 0 1 with cls := 6 }, 0, [], .beat (pkt 1)⟩, .multicastInject 6 0 0 0 (.beat (pkt 1)),
    .multicastInject 4 4096 0 0 (.beat (pkt 1)), .multicastInject 4 0 65536 0 (.beat (pkt 1)),
    .multicastInject 4 0 0 16 (.beat (pkt 1)), .undeliverableNoticeArrival 0 [], .undeliverableNoticeArrival 4 [],
    .undeliverableNoticeArrival 1 (List.replicate 169 0),
    .endNoticeArrival (2 ^ 32) 0 0 0 1, .endNoticeArrival 0 256 0 0 1, .endNoticeArrival 0 0 (2 ^ 24) 0 1,
    .endNoticeArrival 0 0 0 65536 1, .endNoticeArrival 0 0 0 0 0, .endNoticeArrival 0 0 0 0 5, .portPeerPresent 60],
    i.wf = false := by decide +kernel

theorem test_wf_remote : ∀ i ∈ [Instr.rmRead (rmp 2), .rmWrite (rmp 1), .rmAdd (rmp 1), .readData (rmp 1), .ack (rmp 1),
    .nak (rmp 1), .invalidate (rmp 1), .invAck (rmp 1), .rmRead { rmp 1 with dtype := 8 }, .rmRead { rmp 1 with cause := 16 },
    .rmRead { rmp 1 with srcRank := 65536 }, .rmRead { rmp 1 with dstRank := 65536 }, .rmRead { rmp 1 with tag := 65536 },
    .rmRead { rmp 1 with len := 64 }, .rmRead { rmp 1 with jva := 2 ^ 64 }, .rmTimeout 128 0, .rmTimeout 0 65536,
    .rmRecall .op (2 ^ 27), .collStart (.host .mgr []), .collStart (.slot 128 (.lit 0)), .collStart (.slot 0 (.lit 3145728)), .ready { clp 2 with kind := 16 }, .data { clp 1 with phase := 16 },
    .collAck { clp 3 with cause := 16 }, .resend { clp 4 with group := 1024 }, .abort { clp 5 with seqNo := 2 ^ 32 },
    .ready { clp 2 with srcOrd := 65536 }, .ready { clp 2 with dstOrd := 65536 }, .data { clp 1 with chunk := 2 ^ 32 },
    .data { clp 1 with crc := 2 ^ 32 }, .collTimeout 1024 0, .collTimeout 0 (2 ^ 32)], i.wf = false := by decide +kernel

theorem test_wf_homes_and_tenants : ∀ i ∈ [Instr.alloc .ten 4 false 0 0 1, .alloc .ten 1 false 2 0 1, .alloc .ten 1 false 0 16 1,
    .alloc .ten 1 false 0 0 65536, .free .ten (2 ^ 32) 1, .free .ten 0 4, .move .ten (2 ^ 32) 1 false 0 0,
    .move .ten 0 4 false 0 0, .move .ten 0 1 false 2 0, .move .ten 0 1 false 0 16, .park .ten (2 ^ 32) 0 1 0,
    .park .ten 0 256 1 0, .park .ten 0 0 4 0, .park .ten 0 0 1 2, .unpark .ten (2 ^ 32) 0, .unpark .ten 0 256,
    .moveDone (2 ^ 32) 0, .imageDelete .ten 65536, .imageLoad .ten 256, .imageLoadDone 256 true,
    .hbmUeDetect 6442450944 false false none, .sramUeDetect (.scratchpad 128 0) false,
    .sramUeDetect (.accStore 0 16384) false, .sramUeDetect (.timetable 0 2 0) false, .forcedRelocation 4 0, .forcedRelocation 0 16, .readDisturbRelocate 4 0,
    .readDisturbRelocate 0 131072, .blockRetire 4 0 0, .blockRetire 0 131072 0, .cxlTimeout 128 0, .cxlCompletion 128 0 true,
    .cxlPortDown 2, .cxlPortRetrain 2 true, .tenantRegister .mgr 16 1 1, .tenantRegister .mgr 0 (2 ^ 32) 1,
    .tenantRegister .mgr 0 1 65536, .tenantDeregister .mgr 16, .sessionBind .mgr 16], i.wf = false := by decide +kernel

theorem test_wf_manager_and_host : ∀ i ∈ [Instr.hello 16384 0 0 0, .hello 0 0 0 65536, .admitReply 16384 0, .admitReply 0 65536,
    .adopt 16384 0, .adopt 0 65536, .heartbeatReceive 16384, .heartbeatMissing 16384, .portFailed 60 0 0, .portFailed 0 16384 0,
    .portFailed 0 0 16384, .laneRemapped 60 0 0, .laneRemapped 0 0 16384, .deviceFault 0 0, .deviceFault 7 0,
    .deviceFault 1 16384, .tenantError 145 1 0, .tenantError 0 0 0, .tenantError 0 10 0, .tenantError 0 1 16384,
    .readmit .mgr (2 ^ 64), .failover 65536 0, .failover 0 65536, .replicaLoadDone 65536 true,
    .dxRequest 16384 ⟨1, false, false, 0, 0, 0, 0, 0, 0⟩ [], .dxRequest 0 ⟨16, false, false, 0, 0, 0, 0, 0, 0⟩ [],
    .dxRequest 0 ⟨1, false, false, 256, 0, 0, 0, 0, 0⟩ [], .dxRequest 0 ⟨1, false, false, 0, 65536, 0, 0, 0, 0⟩ [],
    .dxResponse ⟨1, false, false, 0, 0, 65536, 0, 0, 0⟩ [], .dxResponse ⟨1, false, false, 0, 0, 0, 2 ^ 32, 0, 0⟩ [],
    .dxResponse ⟨1, false, false, 0, 0, 0, 0, 2 ^ 32, 0⟩ [], .dxResponse ⟨1, false, false, 0, 0, 0, 0, 0, 2 ^ 32⟩ [],
    .dxRemoteTimeout 65536, .dxDataWrite .op [], .dxDataWrite .op (List.replicate 9 0), .dxDataRead .op 0, .dxDataRead .op 9,
    .streamOutRead .op 0, .streamOutRead .op 5, .i3cRead 65536 0, .i3cRead 0 256, .i3cWrite 65536 0 [], .i3cWrite 0 256 [],
    .setdasa 128 0, .setdasa 0 128, .entdaa 128, .store .op (2 ^ 32), .restoreDefaults .op (2 ^ 32), .attestNonce .op [0],
    .clipFlagsClear .op [0], .auditAlarmClear .op 256, .resetRelease .pwrOk 4, .vidStep 41], i.wf = false := by decide +kernel

theorem test_wf_passes : ∀ i ∈ [Instr.tick [⟨12, 7, none⟩], .consistHeaderArrival (pkt 1), .answerArrival (pkt 2),
    .rmRead (rmp 1), .ready (clp 2), .aeTileLoad 0 tile, .raise 0 (.cluster 255) 1, .raise 175 (.cluster 255) 1, .raise 176 (.die 0) 1, .packetRoute none ⟨rte 0 1, 0, [], .beat (pkt 1)⟩,
    .alloc .ten 3 true 1 15 4096, .dxDataRead .op 8, .hbmUeDetect 6442450943 true false none], i.wf = true := by decide +kernel

/-! ### Small states -/

/-- The state that command i leads to, where it answers one. -/
def after (s : State) (i : Instr) : State := match exec i s with | .next t => t | _ => s

/-- Command i answers a next state. -/
def goesOn (s : State) (i : Instr) : Bool := match exec i s with | .next _ => true | _ => false

/-- A state with core 0 changed. -/
def core0 (f : Core → Core) (l : List (Nat × Nat)) : State := (ready l).updCore 0 f

/-- A state whose job has n ranks, rank r on device r, this device being device 0. -/
def ranks (n : Nat) (l : List (Nat × Nat)) : State :=
  ((ready l).setReg Reg.rankCount n).setDom Reg.rankTable
    (Blob.ofBytes ((List.range n).flatMap (fun r => leBytes 4 (r * 64 + 2 ^ 31))))

/-- The same with its partition running in beat b. -/
def beating (n b : Nat) (l : List (Nat × Nat)) : State :=
  let s := ranks n ([(Reg.partState, 3), (Reg.beatNumber, b), (Reg.beatPeriod, 10000)] ++ l)
  { s with time := { s.time with anchored := true, ticked := true } }

/-- A Timetable word with one VE slot. -/
def word : TWord := ⟨none, [⟨.ve, .imm 1, none, none, none, []⟩], 16⟩

/-- The running sequencer with l left of its list. -/
def sequencer (l : List TWord) : Sequencer :=
  { Sequencer.idle with running := true, left := l, settings := List.replicate 4 ⟨0, .eq, .imm 0⟩ }

/-- A tile of 4 columns and depth 32, loaded. -/
def loaded : LoadedTile := ⟨{ tile with cols := 4 }, List.replicate 128 1, List.replicate 16 127, [], [], 0⟩

/-! ### Witnesses: the step, the sequencer, the engines -/

theorem witness_StepRunsTheFrontCommand : (ready []).pending = [] ∧ (ready []).reg Reg.bootStage ≠ 0 ∧ (ready []).time.slew = 0 ∧
    State.reset.pending = [] ∧ State.reset.reg Reg.bootStage = 0 ∧
    goesOn { ready [] with pending := [.discovery] } .brefLoss = true := by decide +kernel

theorem witness_EveryStepKeepsTheFactoryRecordAndTheTables :
    let s := { ready [] with pending := [.brefLoss, .brefValid] }
    s.madeAs NonVolatile.initial.factory ∧ s.numbersOk ∧ goesOn s .brefLoss = true ∧
      (match step s with | .next t => t.pending | _ => []) = [.brefValid] := by decide +kernel

theorem witness_ResetEndsEveryTenancy :
    let s := { ready [] with slots := [(0, { TenantSlot.empty with tenant := 3, state := 1, key := [1] })] }
    10000 ≤ 10000 ∧ (s.tslot 0).state ≠ 0 ∧ goesOn s (.resetAssert .sysRst 10000) = true ∧
      (∀ i ∈ [Instr.resetRelease .sysRst 0, .rom [] [], .nvBank, .firmware, .hbm [] true, .flash [] 0 0 0 0, .links [],
        .discovery], goesOn s i = true) := by decide +kernel

theorem witness_EmptyMulticastsAreDiscarded :
    let s := ready []
    (4 = 4 ∨ 4 = 5) ∧ (s.mcastRanks 0).length = 0 ∧ 0 % 2 ^ 0 = 0 ∧ 1 % 2 ^ 0 ≠ 1 ∧
      goesOn s (.multicastInject 4 0 1 0 (.beat (pkt 1))) = true := by decide +kernel

theorem witness_SyncOperationsHoldOrPass : (ready []).coreOn 0 = true ∧ (ready []).coreOn 127 = true ∧
    (ready []).coreOn 128 = false := by decide +kernel

theorem witness_ArrivalsFireALine :
    let s := ready []
    let k := lineKey 0 (.cluster 3) (s.syncBeat 0)
    let f := after s (.raise 0 (.cluster 3) 1)
    s.coreOn 0 = true ∧ (s.line k).fired = false ∧ (s.line k).arrivals = 0 ∧ (f.line k).fired = true ∧
      (f.core 0).seq.holding ≠ some (.wait (.cluster 3)) ∧
      (let g := after s (.raise 0 (.cluster 3) 2)
       (g.line k).arrivals ≠ 0 ∧ 3 ≠ (g.line k).parts ∧ (g.line k).fired = false) ∧
      (∀ a ∈ [(128, LineRef.cluster 3), (175, .cluster 3), (143, .die 3), (180, .die 3)], mayArrive a.1 a.2 = true ∧
        (after s (.raise a.1 a.2 1)).line (lineKey a.1 a.2 s.beatNow) = ⟨1, 1, true⟩) ∧
      (∀ a ∈ [(176, LineRef.cluster 3), (160, .die 3), (181, .die 3)], 128 ≤ a.1 ∧ mayArrive a.1 a.2 = false) := by decide +kernel

theorem witness_WordsConfigAndSplice :
    let s := core0 (fun k => { k with seq := sequencer [word, word], seg0 := ⟨2, [word]⟩ }) []
    let full := core0 (fun k => { k with seq := sequencer [word, word], ve := ⟨List.replicate 8 ⟨.ve, .imm 1, none, none, none, []⟩, none⟩ }) []
    s.coreOn 0 = true ∧ (s.core 0).seq.running = true ∧ (s.core 0).seq.holding = none ∧ (s.core 0).seq.left = [word, word] ∧
      (s.core 0).seq.replaying = false ∧ word.sync = none ∧ (s.core 0).headBad = false ∧
      word.slots.any (fun x => decide (8 ≤ ((s.core 0).queue x.engine).waiting.length)) = false ∧
      word.slots.any (fun x => decide (8 ≤ ((full.core 0).queue x.engine).waiting.length)) = true ∧
      (full.core 0).headBad = false ∧ 3 < 4 ∧ 1 < (s.core 0).seq.left.length ∧ ((s.core 0).seg (s.syncBeat 0)).state = 2 ∧
      ((s.core 0).seg (s.syncBeat 0)).words ≠ [] ∧ ((full.core 0).seg (full.syncBeat 0)).state ≠ 2 := by decide +kernel

theorem witness_CoreFrames : ∀ i ∈ [Instr.wordIssue 0, .fence 0 [.ae], .raise 0 (.die 1) 2, .wait 0 (.die 1),
    .barrier 0 (.cluster 1) 1, .waitOffset 0 5, .hold 0 1, .config 0 1 ⟨0, .lt, .imm 3⟩, .splice 0, .aeTileLoad 0 tile,
    .weightSwap 0 1, .aePass 0 ⟨.lit 0, .lit 0, 0, true, 0⟩, .readout 0 ⟨0, 1, .bf16, none, .scratch (.lit 64)⟩,
    .sePass 0 ⟨.lit 0, 64, .mxint8, .mxint8, .lit 0, .lit 0, .lit 0, 0, true, 0⟩,
    .veOperation 0 ⟨.add, 1, .lit 0, .lit 4, .lit 0, .lit 0, 0, .lit 8⟩, .quantise 0 ⟨32, 0, true, .fp4, .scratch (.lit 0), .lit 0, .lit 0, .lit 0, 0⟩,
    .dequantise 0 ⟨32, 0, false, .fp4, .lit 0, .lit 0, true, .lit 0⟩, .rotate 0 ⟨32, 32, false, .fp32, .lit 0, .lit 0, true, .lit 0⟩,
    .readOutToMx 0 ⟨0, 32, none, 0, .fp4, true, .lit 0, .lit 0, .lit 0, 0⟩,
    .readOutWithInverseRotation 0 ⟨0, 32, none, 32, .fp32, true, .lit 0, .lit 0, .lit 0, 0⟩],
    goesOn (core0 (fun k => { k with active := loaded }) []) i = true ∧ goesOn (ready []) i = true := by decide +kernel

theorem witness_CoreFrames_outside : let k := (ready []).core 0
    (11 < k.addr .ve (.lit 8) ∨ k.addr .ve (.lit 8) + 4 * 1 ≤ 12) ∧ (7 < k.addr .ve (.lit 8)) ∧
      (63 < k.addr .ae (.lit 64) ∨ k.addr .ae (.lit 64) + 1 * 2 ≤ 66) := by decide +kernel

theorem witness_WeightRegistersLoadAndSwap : (ready []).coreOn 0 = true ∧ (ready []).coreOn 127 = true ∧ tileFits tile = true ∧
    tileFits { tile with cols := 255 } = false ∧ tileFits { tile with wfmt := .bf16 } = false := by decide +kernel

theorem witness_ArrayPassFeedsItsEntries :
    let s := core0 (fun k => { k with active := loaded }) []
    s.coreOn 0 = true ∧ (s.core 0).active = loaded ∧ keysRise (s.core 0).acc = true ∧ 3 < tileOuts loaded.desc ∧ 0 + 3 < 16384 ∧
      ¬ 4 < tileOuts loaded.desc ∧ ¬ 16380 + 4 < 16384 := by decide +kernel

theorem witness_AccumulatorAndReadOut :
    let e : AccEntry := { AccEntry.zero with acc := accTop }
    let b : AccEntry := { AccEntry.zero with acc := accBottom }
    accBottom ≤ e.acc ∧ e.acc ≤ accTop ∧ accBottom ≤ b.acc ∧ accTop < e.acc + 1 ∧ b.acc + (-1) < accBottom ∧
      accBottom ≤ e.acc + 0 ∧ e.acc + 0 ≤ accTop ∧ (ready []).coreOn 0 = true ∧
      ({ AccEntry.zero with nan := true } : AccEntry).nan = true ∧
      ({ AccEntry.zero with sat := true } : AccEntry).nan = false := by decide +kernel

theorem witness_VectorSparseAndTurntable :
    let s := ready []
    let k := s.core 0
    let h := seHeaderOf (k.spRead 0 64)
    let ptrs := (List.range h.rows).map (fun r => leNat (k.spRead (64 + 2 * r) 2))
    s.coreOn 0 = true ∧ 0 < 1 ∧ keysRise k.acc = true ∧
      (seMalformed h ptrs .fp4 64 || k.spBad 0 (64 + ceil64 (2 * h.rows))) = true ∧ k.sePasses 0 (k.spRead 0 64) = 0 ∧
      { k with seTile := some ⟨0, k.spRead 0 64, 1⟩ }.sePasses 0 (k.spRead 0 64) ≠ 0 ∧ sePairOk .fp4 .fp4 = true ∧
      sePairOk .bf16 .bf16 = false ∧ (seMalformed h ptrs .fp4 128 || k.spBad 0 (64 + ceil64 (2 * h.rows))) = false := by decide +kernel

/-! ### Witnesses: the mover and remote memory -/

/-- A request of core 0's mover for rank 1. -/
def request (opc tag : Nat) (far : Option Nat) : RmReq :=
  ⟨tag, opc, 0, 1, 0, 64, 256, false, false, none, far, none, [], false, none, 0⟩

/-- The job of two ranks with page 0 at frame 600, readable, writable and open to ADDs. -/
def paged : State := (ranks 2 []).setDom Reg.rmXlate (Blob.ofBytes (leBytes 16 (600 * 2 ^ 32 + 7 * 2 ^ 60 + 2 ^ 127)))

/-- A READ, WRITE or ADD of one line of page 0 from rank 1. -/
def ask (opc : Nat) : RmPacket :=
  ⟨opc, if opc = 3 then 1 else 0, false, false, 0, 1, 0, 7, 0, 64, 1, 0, if opc = 1 then [] else List.replicate 64 1⟩

/-- HBM frame 600 of tenant slot 0, as a home of the running tenant. -/
def owned : State :=
  let s := ready [(Reg.ccSoftBytes, 65536), (Reg.runningSlot, 0)]
  { s with tiers := { s.tiers with homes := [⟨2 ^ 30 + 600, s.tenantNow, false, 0, none, 0, false⟩] } }

/-- A choice of token tok that Platform slot 2 holds. -/
def heldChoice : QueuedChoice := ⟨tok, ⟨0, 2, 3, 0, false, false⟩, 0, 1, 1, 5, false, none, false, false, false, [1, 2]⟩

theorem witness_TransfersAndAtomicsMoveBytes :
    let s := owned
    let q := s.setQueueOf 2 [heldChoice]
    s.coreOn 0 = true ∧ 4194240 + 64 ≤ cacheBytes ∧ (s.mvCause none (.shared 4194240) (.scratch (.lit 0)) 65).1 ≠ 0 ∧
      homeTier (2 ^ 30 + 600) = 1 ∧ (s.mvCause none (.home (2 ^ 30 + 600) (extentBytes - 64)) (.scratch (.lit 0)) 64).1 = 0 ∧
      (s.mvCause none (.home (2 ^ 30 + 600) (extentBytes - 64)) (.scratch (.lit 0)) 65).1 ≠ 0 ∧
      (q.readChoice 2 tok 0 false).isSome = true ∧
      softBase % 8 = 0 ∧ softBase ≤ softBase ∧ softBase + 8 ≤ softBase + s.reg Reg.ccSoftBytes ∧ 15 < 16 ∧
      s.sharedBadIn 15 softBase 8 = false ∧ (softBase + 4) % 8 ≠ 0 ∧ softBase - 8 < softBase ∧
      softBase + s.reg Reg.ccSoftBytes < softBase + 65536 + 4 ∧ 16 ≤ 16 := by decide +kernel

theorem witness_MoverRequestsLeaveTheCore :
    let s := ranks 2 []
    let y : LineCopy := ⟨1, 64, true, 0, List.replicate 64 1⟩
    let t := { s with rmem := { s.rmem with copies := [y] } }
    s.coreOn 0 = true ∧ s.leaving = false ∧ s.rankDev 1 = some 1 ∧ (s.core 0).rmWait = [] ∧
      ((s.core 0).rmOut.filter RmReq.remote).length < 64 ∧ 0 < 4096 ∧ 0 % 4096 + 4096 ≤ 4096 ∧ 4032 % 4096 + 64 ≤ 4096 ∧
      s.rmem.copies = [] ∧ t.coreOn 0 = true ∧ t.leaving = false ∧ t.rankDev 1 = some 1 ∧ 64 % 64 = 0 ∧
      t.copyOfLine 1 64 = some y := by decide +kernel

theorem witness_HomeServesOrRefuses :
    (∀ o ∈ [1, 2, 3], paged.rankDev (ask o).srcRank = some 1 ∧ paged.rmem.held = [] ∧ (ask o).opc = o ∧
      (paged.xlateOf (field (ask o).jva 21 27)).isSome = true ∧ paged.rmCause (ask o) = 0 ∧ paged.rmem.directory = [] ∧
      paged.tiers.hbmBad = [] ∧ paged.rmCause { ask o with jva := 4096 * 512 } ≠ 0) := by decide +kernel

theorem witness_RequestsAndSharersEnd :
    let far : RmReq := { request 0 11 (some 1) with place := some (.scratch (.lit 64)) }
    let s := core0 (fun k => { k with rmOut := [request 1 7 none, request 2 8 none, request 0 9 (some 1), far] }) []
    let dir := { paged with rmem := { paged.rmem with directory := [(600 * extentBytes / 64 + 1, 3)],
                                                      recallInv := [(600 * extentBytes / 64 + 1, 1)] } }
    (∀ n ∈ [7, 8, 9, 10, 11], tagCore n = 0) ∧ s.rmReqOf 0 10 = none ∧ s.rmReqOf 0 7 = some (request 1 7 none) ∧
      (request 1 7 none).mine = false ∧ s.rmReqOf 0 8 = some (request 2 8 none) ∧ s.rmReqOf 0 9 = some (request 0 9 (some 1)) ∧
      (request 0 9 (some 1)).place = none ∧ s.rmReqOf 0 11 = some far ∧ (s.core 0).rmWait = [] ∧
      paged.rankDev 1 = some 1 ∧ (dir.xlateOf (field 64 21 27)).isSome = true ∧ dir.quadPos 1 = some 1 ∧ dir.rmem.held = [] ∧
      keysRise dir.rmem.directory = true ∧ (ask 1).combined = false := by decide +kernel

theorem witness_RemoteAndCollectiveFrames : ∀ i ∈ [Instr.moverTransfer 0 none (.scratch (.lit 0)) (.shared 0) 4,
    .mvRemoteRead 0 1 0 64 (.lit 0) false, .mvRemoteWrite 0 1 0 64 (.lit 0), .mvRemoteAdd 0 1 0 .int32 (.lit 0),
    .mvInvalidate 0 1 0 64, .atomicAdd 0 0 0 true 1 (.lit 0), .atomicMin 0 0 0 true 1 (.lit 0), .atomicMax 0 0 0 true 1 (.lit 0),
    .atomicSwap 0 0 0 true 1 (.lit 0), .compareSwap 0 0 0 true 0 1 (.lit 0), .rmRead (ask 1), .rmWrite (ask 2), .rmAdd (ask 3),
    .readData (rmp 4), .ack (rmp 5), .nak (rmp 6), .invalidate (rmp 7), .invAck (rmp 8), .rmTimeout 0 7, .recallDone,
    .cxlTimeout 0 9, .cxlCompletion 0 9 false, .ready (clp 1), .data (clp 2), .collAck (clp 3), .resend (clp 4), .abort (clp 5),
    .collTimeout 0 0], goesOn paged i = true := by decide +kernel

/-! ### Witnesses: the Yard, the Platforms, the combine and the exit stage -/

/-- The layer slot record of R67 as a number: 16 experts in 16 striped groups, 2 chosen, KV selection of at most 2. -/
def layer : Nat := 16 + 16 * 2 ^ 16 + 2 * 2 ^ 32 + 2 * 2 ^ 40 + 2 ^ 49 + 2 ^ 54 + 2 * 2 ^ 64 + 2 * 2 ^ 80

/-- A device in beat 5 of its job with that layer in slot 0, a Platform of expert 3 in Platform slot 2 on core 9, and room
for Consists in cluster 1's pool. -/
def platformed : State :=
  let s := (((beating 2 5 []).setDom Reg.layerSlotCfg (Blob.ofBytes (leBytes 16 layer))).setDom Reg.platformTable
    (Blob.ofBytes (List.replicate 16 0 ++ leBytes 8 (3 * 2 ^ 16 + 10 * 2 ^ 32 + 9 * 2 ^ 48 + 2 ^ 63)))).setDom
      (slotKey Reg.quotaTable 1) (Blob.ofBytes (leBytes 8 (100 + 65535 * 2 ^ 16)))
  { s with beat := { s.beat with accepts := true },
           platforms := { s.platforms with recvLeft := [(2 * 65536 + 1, 4)], capLeft := [(2, 4)] } }

/-- A choice of expert 3 at Platform slot 2. -/
def choice : ChoiceEntry := ⟨0, 2, 3, 0, false, false⟩

/-- A packet of kind k of beat b with one choice, from rank 1 towards rank 1. -/
def carry (k b : Nat) : BeatPacket := ⟨{ hdr k with srcRank := 1, nextRank := 1, beat := b, homeCluster := 1 }, [choice], [], [], 0, 0⟩

/-- A state whose chains for a packet have all been granted. -/
def landedBy (s : State) (p : BeatPacket) : State :=
  { s with pools := { s.pools with chains := (s.landingClusters p).map (fun k => ⟨k, 0, [0], 0, 1, false, p⟩) } }

/-- A queued choice of the token of hdr. -/
def queued : QueuedChoice := ⟨idOf (hdr 1), choice, 0, 1, 1, 5, false, none, false, false, false, []⟩

/-- The same device holding a residual for that token, the token's scorer input and its KV state with one open block. -/
def scoring : State :=
  let s := platformed
  let t : TokenId := ⟨5, 2, 9, 1, 1⟩
  { s with combine := { s.combine with residuals := [⟨t, 1, 0, true, 0, 5, [1]⟩] },
           yards := { s.yards with inputs := [⟨t, 0, 1, 5, [(0, [1, 2, 3, 4])]⟩] },
           tiers := { s.tiers with kv := [⟨5, 2, s.tenantNow, [2 ^ 30 + 600, 2 ^ 30 + 601], false, [⟨0, 0, 0, 0, 0⟩],
             [⟨0, 0, 1, 0, 0⟩], []⟩] } }

theorem witness_YardSpendsCreditsOnce :
    let s := scoring
    let t : TokenId := ⟨5, 2, 9, 1, 1⟩
    let r : Residual := ⟨t, 1, 0, true, 0, 5, [1]⟩
    let cut := { s with combine := { s.combine with cancels := [⟨5, 2, 5⟩] } }
    let v := s.stageView t
    let w := (s.kvUser s.tenantNow t.tag t.lane).bind (fun u => s.storeKv u 0 [1] [2])
    platformed.residualOf t = none ∧ s.residualOf t = some r ∧ cut.residualOf t = some r ∧ cut.stale t.tag t.gen = true ∧
      s.stale t.tag t.gen = false ∧ (v.layerSlot 1).experts = 0 ∧ s.rankDev 1 = some 1 ∧ (v.layerSlot 0).experts ≠ 0 ∧
      (v.scorerInput (v.layerSlot 0) t 0 1 []).isSome = true ∧ (v.layerSlot 0).striped = true ∧ 15 < (v.layerSlot 0).groups ∧
      s.replyFor t 1 0 15 = none ∧ (s.kvUser s.tenantNow t.tag t.lane).any (fun u => !s.sumsBad u 0) = true ∧
      (s.layerSlot 0).experts ≠ 0 ∧ (s.layerSlot 0).kvSel = true ∧ s.coreOn 15 = true ∧ 15 / 8 = r.cluster ∧
      w.map (fun w => ((w.kvUser s.tenantNow t.tag t.lane).map (fun u => (u.blocksOf 0).length)).getD 0) = some [(0 : FP32)].length ∧
      [(0 : FP32)].length ≤ (s.layerSlot 0).kvTopk ∧ s.readsFormer = false ∧
      ({ s with yards := { s.yards with copying := true } } : State).yards.copying = true := by decide +kernel

theorem witness_CellPoolsConserveAndServe :
    let s := platformed
    let r : ChainReq := ⟨0, 17, carry 1 5, false, 0⟩
    let s6 : ChainReq := ⟨5, 1, carry 6 5, false, 0⟩
    let w := { s with pools := { s.pools with pools := [(1, { Pool.empty with waiting := [r] }), (3, { Pool.empty with waiting := [s6] })] } }
    let a := after w (.chainAllocate 1)
    keysRise (s.pool 1).held = true ∧ s.chainDecision 1 r = (0, 0) ∧
      a.pools.chains.any (fun c => keysRise (a.pool c.cluster).held &&
        decide (c.cells.length ≤ mapGetD 0 c.entry (a.pool c.cluster).held)) = true ∧ (carry 1 5).hdr.kind = 1 ∧
      (w.pool 1).waiting = r :: [] ∧ r.striped = false ∧ w.chainDecision 1 r = (0, 0) ∧
      (w.pool 3).waiting = s6 :: [] ∧ s6.pkt.hdr.kind = 6 ∧ (w.chainDecision 3 s6).1 = 2 := by decide +kernel

theorem witness_IntakeDecidesAChoice :
    let p := carry 1 5
    let s := landedBy platformed p
    let closed := after s .intakeClose
    p.hdr.kind = 1 ∧ p.entries = [choice] ∧ s.platCluster choice.pslot = some 1 ∧ 1 < 16 ∧
      s.stale p.hdr.batchTag p.hdr.gen = false ∧ s.landed p ∧ s.intakeCause p 0 choice = 0 ∧ closed.landed p ∧
      closed.intakeCause p 0 choice ≠ 0 ∧ closed.beat.intakeClosed = true ∧ s.rankDev p.hdr.nextRank = some 1 := by decide +kernel

theorem witness_PlatformCommandsComplete :
    let s := (platformed.setQueueOf 2 [queued]).setReg (Reg.mode 9) 1
    let c := (after s .intakeClose).updCore 9 (fun k => { k with seg1 := ⟨1, []⟩ })
    let toPredict := { queued with pred := true }
    let a := { s with platforms := { s.platforms with auditEnded := some 3 } }
    s.noBeat = false ∧ s.beat.intakeClosed = false ∧ c.runs 9 = true ∧ ((c.core 9).seg (c.sealBeat 9)).state = 1 ∧
      c.beat.intakeClosed = true ∧ c.predicted 9 (c.sealBeat 9) = true ∧
      (c.line (lineKey 9 (.cluster 249) (c.sealBeat 9))).arrivals = 0 ∧
      (c.line (lineKey 9 (.cluster 249) (c.sealBeat 9))).fired = false ∧
      s.findChoice 2 queued.tok 0 = some queued ∧ queued.spoiled = false ∧ s.rankDev queued.nextRank = some 1 ∧
      (platformed.setQueueOf 2 [toPredict]).findChoice 2 queued.tok 0 = some toPredict ∧ toPredict.pred = true ∧
      toPredict.kept = none ∧ a.platforms.auditEnded = some 3 := by decide +kernel

theorem witness_ReturnsSettleOnce :
    ∀ a ∈ [true, false],
      let p := carry (if a then 2 else 4) 5
      let s := landedBy platformed p
      let c : PendingChoice := ⟨idOf p.hdr, returnChoice p, p.hdr.beat⟩
      let r : Return := ⟨idOf p.hdr, p.hdr.beat, returnChoice p, a, if a then 0 else refusalCause p, some p⟩
      let open' := { s with combine := { s.combine with pending := [c] } }
      let held := { s with combine := { s.combine with manifests := [⟨carry 3 5, false, false⟩] } }
      let old := landedBy (platformed.setReg Reg.beatNumber 7) p
      p.hdr.kind = (if a then 2 else 4) ∧ open'.landed p ∧ c ∈ open'.combine.pending ∧ held.landed p ∧ c ∉ held.combine.pending ∧
        held.combine.manifests.any (heldFor (idOf p.hdr) p.hdr.beat) = true ∧ held.holdsReturn r = false ∧ old.landed p ∧
        old.combine.manifests.any (heldFor (idOf p.hdr) p.hdr.beat) = false ∧ old.knows (idOf p.hdr) p.hdr.beat = false ∧
        old.pastAttn p.hdr.beat = true ∧ Reg.lostFault ∈ [Reg.combined, Reg.lostFault] := by decide +kernel

theorem witness_CombineCommandsComplete :
    let p := carry 3 5
    let s := landedBy platformed p
    let known := { s with combine := { s.combine with known := [(idOf p.hdr, 5)] } }
    let pend := { s with combine := { s.combine with pending := [⟨idOf p.hdr, 0, 3⟩] } }
    p.hdr.kind = 3 ∧ s.landed p ∧ s.knows (idOf p.hdr) 5 = false ∧ s.stale 5 1 = false ∧ s.age 5 = 0 ∧ known.landed p ∧
      known.knows (idOf p.hdr) 5 = true ∧ s.noBeat = false ∧ s.beat.attnEnded = false ∧
      pend.combine.pending.all (fun c => decide (pend.age c.beat < 2 ∨ 2 ^ 31 ≤ pend.age c.beat)) = false ∧
      (⟨5, 1, 7⟩ : CancelNotice) ∉ s.combine.cancels := by decide +kernel

theorem witness_ExitStageCompletes :
    let v := carry 5 5
    let c := carry 6 5
    let s := (platformed.setReg Reg.vocabLen 64).setReg Reg.vocabShares 1
    let sv := landedBy s v
    let x : ExitToken := ⟨idOf c.hdr, 1, 0, 5, [(1, [(4, 0)])], false⟩
    let empty := { x with sets := [] }
    let sc := { landedBy s c with exits := [empty] }
    let m := { s with exits := [x] }
    let ended := { s with exits := [empty] }
    v.hdr.kind = 5 ∧ sv.landed v ∧ sv.stale 5 1 = false ∧ (sv.asOf 5).reg Reg.vocabLen ≠ 0 ∧ sv.rankDev 1 = some 1 ∧
      c.hdr.kind = 6 ∧ sc.landed c ∧ sc.stale 5 1 = false ∧ sc.age 5 = 0 ∧ sc.exitToken (idOf c.hdr) 5 = some empty ∧
      empty.merged = false ∧ empty.sets.any (fun e => e.1 == 1) = false ∧
      (m.exits.find? (fun x => x.tok.tag == 5 && x.tok.lane == 2 && !x.merged && m.age x.beat == 0 &&
        decide ((m.asOf x.beat).reg Reg.vocabShares ≤ x.sets.length))) = some x ∧ m.stale x.tok.tag x.tok.gen = false ∧
      topK (m.asOf x.beat).sampleK (x.sets.flatMap (fun e => e.2)) ≠ [] ∧
      topK (m.asOf x.beat).sampleK ([] : List (Nat × FP32)) = [] ∧ m.rankDev x.tok.entryRank = some 1 ∧
      (ended.exits.filter (fun x => !x.merged && ended.age x.beat == 0 &&
        decide (x.sets.length < (ended.asOf x.beat).reg Reg.vocabShares) && !ended.stale x.tok.tag x.tok.gen)).length = 1 := by
  decide +kernel

theorem witness_DispatchFrame : ∀ i ∈ [Instr.stage2Result tok 0 1 0 [] [], .stripedGroupRequest 0 0 tok [],
    .kvBlockSelection 0 0 0 tok [] [] [], .gateCopyDone, .consistHeaderArrival (carry 1 5), .chainAllocate 1,
    .consistArrival 1 (carry 1 5), .intakeClose, .predictionComplete 2 tok 0, .segmentSeal 9,
    .expertAnswerSend 2 tok 0 false 0, .answerArrival (carry 2 5), .refusalArrival (carry 4 5), .manifestArrival (carry 3 5),
    .orphanSweep, .pendingExpiry, .cancelNoticeArrival 5 1 7, .cancelNoticeExpiry 5 1, .vocabularyRequestArrival (carry 5 5) [] 0,
    .candidateSetArrival (carry 6 5), .vocabMerge 5 2 0, .sampleEndExpiry 0, .auditWindowClose],
    goesOn platformed i = true := by decide +kernel

/-! ### Witnesses: the fabric -/

/-- A whole data flit with a sequence number: its header, zeros, and its CRC. -/
def flit (n : Nat) : List Byte := flitOf ⟨n, 1, 0, true, true, 239, 0, false, false⟩ []

/-- Port 0 UP, and device 1 reached through it. -/
def linked : State :=
  (ranks 2 [(Reg.portState 0, 2)]).setDom Reg.routeTable (Blob.ofBytes (List.replicate 16 0 ++ leBytes 16 1))

/-- A Consist of device 0 for device d, in this job. -/
def out (d : Nat) : Packet := ⟨rte 0 d, 0, [], .beat (pkt 1)⟩

/-- The device whose Junction's packet buffers are full. -/
def crowded : State :=
  let f : SentFlit := ⟨0, out 1, 0, 0, false⟩
  { linked with fabric := { linked.fabric with
    ports := (List.range 24).map (fun x => (x, { linked.port 5 with retryBuf := List.replicate 4096 f })) } }

theorem witness_FlitsAreAcceptedInOrder :
    let credits := flitOf ⟨0, 2, 0, false, false, 0, 0, false, false⟩ (leBytes 24 (2 ^ 16))
    linked.portLive 0 = true ∧ flitOk (List.replicate 256 0) = false ∧ flitOk (flit 0) = true ∧ (flitHdr (flit 0)).type = 1 ∧
      (flitHdr (flit 0)).vc < 12 ∧ (flitHdr (flit 0)).seqNo = (linked.port 0).rxNext ∧ (flitHdr (flit 0)).sop = true ∧
      ((flitHdr (flit 0)).eop && (flitHdr (flit 0)).trunc) = false ∧ flitOk (flit 1) = true ∧
      (flitHdr (flit 1)).type = 1 ∧ (flitHdr (flit 1)).vc < 12 ∧ (flitHdr (flit 1)).seqNo ≠ (linked.port 0).rxNext ∧
      flitOk credits = true ∧ (flitHdr credits).type = 2 ∧ (linked.port 0).rxRetry = false := by decide +kernel

theorem witness_PortStatesFollowTheirEvents :
    let s := linked
    let remap := after s (.laneFault 0 7)
    let first := ready [(Reg.portState 59, 1)]
    let idle := ready [(Reg.portState 59, 0)]
    59 < 60 ∧ s.portLive 0 = true ∧ mapGetD 0 65535 (s.port 0).retries + 1 < field (s.reg (Reg.portCfg 0)) 8 5 ∧
      field ((s.setReg (Reg.portCfg 0) (1 + 2 + 256)).reg (Reg.portCfg 0)) 8 5 ≤ 1 ∧ 7 < 9 ∧
      (s.reg (Reg.laneState 0)).testBit 7 = true ∧ (s.reg (Reg.laneState 0)).testBit 15 = false ∧ s.reg (Reg.portState 0) ≠ 3 ∧
      (remap.port 0).remapLane = some 7 ∧ remap.reg (Reg.portState 0) = 3 ∧ (remap.reg (Reg.laneState 0)).testBit 6 = true ∧
      first.reg (Reg.portState 59) = 1 ∧ idle.reg (Reg.portState 59) = 0 ∧ (idle.reg (Reg.portCfg 59)).testBit 0 = true ∧
      7 ≤ idle.reg Reg.bootStage ∧ idle.reg Reg.bootStage ≤ 9 := by decide +kernel

theorem witness_RoutingDeliversHoldsOrDiscards :
    let s := linked.setReg Reg.jobId 7
    let q := fun d => (s.asSource (out d)).route
    let manager : Packet := ⟨{ rte 0 0 with cls := 5 }, 0, [], .mgmt (.heartbeat 0)⟩
    let drain := ((s.setReg Reg.drainState 1).setReg Reg.drainClasses 63).setReg Reg.drainPorts 1
    crowded.hasRoom (crowded.asSource (out 1)) = false ∧ s.hasRoom (s.asSource (out 1)) = true ∧ (q 1).mc = false ∧
      (∀ r ∈ [rmp 1], (out 1).body ≠ .rm r) ∧ s.routeTo (q 0) (physDev (q 0).dst) = .here ∧
      s.delivers (s.asSource (out 0)) = true ∧ s.delivers (s.asSource manager) = false ∧
      s.routeTo (q 1) (physDev (q 1).dst) = .port 0 false ∧
      drain.routeTo (q 1) (physDev (q 1).dst) = .hold ∧ s.routeTo (q 2) (physDev (q 2).dst) = .nowhere ∧
      s.portLive 0 = true ∧ (out 1).route.mc = false ∧ s.routeTo (out 1).route 1 = .port 0 false := by decide +kernel

theorem witness_MulticastsAndDrains :
    let s := linked.setDom (slotKey Reg.mcastGroup 0) (Blob.ofBytes ([1, 0, 0, 0, 0, 0, 0, 0] ++ [1, 0]))
    let d := ready [(Reg.drainState, 1)]
    let manifest : Packet := ⟨rte 0 1, 0, [], .beat (carry 3 5)⟩
    let asked : Packet := ⟨{ rte 0 1 with cls := 2 }, 0, [], .rm (ask 1)⟩
    let copy := copyOf manifest
    let rm := copyOf asked
    let w := core0 (fun k => { k with rmOut := [request 1 7 none] }) []
    3 ≠ 4 ∧ 3 ≠ 5 ∧ s.mcastRanks 0 = [1] ∧ 1 < 2 ^ (s.mcastRanks 0).length ∧ (s.mcastRanks 0).all (fun r => (s.rankDev r).isSome) = true ∧
      physDev (RouteHdr.ofBytes copy).src = s.here ∧ (RouteHdr.ofBytes copy).cls ≤ 1 ∧ (BeatHdr.ofBytes (copiedBody copy)).kind = 3 ∧
      headerCount (copiedBody copy) = 1 ∧ physDev (RouteHdr.ofBytes rm).src = w.here ∧ (RouteHdr.ofBytes rm).cls = 2 ∧
      (RmPacket.ofBytes (copiedBody rm)).opc = 1 ∧ (RmPacket.ofBytes (copiedBody rm)).combined = false ∧
      w.rmReqOf (tagCore (RmPacket.ofBytes (copiedBody rm)).tag) (RmPacket.ofBytes (copiedBody rm)).tag = some (request 1 7 none) ∧
      (w.core 0).rmWait = [] ∧ (out 1).body = .beat (pkt 1) ∧ (ready []).mayWrite .mgr Reg.drainCmd ∧
      (ready []).reg Reg.drainState = 0 ∧ d.mayWrite .mgr Reg.drainCmd ∧ d.reg Reg.drainState = 1 ∧ d.fabric.held = [] ∧
      d.drainEmpty = true ∧ d.fabric.drainOwn = false := by decide +kernel

theorem witness_MulticastsAndDrains_records :
    let s := { linked with fabric := { linked.fabric with combines := [⟨3, [ask 3], 0, 10⟩] } }
    (s.fabric.combines.find? (fun c => c.num == 3)) = some ⟨3, [ask 3], 0, 10⟩ := by decide +kernel

theorem witness_FabricFrame : ∀ i ∈ [Instr.flitReceive 0 (flit 0) 0 0, .retryRequest 0 0, .laneFault 0 1, .laneRemapDone 0,
    .portSilenceTimeout 0, .portFail 0, .portTrainingDone 0 true 1 1, .portPeerPresent 0, .packetRoute none (out 1),
    .multicastInject 4 0 0 0 (.beat (pkt 1)), .drainTimeout, .combineRecordTimeout 0, .drainStart .mgr, .drainRelease .mgr],
    goesOn linked i = true := by decide +kernel

/-- Port 0 draining since hall time 0, its DRAIN_TIMEOUT over, with packets queued for it. -/
def undrained (l : List (Nat × Packet)) : State :=
  let s := ((linked.setReg Reg.drainState 1).setReg Reg.drainClasses 63).setReg Reg.drainPorts 1
  let s := s.setPort 0 { s.port 0 with queue := l }
  { s with time := { s.time with hallTime := 2000000 } }

theorem witness_DrainTimeoutDiscardsTheRest :
    let s := undrained [(0, out 1)]
    let u := s.advanceTo (s.fabric.drainAt + s.reg Reg.drainTimeout)
    let d := undrained []
    s.reg Reg.drainState = 1 ∧ u.drainEmpty = false ∧ (List.range 60).flatMap u.drainRest ≠ [] ∧
      d.reg Reg.drainState = 1 ∧ (d.advanceTo (d.fabric.drainAt + d.reg Reg.drainTimeout)).drainEmpty = true := by decide +kernel

/-! ### Witnesses: the streams -/

/-- A record of the stream input: kind, count, lane, batch and the fields from bit 32 on. -/
def rec (kind count lane batch rest : Nat) : BitVec 128 :=
  BitVec.ofNat 128 (kind + count * 16 + lane * 256 + batch * 65536 + rest * 2 ^ 32)

/-- A running entry device with a batch size of one lane. -/
def entry (l : List (Nat × Nat)) : State := beating 2 5 ([(Reg.batchSize, 1), (Reg.hiddenWidth, 64), (Reg.vocabSize, 100)] ++ l)

/-- The lane whose sample of position 9 is awaited. -/
def waiting : Lane := ⟨false, 10, [], [], 0, 3, 3, 99, none, none, some 9, none, false⟩

/-- Batch 4 with one lane. -/
def oneLane (l : Lane) : Batch := ⟨4, 0, 0, [l], []⟩

/-- The entry device with that batch open. -/
def opened (l : Lane) : State := { entry [] with streams := { (entry []).streams with batches := [oneLane l] } }

theorem witness_StreamRecordsInAndOut :
    let s := entry []
    let o := opened (idleLane none)
    s.mayStream .op ∧ s.atRest ∧ inFormOk (inRec (rec 1 0 0 4 1)) = true ∧ s.takesInput = true ∧ (inRec (rec 1 0 0 4 1)).kind = 1 ∧
      (inRec (rec 1 0 0 4 1)).batch ≠ 0 ∧ s.batchNum 4 = none ∧ field (rec 1 0 0 4 1).toNat 32 9 = s.reg Reg.batchSize ∧
      s.reg Reg.batchSize ≠ 0 ∧ o.atRest ∧ o.takesInput = true ∧ inFormOk (inRec (rec 4 0 0 4 0)) = true ∧
      o.batchNum (inRec (rec 4 0 0 4 0)).batch = some (oneLane (idleLane none)) ∧
      (oneLane (idleLane none)).lanes.all (fun l => l.idle) = true ∧ o.streams.out.length < 65536 ∧
      (inRec (rec 0 0 0 4 0)).kind = 0 ∧ 4 < (inRec (rec 15 0 0 4 0)).kind ∧ 0 < 4 ∧ 4 ≤ 4 := by decide +kernel

theorem witness_LanesAndTokensFillABatch :
    let reading := fun (n : Nat) (b : Batch) => (entry [(Reg.batchSize, 2)]).setParse ⟨some b, n, none, 1, false, none⟩
    let idleRec := rec 2 0 0 4 1
    let l : Lane := { waiting with missing := 4, due := none }
    let toks := rec 3 3 0 4 (7 + 8 * 2 ^ 32 + 99 * 2 ^ 64)
    (reading 2 ⟨4, 0, 0, [], []⟩).mayStream .op ∧ (reading 2 ⟨4, 0, 0, [], []⟩).takesInput = true ∧
      (reading 2 ⟨4, 0, 0, [], []⟩).streams.used < 65536 ∧ inFormOk (inRec idleRec) = true ∧ (inRec idleRec).batch = 4 ∧
      (inRec idleRec).kind = 2 ∧ (inRec idleRec).lane = ([] : List Lane).length ∧ (laneOf (inRec idleRec)).idle = true ∧
      1 < 2 ∧ (reading 1 ⟨4, 0, 0, [], []⟩).streams.out.length < 65536 ∧ inFormOk (inRec toks) = true ∧ (inRec toks).kind = 3 ∧
      (inRec toks).lane + 1 = [l].length ∧ [l].getLast? = some l ∧ (tokensOf (inRec toks)).length < l.missing ∧
      (tokensOf (inRec toks)).all (fun x => decide (x < (reading 1 (oneLane l)).reg Reg.vocabSize)) = true ∧
      (reading 1 (oneLane l)).streams.parse = ⟨some (oneLane l), 1, none, 1, false, none⟩ := by decide +kernel

theorem witness_LanesEndWithARecord :
    let s := opened waiting
    let p : BeatPacket := { pkt 7 with hdr := { hdr 7 with batchTag := 4, lane := 0, gen := 0 }, token := 42 }
    let l := landedBy s p
    let c := { s with streams := { s.streams with batches := [{ oneLane waiting with cancels := [(1, 6)] }] } }
    s.batchTag 4 = some (oneLane waiting) ∧ (oneLane waiting).lanes[0]? = some waiting ∧ waiting.idle = false ∧
      s.streams.out.length + 1 < 65536 ∧ l.landed p ∧ l.batchTag 4 = some (oneLane waiting) ∧ p.hdr.kind = 7 ∧
      l.stale 4 p.hdr.gen = false ∧ p.hdr.gen = (oneLane waiting).run ∧ waiting.due = some p.hdr.position ∧ waiting.got = none ∧
      waiting.skip = false ∧ waiting.prompt = [] ∧ 1 < waiting.left ∧ p.token % 2 ^ 32 ≠ waiting.stopId ∧
      (oneLane waiting).cancels = [] ∧ s.mayWrite .op Reg.batchCancel ∧ s.combine.cancels.length < 64 ∧ c.noBeat = false ∧
      c.batchTag 4 = some { oneLane waiting with cancels := [(1, 6)] } ∧
      [(1, 6)].any (fun c' => decide (c'.2 ≤ c.beatNow + 1)) = true := by decide +kernel

theorem witness_StreamFrame : ∀ i ∈ [Instr.batch .op (rec 1 0 0 4 1), .lane .op (rec 2 0 0 4 1), .tokens .op (rec 3 1 0 4 7),
    .close .op (rec 4 0 0 4 0), .reservedRecordKind .op (rec 5 0 0 4 0), .streamOutRead .op 4, .tokenLost 4 0, .cancelTakesEffect 4,
    .endNoticeArrival 4 0 9 0 1, .batchCancel .op 4, .sampledTokenArrival (pkt 7)], goesOn (entry []) i = true := by
  decide +kernel

/-! ### Witnesses: collectives -/

/-- A collective descriptor: BROADCAST of n bytes from page 0 to itself, root 1, group 0, number 9. -/
def descr (n : Nat) : List Byte := leBytes 64 (1 + 2 ^ 8 + 9 * 2 ^ 32 + 1 * 2 ^ 64 + n * 2 ^ 96)

/-- Two ranks that are group 0, with page 0. -/
def grouped : State := paged.setDom (slotKey Reg.collGroup 0) (Blob.ofBytes ([2, 0, 0, 0, 0, 0, 0, 0] ++ [0, 0, 1, 0]))

/-- A chunk of that broadcast from member 1. -/
def chunk (d : List Byte) : CollPacket := ⟨1, 12, 0, 0, 9, 1, 0, 0, crc32c d, d⟩

/-- A collective of that descriptor in flight in slot 0. -/
def inFlight (c : CollSlot → CollSlot) : State :=
  grouped.setColl 0 (c { CollSlot.empty with state := 1, seqNo := 9, descr := descr 131072, members := [0, 1] })

theorem witness_CollectivesStartOrAreRefused :
    (descr 0).length = 64 ∧ grouped.mayWrite .mgr Reg.collStart ∧ grouped.collCheck (descr 0) = (0, 0) ∧
      (collDescr (descr 0)).len = 0 ∧ (descr 65).length = 64 ∧
      (let b : List Byte := List.replicate 64 0
       b.length = 64 ∧ (grouped.collCheck b).1 ≠ 0 ∧ (grouped.collCheck b).2 ≠ 0) ∧ grouped.coreOn 0 = true := by decide +kernel

theorem witness_CollectiveChunksAndFailures :
    let s := inFlight id
    let d : List Byte := [1, 2, 3, 4]
    let ready : CollPacket := { chunk ((descr 131072).take 16) with kind := 2 }
    let got := inFlight (fun c => { c with recvd := [(12, 1, 0)] })
    let sent := inFlight (fun c => { c with sent := [⟨12, 0, d, [1], []⟩] })
    grouped.collSlotOf 0 9 = none ∧ s.collSlotOf 0 9 = some 0 ∧ s.rankDev ((s.coll 0).members.getD 1 0) = some 1 ∧
      crc32c d = (chunk d).crc ∧ d.length ≤ 65536 ∧ (12, 1, 0) ∉ (s.coll 0).recvd ∧ (chunk d).phase = 12 ∧
      (collDescr (s.coll 0).descr).op ≠ 5 ∧ (s.coll 0).toSend = [] ∧ s.rmem.directory = [] ∧
      (s.coll 0).recvd.length + 1 ≠ collExpected (collDescr (s.coll 0).descr) (s.coll 0).myOrd 2 ∧
      ready.data.take 16 = (s.coll 0).descr.take 16 ∧ 1 ∉ (s.coll 0).readyFrom ∧
      (s.coll 0).recvd.length ≠ collExpected (collDescr (s.coll 0).descr) (s.coll 0).myOrd 2 ∧
      crc32c d ≠ { chunk d with crc := 0 }.crc ∧ (12, 1, 0) ∉ (s.coll 0).resent ∧ got.collSlotOf 0 9 = some 0 ∧
      (12, 1, 0) ∈ (got.coll 0).recvd ∧ sent.collSlotOf 0 9 = some 0 ∧
      (sent.coll 0).sent.find? (fun x => x.phase == 12 && x.chunk == 0 && x.waiting.contains 1) = some ⟨12, 0, d, [1], []⟩ ∧
      (sent.coll 0).toSend = [] ∧ (∀ x ∈ (sent.coll 0).sent, x.phase = 12 ∧ x.chunk = 0 ∧ x.waiting = [1]) ∧
      (sent.coll 0).recvd.length ≠ collExpected (collDescr (sent.coll 0).descr) (sent.coll 0).myOrd 2 ∧
      (s.coll 0).slotCore = none := by decide +kernel

theorem witness_CollectiveChunksAndFailures_corners :
    let d : List Byte := [1, 2, 3, 4]
    let all : List Byte := leBytes 64 (3 + 3 * 2 ^ 8 + 9 * 2 ^ 32 + 131072 * 2 ^ 96)
    let there := inFlight (fun c => { c with descr := all })
    let last : CollPacket := { chunk d with phase := 13 }
    let again := inFlight (fun c => { c with resent := [(12, 1, 0)] })
    let c := there.coll 0
    there.collSlotOf 0 9 = some 0 ∧ crc32c d = last.crc ∧ last.phase = 13 ∧ (13, 1, 0) ∉ c.recvd ∧ (collDescr c.descr).op = 3 ∧
      c.inPlace = true ∧ c.toSend = [] ∧ c.recvd.length + 1 ≠ collExpected (collDescr c.descr) c.myOrd c.members.length ∧
      again.collSlotOf 0 9 = some 0 ∧ (12, 1, 0) ∈ (again.coll 0).resent ∧ (again.coll 0).slotCore = none := by decide +kernel

theorem witness_CollectivesStartOrAreRefused_slot :
    let s := grouped.updCore 0 (fun k => k.spWrite 64 (descr 0))
    s.coreOn 0 = true ∧ s.collCheck ((s.core 0).spRead ((s.core 0).addr .mv (.lit 64)) 64) = (0, 0) ∧
      (s.collCheck ((s.core 0).spRead ((s.core 0).addr .mv (.lit 0)) 64)).1 ≠ 0 := by decide +kernel

/-! ### Witnesses: homes, images and errors of the memories -/

/-- Tenant 3 runs in slot 0. -/
def tenanted (l : List (Nat × Nat)) : State :=
  { ready ([(Reg.runningSlot, 0), (Reg.sessionBind, 0)] ++ l) with
      slots := [(0, { TenantSlot.empty with tenant := 3, share := 1, state := 2 })] }

/-- The same with a home at an address, and a user of batch tag 5, lane 2 that holds it. -/
def homed (a : Nat) (parked : Bool) : State :=
  let s := tenanted []
  { s with tiers := { s.tiers with homes := [⟨a, 3, false, 0, none, 0, false⟩], kv := [⟨5, 2, 3, [a], parked, [], [], if parked then [0] else []⟩] } }

theorem witness_AllocGivesAndFreeTakesHomes :
    let s := tenanted []
    let h := homed (homeAddr 1 0 512) true
    s.mayHome .mgr ∧ s.homesQuiet ∧ h.mayHome .mgr ∧ h.homesQuiet ∧ 4096 ≤ s.tierFree 1 0 ∧ s.tierFree 3 1 < 1 ∧ 15 < 16 ∧
      homeAddr 1 0 512 < 2 ^ 32 ∧ (h.homeAt (homeAddr 1 0 512)).isSome = true ∧ h.namedByXlate (homeAddr 1 0 512) = false ∧
      (∀ x ∈ h.tiers.homes, x.tenant = h.tenantNow) ∧ (∀ u ∈ h.tiers.kv, u.parked = true) ∧ s.homeAt 7 = none := by decide +kernel

theorem witness_HomeMovesStartAndEnd :
    let a := homeAddr 1 0 512
    let h : Home := ⟨a, 3, false, 0, none, 0, false⟩
    let s := homed a true
    let d := homeAddr 2 0 0
    let c : HomeCmd := { (default : HomeCmd) with seqNo := 1, tenant := 3, opc := 3, tier := 2 }
    let m := { s with tiers := { s.tiers with homes := [{ h with moving := some d, moveSeq := 1 }], running := [c] } }
    s.mayHome .mgr ∧ s.homesQuiet ∧ s.homeAt a = some h ∧ h.tenant = s.tenantNow ∧ (s.pickExtent 2 0).isSome = true ∧
      (s.pickExtent 1 0).isSome = true ∧ s.namedByXlate a = false ∧ (homed a false).homesQuiet ∧
      ((homed a false).kvUser 3 5 2).map (fun u => (u.parked, u.frames)) = some (false, [a]) ∧ a ≠ 0 ∧
      ((homed d true).kvUser 3 5 2).map (fun u => (u.parked, u.frames, u.order)) = some (true, [d], [0]) ∧
      ((homed d true).pickExtent 1 0).isSome = true ∧ homeTier d ≠ 1 ∧
      m.homeAt a = some { h with moving := some d, moveSeq := 1 } ∧ m.tiers.cmds = [] ∧ c.tenant = h.tenant ∧ c.left = [] ∧
      c.seqNo = 1 ∧ (∀ x ∈ m.tiers.homes, x.addr ≠ a → x.moving = none) ∧ m.homeAt d = none ∧ m.homeBad a 0 extentBytes = false ∧ d ≠ a ∧ homeTier a = 1 ∧ homeTier d = 2 ∧
      m.storesOk := by decide +kernel

/-- An image of four bytes, as it is stored. -/
def imageBytes : List Byte :=
  let body : List Byte := [1, 2, 3, 4]
  leBytes 4 0x494D4731 ++ leBytes 2 8 ++ leBytes 2 0 ++ leBytes 4 4 ++ leBytes 4 0 ++ sha3 body ++ List.replicate 16 0 ++ body

/-- Tenant 3 with that image stored and named by Platform slot 2. -/
def imaged : State :=
  let s := (tenanted []).setDom Reg.platformRes (Blob.ofBytes (List.replicate 33 0 ++ leBytes 2 8 ++ List.replicate 13 0))
  { s with tiers := { s.tiers with images := [⟨3, 8, sha3 [1, 2, 3, 4], [1, 2, 3, 4], [homeAddr 2 0 0]⟩] } }

theorem witness_ImagesAreStoredAndLoaded :
    let s := tenanted []
    let i := imaged
    let p := 2
    let l := { i with platforms := { i.platforms with images := [(p, ⟨1, 8, 0, 0⟩)] } }
    s.mayWrite .mgr Reg.imageStore ∧ s.slotNow ≠ 0xFF ∧ 64 < imageBytes.length ∧ imageBytes.length ≤ 1073741824 ∧
      natAt imageBytes 0 4 = 0x494D4731 ∧ natAt imageBytes 6 2 = 0 ∧ natAt imageBytes 12 4 = 0 ∧
      allZero (bytesAt imageBytes 48 16) = true ∧ natAt imageBytes 8 4 = (imageBytes.drop 64).length ∧
      bytesAt imageBytes 16 32 = sha3 (imageBytes.drop 64) ∧ s.imageOf s.tenantNow (natAt imageBytes 4 2) = none ∧
      (imageBytes.length - 64 + 2097151) / 2097152 ≤ s.tierFree 2 0 ∧ i.mayWrite .mgr Reg.imageDelete ∧
      (i.imageOf i.tenantNow 8).isSome = true ∧ (∀ e ∈ i.platforms.images, e.2.state = 1 → e.2.imageId ≠ 8) ∧
      i.mayWrite .mgr Reg.imageLoad ∧ (platResOf (i.dom Reg.platformRes) p).imageId = 8 ∧ (i.plat p).en = false ∧ (i.imageSlot p).state ≠ 1 ∧
      (l.imageSlot p).state = 1 ∧ l.imageOf l.tenantNow 8 = some ⟨3, 8, sha3 [1, 2, 3, 4], [1, 2, 3, 4], [homeAddr 2 0 0]⟩ ∧
      l.homeBad (homeAddr 2 0 0) 0 extentBytes = false := by decide +kernel

theorem witness_MemoryErrorsAndUpkeep :
    let s := ready []
    let bad := core0 (fun k => { k with scratchBad := [393215] }) []
    let hot := { s with tiers := { s.tiers with reads := [(3 * 131072 + 131071, s.reg Reg.readRelocate)], cxlState := [(0, 2), (1, 1)] } }
    let due := { s with tiers := { s.tiers with reads := [(2 * 131072 + 8192, s.reg Reg.readRelocate)], deferred := [(2, 10000)] } }
    (due.blocksDue 2).find? (fun x => x / 8192 == 1) = some 8192 ∧ 10000 ≤ mapGetD 0 2 due.tiers.deferred ∧
      s.coreOn 0 = true ∧ 393215 ∉ (s.core 0).scratchBad ∧ 393215 ∈ (bad.core 0).scratchBad ∧ 6442450943 < 6442450944 ∧
      6442450943 ∉ s.tiers.hbmBad ∧ 16777215 < 16777216 ∧ 3 < 4 ∧ 131071 < 131072 ∧
      hot.reg Reg.readRelocate ≤ mapGetD 0 (3 * 131072 + 131071) hot.tiers.reads ∧ 15 < 16 ∧ 2 ≤ hot.cxl 0 ∧ hot.homesQuiet ∧
      (∀ e ∈ hot.cores, ∀ q ∈ e.2.rmOut, q.far ≠ some 0) ∧ hot.cxl 1 = 1 ∧ 255 < 256 ∧ s.mayWrite .mgr Reg.rmRecall ∧
      s.reg Reg.recallState ≠ 1 ∧ s.xlateOf 5 = none ∧ (ready [(Reg.recallState, 1)]).mayWrite .mgr Reg.rmRecall ∧
      (ready [(Reg.recallState, 1)]).reg Reg.recallState = 1 := by decide +kernel

theorem witness_FreedExtentsAreZero :
    let a := homeAddr 1 0 512
    let h := homed a true
    h.mayHome .mgr ∧ h.homesQuiet ∧ a < 2 ^ 32 ∧ h.homeAt a = some ⟨a, 3, false, 0, none, 0, false⟩ ∧ 3 = h.tenantNow ∧
      h.namedByXlate a = false ∧ (∀ u ∈ h.tiers.kv, a ∈ u.frames → u.parked = true) ∧
      homeTier a ≠ homeTier (homeAddr 2 0 0) ∧ homeTier a ≠ 0 ∧ homeTier (homeAddr 2 0 0) ≠ 0 := by decide +kernel

/-! ### Witnesses: tenants, the swap, the loader, managers and partitions -/

theorem witness_TenantSlotsAreKept :
    let s := ready []
    let r := { ready [] with slots := [(15, { TenantSlot.empty with tenant := 3, state := 1 })] }
    let n := tenanted []
    let late := { n with time := { n.time with hallTime := 60000000000 } }
    s.mayWrite .op Reg.tenantReg ∧ 1 ≤ 65535 ∧ (s.tslot 15).state = 0 ∧
      (∀ e ∈ s.slots, e.1 ≠ 15 → e.2.state ≠ 0 → e.2.tenant ≠ 1) ∧ 280 ≤ s.tierFree 1 0 ∧ r.mayWrite .op Reg.tenantReg ∧
      (r.tslot 15).state ≠ 0 ∧ (r.tslot 15).state ≠ 2 ∧ r.swap.phase = 0 ∧ n.mayWrite .op Reg.tenantReg ∧ (n.tslot 0).state = 2 ∧
      r.mayWrite .op Reg.sessionBind ∧ late.slotNow = 0 ∧ (late.tslot 0).minute.getD 0 0 < minuteOf late.time.hallTime := by
  decide +kernel

theorem witness_SwapRunsItsPhases :
    let s0 := (beating 2 5 [(Reg.swapEpoch, 9), (Reg.swapIncoming, 0)])
    let slots := [(0, { TenantSlot.empty with tenant := 3, state := 1 })]
    let s := { s0 with slots := slots }
    let phase := fun (n : Nat) (l : List (Nat × Nat)) =>
      { beating 2 20 ([(Reg.swapResumeBeat, 15)] ++ l) with slots := slots, swap := { s.swap with phase := n, epoch := 9, incoming := 0 } }
    let v : SavedTenant := default
    let area := { Tiers.empty with saveFrames := [(0, [512])], hbmBad := [5] }
    let held := { TenantSlot.empty with tenant := 3, state := 3, saveSeq := 4, saved := some (3, 4, v) }
    let back := { phase 5 [] with slots := [(0, held)], tiers := area }
    s.mayWrite .mgr Reg.swapCmd ∧ s.reg Reg.swapEpoch = 9 ∧ s.noBeat = false ∧ s.namedOk 9 = true ∧ s.swap.phase = 0 ∧
      (s.tslot 0).state = 1 ∧ mapGet (roleNum .mgr) s.commits = none ∧ s.package.diagCmd ≠ 4 ∧ s.reg Reg.bootStage ≠ 0xE2 ∧
      s.reg Reg.bootStage ≠ 0xE3 ∧ (phase 1 []).mayWrite .mgr Reg.swapCmd ∧ (phase 1 []).swap.teardown = false ∧
      (phase 1 []).noBeat = false ∧ (phase 1 []).swap.epoch ≤ (phase 1 []).nextBeat ∧ (phase 2 []).swap.epoch + 2 ≤ (phase 2 []).beatNow ∧
      (phase 3 [(Reg.runningSlot, 0)]).slotNow = 0 ∧ (phase 4 []).swap.phase = 4 ∧ back.swap.incoming = 0 ∧
      (back.tslot 0).state = 3 ∧ (back.tslot 0).saveSeq = 4 ∧ back.saveAreaBad 0 = false ∧ (phase 6 []).swap.incoming ≠ 0xFF ∧ (phase 6 []).reg Reg.swapState ≠ 7 ∧
      (phase 6 []).reg Reg.swapResumeBeat ≤ (phase 6 []).nextBeat ∧ (phase 5 []).reg Reg.swapResumeBeat ≤ (phase 5 []).nextBeat := by
  decide +kernel

/-- R294, R341: a poisoned line of the save area fails the restore, and the save that writes the area clears it. -/
theorem test_save_area_poison :
    let s := { beating 2 20 [] with tiers := { Tiers.empty with saveFrames := [(0, [512])], hbmBad := [16777217] } }
    s.saveAreaBad 0 = true ∧ (s.writeSaveArea 0).saveAreaBad 0 = false := by decide +kernel

theorem witness_LoaderObjectsAreChecked :
    let s := ready []
    let busy := core0 (fun k => { k with bank0 := { k.bank0 with state := 4 } }) []
    127 < 128 ∧ 1 < 2 ∧ s.mayWrite .op (objKey (0x4000 + 127) 2) ∧ [(0 : Byte)] ≠ [] ∧ s.bankCheck 127 1 = 0 ∧
      busy.mayWrite .op (objKey 0x4000 1) ∧ busy.bankCheck 0 0 ≠ 0 ∧ s.mayWrite .op (objKey 0x4000 8) ∧
      mapGet (roleNum .op) s.commits = none ∧ s.loaderCheck 0 1 [0] ≠ 0 ∧ s.loaderCheck 0 2 [0] ≠ 0 ∧
      (let h : List Byte := leBytes 4 0x4C425454 ++ leBytes 2 1 ++ [2, 0] ++ leBytes 4 0
       h.length = 12) := by decide +kernel

/-- Device 0 as the manager of domain 4, with device d in its domain. -/
def managing (d : DomainDev) : State :=
  { ready [(Reg.domainId, 4)] with manager := { (ready []).manager with roleLive := 2, domain := [d] } }

/-- Device 0 as a worker that device 9 has admitted. -/
def worker (l : List (Nat × Nat)) : State :=
  { ready ([(Reg.domainId, 4), (Reg.mgrState, 1), (Reg.managerLoc, 9)] ++ l) with
      manager := { (ready []).manager with roleLive := 1, silent := true } }

theorem witness_ManagersAdmitAndWorkersListen :
    let m := managing ⟨1, false, 1, 0, false, [], 0⟩
    let full := { m with manager := { m.manager with domain := List.replicate 1023 ⟨1, false, 1, 0, false, [], 0⟩ } }
    let w := worker []
    let b := { w with manager := { w.manager with roleLive := 3, domain := [⟨1, false, 1, 0, false, [], 0⟩] } }
    b.manager.roleLive = 3 ∧ 4 = b.reg Reg.domainId ∧ b.reg Reg.mgrState = 1 ∧ 16383 ≠ b.reg Reg.managerLoc ∧
      b.inDomain 16383 = false ∧ 4 ≠ 0 ∧ 4 = m.reg Reg.domainId ∧ m.manager.roleLive = 2 ∧ m.inDomain 16383 = false ∧ m.manager.domain.length < 1023 ∧
      16383 < 2 ^ 14 ∧ full.inDomain 16383 = false ∧ 1023 ≤ full.manager.domain.length ∧ 4 = w.reg Reg.domainId ∧
      w.manager.roleLive ≠ 2 ∧ w.reg Reg.mgrState = 1 ∧ w.manager.mgmtDead = false ∧ w.manager.roleLive = 1 ∧
      w.manager.silent = true ∧ m.inDomain 1 = true ∧ (∀ d ∈ m.manager.domain, d.standby = false) := by decide +kernel

theorem witness_ReportsAreLoggedAndLossesDeclared :
    let m := managing ⟨1, false, 1, 0, false, [2], 0⟩
    let s := ready []
    m.manager.roleLive = 2 ∧ (∃ d ∈ m.manager.domain, d.loc = 1 ∧ d.lost = false) ∧ l1Peers 1 3 = true ∧ 2 ≠ 3 ∧
      (∀ d ∈ m.manager.domain, d.loc = 1 → d.failedBy = [2]) ∧ 1 ≠ m.here ∧ m.inDomain 1 = true ∧ 144 ≤ 144 ∧ 9 ≤ 9 ∧
      6 ∉ s.manager.causes := by decide +kernel

theorem witness_PartitionsStartStopAndRejoin :
    let s := (beating 2 5 [(Reg.partBeat, 9), (Reg.partState, 1)])
    let due := fun (x : Option (Nat × Bool)) => { beating 2 9 [] with manager := { s.manager with partDue := x } }
    let run := ({ s with manager := { s.manager with partDue := some (6, false) } })
    let hold := { beating 2 9 [(Reg.partState, 5), (Reg.timeState, 2)] with manager := { s.manager with admitBeat := some 10, causes := [1] } }
    let prot := (imaged.setReg Reg.rankCount 1).setDom Reg.rankTable (Blob.ofBytes (leBytes 4 (2 ^ 31)))
    let rep := prot.setDom Reg.replica (Blob.ofBytes ([0, 0, 8, 0] ++ [0, 0, 0, 0]))
    let load := { rep with manager := { rep.manager with replica := [(0, 1)] } }
    s.mayWrite .mgr Reg.partCmd ∧ s.reg Reg.partBeat = 9 ∧ s.part = 1 ∧ s.reg Reg.thermalState ≠ 2 ∧ s.time.anchored = true ∧
      s.namedOk 9 = true ∧ s.package.diagCmd ≠ 4 ∧ s.part ≠ 0 ∧ s.mayWrite .mgr Reg.readmitBeat ∧ 2 ^ 64 - 1 < 2 ^ 64 ∧
      6 ≤ run.nextBeat ∧ run.sharedDrained = true ∧ run.part = 1 ∧ 10 ≤ (due none).nextBeat ∧
      (due (some (10, true))).manager.partDue = some (10, true) ∧ (due none).swap.phase ≤ 1 ∧ hold.manager.causes ≠ [] ∧
      10 ≤ hold.nextBeat ∧ (∀ c ∈ hold.manager.causes, hold.causeCleared c = true) ∧ rep.myRankOpt = some 0 ∧
      (∃ x ∈ rep.replicaRecs, x.1 = 0) ∧ load.replicaState 0 = 1 ∧ load.replicaRecs = [(0, 8)] ∧
      (load.imageOf load.tenantNow 8).isSome = true ∧ load.homeBad (homeAddr 2 0 0) 0 extentBytes = false := by decide +kernel

/-! ### Witnesses: the host window, the I3C target, dictionary writes -/

/-- DX_SEL of an object. -/
def sel (i sub : Nat) : Word64 := BitVec.ofNat 64 (i * 256 + sub)

/-- A session in DATA. -/
def moving (cmd left words : Nat) (data : List Byte) : Session :=
  { Session.idle with state := 2, cmd := cmd, left := left, words := words, data := data, total := data.length, index := 0x2000 }

theorem witness_HostTransfersMoveTheirWords :
    let s := ready []
    let d : List Byte := List.replicate 64 7
    let rd := s.setSession 0 (moving 1 64 8 d)
    let long := s.setSession 0 { moving 1 16384 1536 [] with data := [] }
    let wr := s.setSession 0 (moving 2 16 2 [])
    let u := (s.setSession 0 { Session.idle with sel := 0x200000, len := 0xFFFFFFFF, cmd := 1, index := 0x2000, sub := 0,
                                                 lastMove := s.time.hallTime }).count Reg.dxTransfers 1
    s.manager.mgmtDead = false ∧ (s.session 0).busy = false ∧ selRemote (sel 0x2000 0).toNat = false ∧
      selReserved .op (sel 0x2000 0).toNat = false ∧ (u.readObject .op 0x2000 0 false).1 = 0 ∧
      (0xFFFFFFFF : Word64).toNat = 0xFFFFFFFF ∧ s.accessCode .op 0x1999 0 false ≠ 0 ∧ s.accessCode .op 0x2000 0 true = 0 ∧
      (rowOf 0x2000 0).any (fun row => lengthCode row 4 == 0) = true ∧ 4 ≠ 0 ∧ isBankObj 0x2000 0 = false ∧
      isFwObj 0x2000 0 = false ∧
      (let p := s.setDom Reg.rankTable (Blob.zeros 8)
       p.patchCode .mgr 0x2400 1 4 4 = 0) ∧
      (rd.session 0).state = 2 ∧ (rd.session 0).remote = none ∧ 8 ≤ (rd.session 0).words ∧ 8 * 8 ≤ (rd.session 0).left ∧
      isDiagObj (rd.session 0).index = false ∧ [(1 : Word64)].length ≤ (wr.session 0).words ∧ (wr.session 0).cmd = 2 ∧
      (long.session 0).words < wordCount (long.session 0).left ∧ (long.session 0).words ≤ 1536 ∧
      (long.setSession 0 { moving 1 16384 1536 [] with data := (s.readObject .op 0x2000 0 false).2 }).readChanged .op
        { moving 1 16384 1536 [] with data := (s.readObject .op 0x2000 0 false).2 } = false := by decide +kernel

theorem witness_TransfersEndAndAreForwarded :
    let s := (ready []).setSession 2 (moving 2 16 2 [])
    let w := worker []
    let h : DxHdr := ⟨1, false, true, 0, 0x2000, 5, 0, 0xFFFFFFFF, 0⟩
    let m := (ready []).setSession 1 { moving 1 0 0 [] with remote := some 5, asked := true, state := 1 }
    s.manager.mgmtDead = false ∧ (s.session 2).busy = true ∧ (s.session 2).remote = none ∧ (s.session 2).state = 2 ∧
      w.manager.mgmtDead = false ∧ w.reg Reg.mgrState = 1 ∧ w.reg Reg.managerLoc = 9 ∧ w.host.fabric = [] ∧
      h.offset = 0 ∧ h.cmd = 1 ∧
      (((w.takeMsg (.dxRequest h [])).count Reg.dxTransfers 1).readObject .mgr h.index h.sub h.shadow).1 = 0 ∧
      (((w.takeMsg (.dxRequest h [])).count Reg.dxTransfers 1).readObject .mgr h.index h.sub h.shadow).2.length ≤ 4096 ∧
      (m.session 1).busy = true ∧ (m.session 1).remote = some h.seqNo ∧ (m.session 1).asked = true ∧ (m.session 1).cmd = 1 ∧
      (m.session 1).offset = 0 ∧ (m.session 1).data = [] ∧ { h with len := 4 }.len = [(1 : Byte), 2, 3, 4].length ∧
      { h with abort := 1 }.abort ≠ 0 := by decide +kernel

theorem witness_DictionaryAndI3cAccessesComplete :
    let s := ready []
    let on := { s with host := { s.host with i3c := { s.host.i3c with answering := true, staticAddr := 0x30 } } }
    s.mayWrite .op (objKey 0x2000 0) ∧
      (rowOf 0x2000 0).any (fun row => !row.isBytes && typeBytes row.type == 4 && valueCode row 0x2000 0 1000 == 0 && row.staged) = true ∧
      leNat (leBytes 4 1000) = 1000 ∧ mapGet (roleNum .op) s.commits = none ∧ isGateTable 0x2000 0 = false ∧
      s.mayWrite .op (objKey 0x2010 2) ∧
      (rowOf 0x2010 2).any (fun row => !row.isBytes && typeBytes row.type == 8 && valueCode row 0x2010 2 7 == 0 && !row.staged &&
        (s.numCommand .op 0x2010 2 7).isNone && rangeOk (objKey 0x2010 2) 7) = true ∧
      s.accessCode .op 0x1999 0 true ≠ 0 ∧ s.reg Reg.bootStage ≠ 0 ∧ on.i3cOn = true ∧ on.i3cCode 0x6100 1 false = 0 ∧
      isBootStage 0x6100 1 = false ∧ (on.countI3c.readObject .brd 0x6100 1 false).1 = 0 ∧ on.i3cCode 0x1999 0 false ≠ 0 ∧
      on.i3cCode 0x2003 4 true = 0 ∧
      (on.countI3c.writeObject .brd 0x2003 4 [1]).1 = 0 ∧ on.host.i3c.dynAddr = none ∧ 127 < 128 := by decide +kernel

/-! ### Witnesses: stores, boot, the package -/

theorem witness_PersistenceAndDiagnostics :
    let s := ready []
    let storing := { s with nv := { s.nv with storing := some (0, []) } }
    let up := ready [(Reg.fwUpdateState, 2)]
    let att := ready [(perRole Reg.attestState .op, 1)]
    let cap := { att with security := { att.security with attests := [(0, ⟨[], some [1], []⟩)] } }
    let diag := { ready [(Reg.diagState, 1)] with package := { s.package with diagCmd := 1 } }
    let clip := { s with clip := { s.clip with ended := some [(255, ⟨4, 4⟩)] } }
    s.mayWrite .op Reg.storeCmd ∧ s.reg Reg.storeState ≠ 1 ∧ s.mayWrite .op Reg.restoreDefaults ∧
      storing.nv.storing = some (0, []) ∧ s.mayWrite .op Reg.fwUpdate ∧ s.reg Reg.fwUpdateState ≠ 1 ∧
      s.reg Reg.fwUpdateState ≠ 2 ∧ up.reg Reg.fwUpdateState = 2 ∧ (up.session 0).state ≠ 1 ∧ s.mayWrite .op Reg.attestNonce ∧
      s.security.certBad = false ∧ att.reg Reg.swapState ≤ 1 ∧ (att.attest .op).captured = none ∧
      cap.reg (perRole Reg.attestState .op) = 1 ∧ (cap.attest .op).captured = some [1] ∧ s.mayWrite .op Reg.diagCmd ∧
      diagArgOk 1 (s.reg Reg.diagArg) = true ∧ diagArgOk 2 (s.reg Reg.diagArg) = true ∧ diagArgOk 3 (s.reg Reg.diagArg) = true ∧
      diagArgOk 4 (s.reg Reg.diagArg) = true ∧ s.part = 0 ∧ s.slotNow = 0xFF ∧ s.reg Reg.diagState ≠ 1 ∧
      diag.reg Reg.diagState = 1 ∧ diag.package.diagCmd ≠ 2 ∧ s.mayWrite .mgr Reg.clipFlags ∧ s.mayWrite .mgr Reg.auditAlarm ∧
      clip.clip.ended = some [(255, ⟨4, 4⟩)] ∧ clip.reg Reg.clipEvents < 2 ^ 32 := by decide +kernel

theorem witness_BootRunsItsStages :
    let at' := fun (n : Nat) => (State.reset.setReg Reg.bootStage n)
    let pins := { State.reset with package := { State.reset.package with pwrOk := true, sysRst := true } }
    let q := pins.package.drive .perst true
    let trained := (List.range 60).foldl (fun s p => s.setReg (Reg.portState p) 2) (at' 7)
    10000 ≤ 10000 ∧ 999 < 1000 ∧ 1000 ≤ 1000 ∧ 9999 < 10000 ∧ q.pwrOk = true ∧ q.sysRst = true ∧ q.perst = true ∧
      q.tripped = false ∧ pins.reg Reg.bootStage = 0 ∧ (at' 1).reg Reg.bootStage = 1 ∧ (at' 1).nv.factory.sigOk = true ∧
      (at' 2).reg Reg.bootStage = 2 ∧ (at' 3).reg Reg.bootStage = 3 ∧ (at' 4).reg Reg.bootStage = 4 ∧
      (at' 5).reg Reg.bootStage = 5 ∧ (at' 5).package.failHbm = false ∧ (at' 6).reg Reg.bootStage = 6 ∧
      trained.reg Reg.bootStage = 7 ∧ trained.portsSettled = true ∧ trained.manager.roleLive = 0 ∧
      (let d := ({ at' 8 with manager := { State.reset.manager with roleLive := 2 } }).setReg Reg.routeCommits 1
       d.reg Reg.bootStage = 8 ∧ d.reg Reg.routeCommits ≠ 0 ∧ d.manager.roleLive = 2) := by decide +kernel

theorem witness_ThePackageReportsItsState :
    let s := ready []
    let warm := ready [(Reg.thermalState, 1)]
    s.reg Reg.bootStage ≠ 0 ∧ s.reg Reg.thermalState ≠ 2 ∧ s.reg Reg.thermalState = 0 ∧ (100000 : Int) ≤ 100000 ∧
      (104999 : Int) < 105000 ∧ (97000 : Int) ≤ 97000 ∧ warm.reg Reg.thermalState ≠ 0 ∧
      (ready [(Reg.refSelect, 1)]).reg Reg.refSelect = 1 ∧ 6 ≤ s.reg Reg.bootStage ∧ s.reg Reg.bootStage ≤ 9 ∧
      s.package.vid < min 40 40 ∧ min 0 40 < s.package.vid ∧ min 14 40 = s.package.vid := by decide +kernel

/-! ### Witnesses: the tick, hall time, commits, frames -/

theorem witness_TicksCutsAndSlotsPass :
    let s := beating 2 5 []
    let late := { (s.updCore 3 (fun k => { k with seq := { sequencer [word] with beat := 4 } })) with beat := { s.beat with late := [(2, 4)] } }
    s.time.anchored = true ∧ s.commits = [] ∧ late.beat.late = [(2, 4)] ∧ 4 < late.beatNow ∧
      (∃ e ∈ late.cores, (late.core e.1).seq.running = true ∧ (late.core e.1).seq.beat ≤ 4) ∧ keysRise late.cores = true ∧
      s.beat.maintOpen = false ∧ s.tiers.hbmBad = [] := by decide +kernel

theorem witness_HallTimeFollowsItsExchanges :
    let w := worker []
    let near := { worker [(Reg.timeState, 1)] with time := { (worker []).time with goodRun := 15 } }
    let op := ready []
    w.ownDomain 4 = true ∧ w.takesTime = true ∧ near.ownDomain 4 = true ∧ near.takesTime = true ∧ near.reg Reg.timeState = 1 ∧
      near.time.goodRun = 15 ∧ 9000 + 1000 ≤ 10000 ∧ 59 < 60 ∧ (near.offsetNs 59 (-100000)).natAbs ≤ 100 ∧ (worker [(Reg.timeState, 3)]).reg Reg.timeState = 3 ∧
      100 < ((worker [(Reg.timeState, 3)]).offsetNs 59 (-101000)).natAbs ∧ (worker [(Reg.timeState, 3)]).takesTime = true ∧ w.ownDomain 5 = false ∧
      (worker [(Reg.timeState, 2)]).reg Reg.timeState = 2 ∧ op.mayWrite .op Reg.hallTimeSet ∧ op.manager.roleLive = 0 ∧
      op.time.hallTimeSet = false ∧ op.time.anchored = false := by decide +kernel

theorem witness_CommitsPendAndApply :
    let s := beating 2 5 [(perRole Reg.commitBeat .mgr, 9)]
    let s := { s with beat := { s.beat with counted := true } }
    let pend := { s with commits := [(1, ⟨6, true⟩)], shadows := [(1, ⟨[(Reg.rmTimeout, 2000000)], []⟩)] }
    let still := ready []
    s.mayWrite .mgr Reg.commitCmd ∧ mapGet (roleNum .mgr) s.commits = none ∧ s.noBeat = false ∧
      s.reg (perRole Reg.commitBeat .mgr) = 9 ∧ s.namedOk 9 = true ∧ s.namedOk 0 = false ∧ still.mayWrite .mgr Reg.commitCmd ∧
      still.noBeat = true ∧ mapGet (roleNum .mgr) still.commits = none ∧ commitCode still (still.shadow .mgr) true = 0 ∧
      commitCode still ⟨[(Reg.beatPeriod, 1)], []⟩ true ≠ 0 ∧ pend.mayWrite .mgr Reg.commitCmd ∧
      mapGet (roleNum .mgr) pend.commits = some ⟨6, true⟩ ∧ 6 ≤ pend.nextBeat ∧
      pend.shadow .mgr = ⟨[(Reg.rmTimeout, 2000000)], []⟩ ∧ commitCode pend.judgeBefore (pend.shadow .mgr) (true || pend.manager.roleLive == 0) = 0 ∧
      (let wrong := { pend with shadows := [(1, ⟨[(Reg.beatPeriod, 1)], []⟩)] }
       commitCode wrong.judgeBefore (wrong.shadow .mgr) (true || wrong.manager.roleLive == 0) ≠ 0) ∧
      (let later := { s with commits := [(1, ⟨7, true⟩)] }
       mapGet (roleNum .mgr) later.commits = some ⟨7, true⟩ ∧ later.noBeat = false ∧ later.nextBeat < 7) ∧
      (let dis := { s with shadows := [(1, ⟨[(Reg.rmTimeout, 2000000)], []⟩)] }
       (dis.shadow .mgr).size ≠ 0 ∧ mapGet (roleNum .mgr) dis.commits = none) := by decide +kernel

theorem witness_ManagementFrame : ∀ i ∈ [Instr.alloc .mgr 1 false 0 0 1, .free .mgr 0 1, .move .mgr 0 1 false 0 0,
    .park .mgr 5 2 2 0, .unpark .mgr 5 2, .moveDone 0 0, .imageStore .mgr imageBytes, .imageDelete .mgr 8, .readDisturbRelocate 0 0,
    .forcedRelocation 0 0, .blockRetire 0 0 1, .cxlPortRetrain 0 true, .dramRefresh 0 true, .hello 1 0 0 4, .admitReply 1 4,
    .adopt 1 4, .heartbeatSend, .heartbeatReceive 1, .heartbeatMissing 1, .portFailed 0 1 2, .laneRemapped 0 0 1,
    .tenantError 0 1 0, .failover 0 1, .replicaLoadDone 0 true, .start .mgr, .teardown .mgr, .readmit .mgr 9, .partitionRun,
    .hallTimeSet .op 5, .swapArm .mgr, .swapDisarm .mgr, .bankWrite .op 0 0 [0], .segTemplatesWrite .op 0 [0], .commitCancel .mgr,
    .commitDiscard .mgr, .store .op 0x73746F72, .restoreDefaults .op 0x64666C74, .storeDone true, .fwUpdate .op [],
    .attestNonce .op (List.replicate 32 0), .attestCapture, .attestSigned .op, .hbmMargin .op, .eyeScan .op, .flashCheck .op,
    .sramTest .op, .clipFlagsClear .mgr (List.replicate 32 0), .auditAlarmClear .mgr 0, .reproKeyRecompute, .brefLoss, .brefValid,
    .vidStep 20, .i3cRead 0x6100 1, .i3cStatusRead, .setdasa 0x30 8, .entdaa 8, .i3cTargetReady, .badWindowAccess true 3],
    goesOn (tenanted []) i = true := by decide +kernel

theorem witness_EveryCommandCompletes : (ready []).numbersOk := by decide +kernel

/-! ### Single steps and values that the manual, or a published vector, gives -/

/-- Published check values: CRC-32 and CRC-32C of 123456789, SHA3-256 of the empty string. -/
theorem test_hashes :
    let nine : List Byte := [0x31, 0x32, 0x33, 0x34, 0x35, 0x36, 0x37, 0x38, 0x39]
    crc32 nine = 0xCBF43926 ∧ crc32c nine = 0xE3069283 ∧
      (sha3 []).take 8 = [0xA7, 0xFF, 0xC6, 0xF8, 0xBF, 0x1E, 0xD7, 0x66] := by decide +kernel

/-- Core 0 with FP32 values at scratchpad offset 0. -/
def vector (l : List FP32) : State := core0 (fun k => k.spWrite 0 (f32Bytes l)) []

/-- One element of FP32 at offset 64 after a VE operation on elements at 0 and 4. -/
def veOne (fn : VeFn) (l : List FP32) : List FP32 :=
  ((after (vector l) (.veOperation 0 ⟨fn, 1, .lit 0, .lit 4, .lit 0, .lit 0, 0, .lit 64⟩)).core 0).spF32 64 1

/-- R170: 1 + 2 = 3, 1 - 2 = -1, 2 × 3 = 6, the larger of -1 and 2 is 2; a VE read sees its operands before any result. -/
theorem test_ve_arithmetic :
    veOne .add [0x3F800000, 0x40000000] = [0x40400000] ∧ veOne .sub [0x3F800000, 0x40000000] = [0xBF800000] ∧
      veOne .mul [0x40000000, 0x40400000] = [0x40C00000] ∧ veOne .maximum [0xBF800000, 0x40000000] = [0x40000000] ∧
      veOne .relu [0xBF800000, 0] = [0] := by decide +kernel

/-- R170: SUM of 1, 2, 3 and 4 is 10, and MAX of 1, 4, 2 is 4. -/
theorem test_ve_reductions :
    ((after (vector [0x3F800000, 0x40000000, 0x40400000, 0x40800000])
      (.veOperation 0 ⟨.sum, 4, .lit 0, .lit 0, .lit 0, .lit 0, 0, .lit 64⟩)).core 0).spF32 64 1 = [0x41200000] ∧
    ((after (vector [0x3F800000, 0x40800000, 0x40000000])
      (.veOperation 0 ⟨.maxReduce, 3, .lit 0, .lit 0, .lit 0, .lit 0, 0, .lit 64⟩)).core 0).spF32 64 1 = [0x40800000] := by
  decide +kernel

/-- One column of depth 32 of a BF16 tile, all ones, against 32 ones. -/
def ones : State :=
  let row := (List.replicate 32 (0x3F80 : BF16)).flatMap (fun x => leBytes 2 x.toNat)
  core0 (fun k => { (k.spWrite 0 row) with active := ⟨⟨.bf16, .bf16, 1, 32, 1, .lit 0, .lit 0⟩, row, [], [], [], 0⟩ }) []

/-- R148, R152: the sum of 32 products 1 × 1 is 32, read out in FP32 and in BF16; a second pass without START adds to it. -/
theorem test_ae_pass_and_readout :
    let s := after ones (.aePass 0 ⟨.lit 0, .lit 0, 5, true, 0⟩)
    let t := after s (.aePass 0 ⟨.lit 0, .lit 0, 5, false, 0⟩)
    ((after s (.readout 0 ⟨5, 1, .fp32, none, .scratch (.lit 256)⟩)).core 0).spF32 256 1 = [0x42000000] ∧
      ((after s (.readout 0 ⟨5, 1, .bf16, none, .scratch (.lit 256)⟩)).core 0).spB16 256 1 = [0x4200] ∧
      ((after t (.readout 0 ⟨5, 1, .fp32, none, .scratch (.lit 256)⟩)).core 0).spF32 256 1 = [0x42800000] := by decide +kernel

/-- A cluster cache word of the software area. -/
def shared (v : Nat) : State := (ready [(Reg.ccSoftBytes, 64)]).sharedWrite 1 softBase (leBytes 4 v)

/-- The word after an atomic, and the old value in the scratchpad. -/
def atomic (i : Instr) (v : Nat) : Nat × Nat :=
  let t := after (shared v) i
  (leNat (memRead (t.sharedMem 1) softBase 4), leNat ((t.core 0).spRead 0 4))

/-- R289: ADD wraps at 32 bits; MIN and MAX are signed; SWAP and COMPARE_SWAP. -/
theorem test_atomics :
    atomic (.atomicAdd 0 1 softBase false 2 (.lit 0)) 0xFFFFFFFF = (1, 0xFFFFFFFF) ∧
      atomic (.atomicMin 0 1 softBase false 0xFFFFFFFF (.lit 0)) 5 = (0xFFFFFFFF, 5) ∧
      atomic (.atomicMax 0 1 softBase false 0xFFFFFFFF (.lit 0)) 5 = (5, 5) ∧
      atomic (.atomicSwap 0 1 softBase false 9 (.lit 0)) 5 = (9, 5) ∧
      atomic (.compareSwap 0 1 softBase false 5 9 (.lit 0)) 5 = (9, 5) ∧
      atomic (.compareSwap 0 1 softBase false 4 9 (.lit 0)) 5 = (5, 5) := by decide +kernel

/-- R251: a range across a 4,096 B boundary becomes two requests. -/
theorem test_requests_split :
    ((after (ranks 2 []) (.mvRemoteRead 0 1 4032 128 (.lit 0) false)).core 0).rmOut.map (fun r => (r.jva, r.len)) =
      [(4032, 64), (4096, 64)] := by decide +kernel

/-- R259: a READ of a served page answers READ_DATA with the page's bytes. -/
theorem test_home_serves_a_read :
    let s := { paged with tiers := { paged.tiers with hbm := memWrite [] (600 * extentBytes + 64) [1, 2, 3] } }
    (after s (.rmRead (ask 1))).fabric.inject.map (fun p => match p.body with
      | .rm q => (q.opc, q.tag, q.data.take 4)
      | _ => (0, 0, [])) = [(4, 7, [1, 2, 3, 0])] := by decide +kernel

/-- R227: the device of a physical address lies above its cluster and function fields. -/
theorem test_addresses : physAddr 5 3 1 = 5 * 64 + 3 * 4 + 1 ∧ physDev (physAddr 16383 15 3) = 16383 ∧
    homeAddr 2 0 7 = 2 ^ 31 + 7 ∧ homeAddr 3 1 7 = 3 * 2 ^ 30 + 2 ^ 22 + 7 := by decide +kernel

/-- R318, R323: a Consist of width 7,168 takes 1 + 56 cells; a refusal takes one. -/
theorem test_chain_lengths : chainLen 7168 (pkt 1) = 57 ∧ chainLen 7168 (pkt 4) = 1 := by decide +kernel

/-- R307, R311: ALLOC of one frame gives one home and ends DONE; FREE of a home takes it off. -/
theorem test_alloc_and_free :
    let t := after (tenanted []) (.alloc .mgr 1 false 0 0 1)
    t.tiers.homes.length = 1 ∧ t.tiers.status.map (fun e => (e.2.state, e.2.cause, e.2.done)) = [(2, 0, 1)] ∧
      (after (homed (homeAddr 1 0 512) true) (.free .mgr (homeAddr 1 0 512) 1)).tiers.homes = [] := by decide +kernel

/-- R446: 10 µs resets the device, 0.9 µs does not. R448: the last release starts boot. -/
theorem test_reset_and_boot :
    (after (ready []) (.resetAssert .perst 10000)).reg Reg.bootStage = 0 ∧
      (after (ready []) (.resetAssert .perst 900)).reg Reg.bootStage = 9 ∧
      (let s := after (after (after State.reset (.resetRelease .pwrOk 0)) (.resetRelease .sysRst 0)) (.resetRelease .perst 0)
       s.reg Reg.bootStage = 1) := by decide +kernel

/-- R461: 105 °C holds, 104.9 °C only warns. -/
theorem test_thermal :
    (after (ready []) (.thermalSample 105000 0)).reg Reg.thermalState = 2 ∧
      (after (ready []) (.thermalSample 104999 0)).reg Reg.thermalState = 1 ∧
      (after (ready [(Reg.thermalState, 2)]) (.thermalSample 96999 0)).reg Reg.thermalState = 0 := by decide +kernel

/-- R387 to R389: a TOKEN record carries the next position; CLOSE of an idle batch gives a CLOSED record of kind 8. -/
theorem test_stream_records :
    (let p : BeatPacket := { pkt 7 with hdr := { hdr 7 with batchTag := 4, lane := 0, gen := 0 }, token := 42 }
     (after (landedBy (opened waiting) p) (.sampledTokenArrival p)).streams.out.map (fun o => (o.kind, o.position, o.token)) =
       [(1, 10, 42)]) ∧
    (after (opened (idleLane none)) (.close .op (rec 4 0 0 4 0))).streams.out.map (fun o => o.kind) = [8] := by decide +kernel

/-- R32, R33: a correction above 100 ns in HOLDOVER is a TIME_HOLD with device-fatal cause 1. -/
theorem test_time_hold :
    let t := after (worker [(Reg.timeState, 3)]) (.timeExchange 59 4 0 101000 0 100 100)
    t.reg Reg.timeState = 4 ∧ t.manager.causes = [1] := by decide +kernel

/-- R33: from a bound of 3 ns at 0, holdover lasts 14 ms with the board reference and 1.4 ms without it. -/
theorem test_holdover_lasts :
    let s := fun r => let w := worker [(Reg.timeState, 3), (Reg.refSelect, r)]
      { w with time := { w.time with boundPs := 3000, measuredAt := 0 }, package := { w.package with brefLost := false } }
    (s 1).holdAt = 14000001 ∧ (s 0).holdAt = 1400001 := by decide +kernel

/-- R45: a tick starts the next beat; the tick of beat 6 falls at six periods after the anchor. -/
theorem test_tick :
    let t := after (beating 2 5 []) (.tick [])
    t.reg Reg.beatNumber = 6 ∧ t.time.hallTime = 60000 := by decide +kernel

end Sys2Proof.Tests
end

section
/-! SUPPORT and O7. What FENCE, WAIT, WAIT_OFFSET and HOLD do: each passes or holds issue as its condition says. -/

namespace Sys2Proof.Machine

open Sys2Proof

/-- A SYNC operation holds issue exactly when its condition fails. -/
theorem State.sync_holding (s : State) (c : Nat) (op : SyncOp) (p : Prop) [Decidable p] :
    ((if p then s.syncDone c op else s.syncHold c op).core c).seq.holding = if p then none else some op := by
  split <;> simp

/-- Counting an evaluation that holds leaves issue held or passed as it was. -/
theorem State.hold_holding (s : State) (c cp : Nat) (p : Prop) [Decidable p] :
    ((if p then s.syncDone c (.hold cp) else (s.syncHold c (.hold cp)).count Reg.holdCycles 1).core c).seq.holding =
      if p then none else some (.hold cp) := by
  split <;> simp

/-- HOLD_CYCLES rises by the evaluation that holds, and by none that passes (R195). -/
theorem State.hold_counts (s : State) (c cp : Nat) (p : Prop) [Decidable p] :
    (if p then s.syncDone c (.hold cp) else (s.syncHold c (.hold cp)).count Reg.holdCycles 1).reg Reg.holdCycles =
      if p then s.reg Reg.holdCycles else (s.reg Reg.holdCycles + 1) % 2 ^ 32 := by
  split
  next => exact (s.syncDone_only c (.hold cp)).reg Reg.holdCycles (by decide) (by decide) (by decide)
  next => simp [State.syncHold]

/-- Settles O7: on an enabled core each of the four is its shared passing or holding step; on a disabled one `onCore`
leaves the state. -/
theorem syncOperationsHoldOrPass : Obligations.SyncOperationsHoldOrPass := by
  intro s c
  refine ⟨fun on => ⟨fun mask => ?_, fun line => ?_, fun d => ?_, fun cp => ?_⟩, fun off mask line d cp => ?_⟩
  · exact ⟨_, rfl, by simpa [on] using s.sync_holding c (.fence mask) _⟩
  · exact ⟨_, rfl, by simpa [on] using s.sync_holding c (.wait line) _⟩
  · exact ⟨_, rfl, by simpa [on] using s.sync_holding c (.waitOffset d) _⟩
  · exact ⟨_, rfl, by simpa [on] using s.hold_holding c cp _, by simpa [on] using s.hold_counts c cp _⟩
  · simp [execFence, execWait, execWaitOffset, execHold, off]

end Sys2Proof.Machine
end

section
/-! SUPPORT. What every operation of the machine leaves standing: the queue, the factory record, and whether the number
table rises. The three are one relation, `Steady`, between the states before and after. Each operation has one rule,
`Steady s₀ (s.op x) ↔ Steady s₀ s`, with which `simp` takes the operations off a state one after another. A rule stands
with `↓` where it has to act before `simp` rewrites the fields of the state it is about. -/

namespace Sys2Proof.Machine

open Sys2Proof

/-! ### Tables and the non-volatile record -/

/-- Setting a key above the bound changes nothing about which tables stand above it. -/
theorem keysAbove_mapSet_eq {b k : Nat} (h : b < k) (v : α) (m : List (Nat × α)) :
    keysAbove b (mapSet k v m) = keysAbove b m := by
  induction m generalizing b with
  | nil => simp [mapSet, keysAbove, h]
  | cons e m ih =>
    obtain ⟨j, w⟩ := e
    unfold mapSet
    split
    next hj => simp [keysAbove, h, hj, h.trans hj]
    next hj =>
      split
      next he => simp [keysAbove, he]
      next he => simp [keysAbove, ih (show j < k by omega)]

/-- Setting a key makes no table rise that did not, and keeps every rising one. -/
theorem keysRise_mapSet_eq (k : Nat) (v : α) (m : List (Nat × α)) : keysRise (mapSet k v m) = keysRise m := by
  cases m with
  | nil => rfl
  | cons e m =>
    obtain ⟨j, w⟩ := e
    unfold mapSet
    split
    next hj => simp [keysRise, keysAbove, hj]
    next hj =>
      split
      next he => simp [keysRise, he]
      next he => simp [keysRise, keysAbove_mapSet_eq (show j < k by omega)]

theorem keysRise_foldl_mapSet (l : List (Nat × α)) (m : List (Nat × α)) :
    keysRise (l.foldl (fun m e => mapSet e.1 e.2 m) m) = keysRise m := by
  induction l generalizing m with
  | nil => rfl
  | cons e l ih => exact (ih _).trans (keysRise_mapSet_eq e.1 e.2 m)

@[simp] theorem NonVolatile.setBank_factory (n : NonVolatile) (i : Nat) (b : NvBank) :
    (n.setBank i b).factory = n.factory := by
  unfold NonVolatile.setBank; split <;> rfl

@[simp] theorem NonVolatile.countStore_factory (n : NonVolatile) (i : Nat) : (n.countStore i).factory = n.factory := by
  unfold NonVolatile.countStore; split <;> rfl

@[simp] theorem NonVolatile.failStore_factory (n : NonVolatile) : n.failStore.factory = n.factory := by
  unfold NonVolatile.failStore; split <;> simp

@[simp] theorem NonVolatile.setFw_factory (n : NonVolatile) (i : Nat) (f : FwSlot) :
    (n.setFw i f).factory = n.factory := by
  unfold NonVolatile.setFw; split <;> rfl

/-! ### The relations -/

/-- The queue and the factory record stay, and the number table rises after exactly if it did before. -/
structure Steady (s t : State) : Prop where
  pending : t.pending = s.pending
  factory : t.nv.factory = s.nv.factory
  numbers : keysRise t.regs = keysRise s.regs

@[simp] theorem Steady.refl (s : State) : Steady s s := ⟨rfl, rfl, rfl⟩

theorem Steady.trans {s t u : State} (h : Steady s t) (g : Steady t u) : Steady s u :=
  ⟨g.pending.trans h.pending, g.factory.trans h.factory, g.numbers.trans h.numbers⟩

theorem Steady.symm {s t : State} (h : Steady s t) : Steady t s :=
  ⟨h.pending.symm, h.factory.symm, h.numbers.symm⟩

theorem Steady.iff {s t u : State} (h : Steady t u) : Steady s u ↔ Steady s t :=
  ⟨fun g => g.trans h.symm, fun g => g.trans h⟩

/-- `Steady` with the last part in one direction: a reset or a scrub may leave a table rising that did not rise. -/
structure Keeps (s t : State) : Prop where
  pending : t.pending = s.pending
  factory : t.nv.factory = s.nv.factory
  numbers : s.numbersOk → t.numbersOk

theorem Steady.keeps {s t : State} (h : Steady s t) : Keeps s t :=
  ⟨h.pending, h.factory, fun g => h.numbers.trans g⟩

theorem Keeps.refl (s : State) : Keeps s s := ⟨rfl, rfl, id⟩

theorem Keeps.trans {s t u : State} (h : Keeps s t) (g : Keeps t u) : Keeps s u :=
  ⟨g.pending.trans h.pending, g.factory.trans h.factory, fun n => g.numbers (h.numbers n)⟩

theorem Keeps.after {s t u : State} (h : Keeps s t) (g : Steady t u) : Keeps s u := h.trans g.keeps

/-- What O4 says of a command's outcome. -/
def Completes (s : State) (x : Host.Outcome State Fault Refusal) : Prop := ∃ t, x = .next t ∧ Keeps s t

theorem Completes.next {s t : State} (h : Steady s t) : Completes s (.next t) := ⟨t, rfl, h.keeps⟩

/-! ### Rules for the ways in which a state is built -/

/-- An update of other fields. -/
@[simp] theorem steady_mk (s t : State) (free doms latch prior latchDoms shadows commits time beat cores lines yards
    platforms pools combine exits streams fabric rmem colls tiers clip slots swap manager host security package) :
    Steady s ⟨t.pending, free, t.regs, doms, latch, prior, latchDoms, shadows, commits, time, beat, cores, lines, yards,
      platforms, pools, combine, exits, streams, fabric, rmem, colls, tiers, clip, slots, swap, manager, host, t.nv,
      security, package⟩ ↔ Steady s t :=
  Steady.iff (t := t) ⟨rfl, rfl, rfl⟩

@[simp] theorem steady_nv (s t : State) (n : NonVolatile) (h : n.factory = t.nv.factory) :
    Steady s { t with nv := n } ↔ Steady s t :=
  Steady.iff (t := t) ⟨rfl, h, rfl⟩

@[simp] theorem steady_pair (s t : State) (b : β) : Steady s (b, t).2 ↔ Steady s t := Iff.rfl

@[simp] theorem steady_ite (s a b : State) (c : Prop) [Decidable c] :
    Steady s (if c then a else b) ↔ if c then Steady s a else Steady s b := by
  split <;> rfl

@[simp] theorem steady_ite_snd (s : State) (a b : β × State) (c : Prop) [Decidable c] :
    Steady s (if c then a else b).2 ↔ if c then Steady s a.2 else Steady s b.2 := by
  split <;> rfl

@[simp] theorem steady_foldl {s : State} {f : State → α → State} (h : ∀ t a, Steady s (f t a) ↔ Steady s t)
    (l : List α) (t : State) : Steady s (l.foldl f t) ↔ Steady s t := by
  induction l generalizing t with
  | nil => rfl
  | cons a l ih => exact (ih _).trans (h t a)

@[simp] theorem steady_foldl_snd {s : State} {f : β × State → α → β × State}
    (h : ∀ t a, Steady s (f t a).2 ↔ Steady s t.2) (l : List α) (t : β × State) :
    Steady s (l.foldl f t).2 ↔ Steady s t.2 := by
  induction l generalizing t with
  | nil => rfl
  | cons a l ih => exact (ih _).trans (h t a)

variable {s₀ : State}

/-! ### Shared operations -/

@[simp] theorem State.setReg_steady (s : State) (k v : Nat) : Steady s₀ (s.setReg k v) ↔ Steady s₀ s :=
  Steady.iff (t := s) ⟨rfl, rfl, keysRise_mapSet_eq k v s.regs⟩

@[simp] theorem State.setDom_steady (s : State) (k : Nat) (b : Blob) : Steady s₀ (s.setDom k b) ↔ Steady s₀ s := by
  simp [State.setDom]

@[simp] theorem State.count_steady (s : State) (k n : Nat) : Steady s₀ (s.count k n) ↔ Steady s₀ s := by
  simp [State.count]

@[simp] theorem State.count64_steady (s : State) (k n : Nat) : Steady s₀ (s.count64 k n) ↔ Steady s₀ s := by
  simp [State.count64]

@[simp] theorem State.takeLatch_steady (s : State) : Steady s₀ s.takeLatch ↔ Steady s₀ s := by simp [State.takeLatch]

@[simp] theorem State.leaveTables_steady (s : State) (t : TokenId) : Steady s₀ (s.leaveTables t) ↔ Steady s₀ s := by
  simp [State.leaveTables]

@[simp] theorem State.fresh_steady (s : State) : Steady s₀ s.fresh.2 ↔ Steady s₀ s := by simp [State.fresh]

@[simp] theorem State.draws_steady (s : State) (n : Nat) : Steady s₀ (s.draws n) ↔ Steady s₀ s := by simp [State.draws]

@[simp] theorem State.onCore_steady (s : State) (c : Nat) (t : State) :
    Steady s₀ (s.onCore c t) ↔ if s.coreOn c then Steady s₀ t else Steady s₀ s := by
  unfold State.onCore; split <;> rfl

@[simp] theorem State.setCore_steady (s : State) (c : Nat) (k : Core) : Steady s₀ (s.setCore c k) ↔ Steady s₀ s := by
  simp [State.setCore]

@[simp] theorem State.updCore_steady (s : State) (c : Nat) (f : Core → Core) :
    Steady s₀ (s.updCore c f) ↔ Steady s₀ s := by simp [State.updCore]

@[simp] theorem State.enterHoldover_steady (s : State) : Steady s₀ s.enterHoldover ↔ Steady s₀ s := by
  simp [State.enterHoldover]

@[simp] theorem State.inject_steady (s : State) (p : Packet) : Steady s₀ (s.inject p) ↔ Steady s₀ s := by
  simp [State.inject]

@[simp] theorem State.sendRank_steady (s : State) (rank cluster srcCluster func cls : Nat) (b : Body) :
    Steady s₀ (s.sendRank rank cluster srcCluster func cls b) ↔ Steady s₀ s := by
  dsimp only [State.sendRank]
  split <;> simp

@[simp] theorem State.sendMgmt_steady (s : State) (dev : Nat) (m : MgmtMsg) :
    Steady s₀ (s.sendMgmt dev m) ↔ Steady s₀ s := by simp [State.sendMgmt]

@[simp] theorem State.sendNotice_steady (s : State) (rank : Nat) (m : MgmtMsg) :
    Steady s₀ (s.sendNotice rank m) ↔ Steady s₀ s := by simp [State.sendNotice]

@[simp] theorem State.ibi_steady (s : State) (n : Nat) : Steady s₀ (s.ibi n) ↔ Steady s₀ s := by simp [State.ibi]

@[simp] theorem State.logReport_steady (s : State) (kind mid cause : Nat) :
    Steady s₀ (s.logReport kind mid cause) ↔ Steady s₀ s := by simp [State.logReport]

@[simp] theorem State.report_steady (s : State) (kind mid cause : Nat) :
    Steady s₀ (s.report kind mid cause) ↔ Steady s₀ s := by simp [State.report]

@[simp] theorem State.setSession_steady (s : State) (b : Nat) (x : Session) :
    Steady s₀ (s.setSession b x) ↔ Steady s₀ s := by simp [State.setSession]

@[simp] theorem State.abandon_steady (s : State) (x : Session) : Steady s₀ (s.abandon x) ↔ Steady s₀ s := by
  simp [State.abandon]

@[simp] theorem State.endTransfer_steady (s : State) (b code : Nat) :
    Steady s₀ (s.endTransfer b code) ↔ Steady s₀ s := by simp [State.endTransfer]

@[simp] theorem State.failTransfer_steady (s : State) (b code : Nat) :
    Steady s₀ (s.failTransfer b code) ↔ Steady s₀ s := by simp [State.failTransfer]

@[simp] theorem State.endTenantTransfer_steady (s : State) : Steady s₀ s.endTenantTransfer ↔ Steady s₀ s := by
  simp [State.endTenantTransfer]

@[simp] theorem State.stopSwap_steady (s : State) (cause : Nat) : Steady s₀ (s.stopSwap cause) ↔ Steady s₀ s := by
  simp [State.stopSwap]

@[simp] theorem State.deviceFatal_steady (s : State) (cause : Nat) : Steady s₀ (s.deviceFatal cause) ↔ Steady s₀ s := by
  dsimp only [State.deviceFatal]
  simp [↓steady_mk]

@[simp] theorem State.tenantFault_steady (s : State) (unit cause : Nat) :
    Steady s₀ (s.tenantFault unit cause) ↔ Steady s₀ s := by simp [State.tenantFault]

@[simp] theorem State.setBoot_steady (s : State) (v : Nat) : Steady s₀ (s.setBoot v) ↔ Steady s₀ s := by
  simp [State.setBoot]

/-! ### Operands -/

@[simp] theorem State.sharedWrite_steady (s : State) (k a : Nat) (bs : List Byte) :
    Steady s₀ (s.sharedWrite k a bs) ↔ Steady s₀ s := by simp [State.sharedWrite]

/-! ### The sequencer -/

@[simp] theorem State.refill_steady (s : State) (c : Nat) (e : Engine) : Steady s₀ (s.refill c e) ↔ Steady s₀ s := by
  simp [State.refill]

@[simp] theorem State.startInvocation_steady (s : State) (c b : Nat) :
    Steady s₀ (s.startInvocation c b) ↔ Steady s₀ s := by simp [State.startInvocation]

@[simp] theorem State.endInvocation_steady (s : State) (c endNs : Nat) :
    Steady s₀ (s.endInvocation c endNs) ↔ Steady s₀ s := by simp [State.endInvocation]

@[simp] theorem State.checkEnd_steady (s : State) (c : Nat) : Steady s₀ (s.checkEnd c) ↔ Steady s₀ s := by
  simp [State.checkEnd]

@[simp] theorem State.cutInvocation_steady (s : State) (c : Nat) : Steady s₀ (s.cutInvocation c) ↔ Steady s₀ s := by
  simp [State.cutInvocation]

@[simp] theorem State.repeatDone_steady (s : State) (c : Nat) (e : Engine) :
    Steady s₀ (s.repeatDone c e) ↔ Steady s₀ s := by
  dsimp only [State.repeatDone]
  split <;> simp

@[simp] theorem State.beginRepeat_steady (s : State) (c : Nat) : Steady s₀ (s.beginRepeat c).2 ↔ Steady s₀ s := by
  dsimp only [State.beginRepeat]
  split <;> simp

@[simp] theorem State.settleRepeat_steady (s : State) (c : Nat) (rep : Option Nat) :
    Steady s₀ (s.settleRepeat c rep) ↔ Steady s₀ s := by simp [State.settleRepeat]

@[simp] theorem State.syncDone_steady (s : State) (c : Nat) (op : SyncOp) :
    Steady s₀ (s.syncDone c op) ↔ Steady s₀ s := by simp [State.syncDone]

@[simp] theorem State.syncHold_steady (s : State) (c : Nat) (op : SyncOp) :
    Steady s₀ (s.syncHold c op) ↔ Steady s₀ s := by simp [State.syncHold]

@[simp] theorem State.arrive_steady (s : State) (key n : Nat) : Steady s₀ (s.arrive key n) ↔ Steady s₀ s := by
  simp [State.arrive]

@[simp] theorem State.agentArrives_steady (s : State) (c : Nat) (line : LineRef) (n : Nat) :
    Steady s₀ (s.agentArrives c line n) ↔ Steady s₀ s := by simp [State.agentArrives]

/-! ### Choices -/

@[simp] theorem State.setPool_steady (s : State) (k : Nat) (p : Pool) : Steady s₀ (s.setPool k p) ↔ Steady s₀ s := by
  simp [State.setPool]

@[simp] theorem State.grant_steady (s : State) (k q : Nat) (r : ChainReq) :
    Steady s₀ (s.grant k q r) ↔ Steady s₀ s := by simp [State.grant]

@[simp] theorem State.freeChain_steady (s : State) (c : Chain) : Steady s₀ (s.freeChain c) ↔ Steady s₀ s := by
  simp [State.freeChain]

@[simp] theorem State.freeChains_steady (s : State) (p : BeatPacket) : Steady s₀ (s.freeChains p) ↔ Steady s₀ s := by
  simp [State.freeChains]

@[simp] theorem State.sidingCount_steady (s : State) (packets cells : Nat) :
    Steady s₀ (s.sidingCount packets cells) ↔ Steady s₀ s := by simp [State.sidingCount]

@[simp] theorem State.siding_steady (s : State) (p : BeatPacket) : Steady s₀ (s.siding p) ↔ Steady s₀ s := by
  simp [State.siding]

@[simp] theorem State.settle_steady (s : State) (outcome : Nat) : Steady s₀ (s.settle outcome) ↔ Steady s₀ s := by
  simp [State.settle]

@[simp] theorem State.enterLedger_steady (s : State) (n : Nat) : Steady s₀ (s.enterLedger n) ↔ Steady s₀ s := by
  simp [State.enterLedger]

@[simp] theorem State.sendEnd_steady (s : State) (t : TokenId) (cause : Nat) :
    Steady s₀ (s.sendEnd t cause) ↔ Steady s₀ s := by simp [State.sendEnd]

@[simp] theorem State.leaveStage_steady (s : State) (tok : TokenId) : Steady s₀ (s.leaveStage tok) ↔ Steady s₀ s := by
  simp [State.leaveStage]

@[simp] theorem State.dropHeld_steady (s : State) (t : TokenId) (b : Nat) :
    Steady s₀ (s.dropHeld t b) ↔ Steady s₀ s := by simp [State.dropHeld]

@[simp] theorem State.know_steady (s : State) (p : BeatPacket) : Steady s₀ (s.know p) ↔ Steady s₀ s := by
  simp [State.know]

@[simp] theorem State.settleAll_steady (s : State) (p : BeatPacket) (dropped : Nat) (f : ChoiceEntry → Nat) :
    Steady s₀ (s.settleAll p dropped f) ↔ Steady s₀ s := by simp [State.settleAll]

@[simp] theorem State.settleHeld_steady (s : State) (p : BeatPacket) (dropped : Nat) (f : ChoiceEntry → Nat) :
    Steady s₀ (s.settleHeld p dropped f) ↔ Steady s₀ s := by simp [State.settleHeld]

@[simp] theorem State.dropReturn_steady (s : State) (r : Return) : Steady s₀ (s.dropReturn r) ↔ Steady s₀ s := by
  dsimp only [State.dropReturn]
  split <;> simp

@[simp] theorem State.holdReturn_steady (s : State) (r : Return) : Steady s₀ (s.holdReturn r) ↔ Steady s₀ s := by
  dsimp only [State.holdReturn]
  split <;> simp

@[simp] theorem State.returnArrives_steady (s : State) (r : Return) : Steady s₀ (s.returnArrives r) ↔ Steady s₀ s := by
  dsimp only [State.returnArrives]
  (repeat' split) <;> simp

@[simp] theorem State.refuse_steady (s : State) (p : BeatPacket) (e : ChoiceEntry) (cause : Nat) :
    Steady s₀ (s.refuse p e cause) ↔ Steady s₀ s := by simp [State.refuse]

@[simp] theorem State.refuseCluster_steady (s : State) (k : Nat) (p : BeatPacket) (cause : Nat) :
    Steady s₀ (s.refuseCluster k p cause) ↔ Steady s₀ s := by simp [State.refuseCluster]

@[simp] theorem State.landingFailure_steady (s : State) (k : Nat) (p : BeatPacket) (cause : Nat) :
    Steady s₀ (s.landingFailure k p cause) ↔ Steady s₀ s := by
  dsimp only [State.landingFailure]
  split <;> simp

@[simp] theorem State.countFail_steady (s : State) (cause : Nat) : Steady s₀ (s.countFail cause) ↔ Steady s₀ s := by
  simp [State.countFail]

@[simp] theorem State.stripeStep_steady (s : State) (p : BeatPacket) (cause : Nat) :
    Steady s₀ (s.stripeStep p cause) ↔ Steady s₀ s := by simp [State.stripeStep]

@[simp] theorem State.serveChain_steady (s : State) (k : Nat) : Steady s₀ (s.serveChain k) ↔ Steady s₀ s := by
  dsimp only [State.serveChain]
  split <;> simp

@[simp] theorem State.requestChains_steady (s : State) (p : BeatPacket) :
    Steady s₀ (s.requestChains p) ↔ Steady s₀ s := by simp [State.requestChains]

@[simp] theorem serveUntil_steady (p : BeatPacket) (n k : Nat) (s : State) :
    Steady s₀ (serveUntil p n k s) ↔ Steady s₀ s := by
  induction n generalizing s with
  | zero => rfl
  | succ n ih => simp [serveUntil, ih]

@[simp] theorem State.decideChains_steady (s : State) (p : BeatPacket) :
    Steady s₀ (s.decideChains p) ↔ Steady s₀ s := by simp [State.decideChains]

@[simp] theorem State.takeLanding_steady (s : State) (b : Body) : Steady s₀ (s.takeLanding b) ↔ Steady s₀ s := by
  dsimp only [State.takeLanding]
  split <;> simp

/-! ### Combining -/

@[simp] theorem State.overrun_steady (s : State) (unit cause : Nat) :
    Steady s₀ (s.overrun unit cause) ↔ Steady s₀ s := by simp [State.overrun]

@[simp] theorem State.addPending_steady (s : State) (c : PendingChoice) : Steady s₀ (s.addPending c) ↔ Steady s₀ s := by
  simp [State.addPending]

@[simp] theorem combineEntry_steady (t : TokenId) (b : Nat) (late : Bool) (a : Summing × State) (e : ChoiceEntry) :
    Steady s₀ (combineEntry t b late a e).2 ↔ Steady s₀ a.2 := by
  dsimp only [combineEntry]
  (repeat' split) <;> simp

@[simp] theorem State.combineHeld_steady (s : State) (p : BeatPacket) (late : Bool) (h : Held) :
    Steady s₀ (s.combineHeld p late h) ↔ Steady s₀ s := by simp [State.combineHeld]

@[simp] theorem State.closeToken_steady (s : State) (p : BeatPacket) : Steady s₀ (s.closeToken p) ↔ Steady s₀ s := by
  simp [State.closeToken]

@[simp] theorem State.combineToken_steady (s : State) (p : BeatPacket) (late : Bool) :
    Steady s₀ (s.combineToken p late) ↔ Steady s₀ s := by simp [State.combineToken]

@[simp] theorem State.cancelToken_steady (s : State) (p : BeatPacket) : Steady s₀ (s.cancelToken p) ↔ Steady s₀ s := by
  simp [State.cancelToken]

@[simp] theorem State.poisonToken_steady (s : State) (p : BeatPacket) : Steady s₀ (s.poisonToken p) ↔ Steady s₀ s := by
  simp [State.poisonToken]

@[simp] theorem State.combineManifest_steady (s : State) (p : BeatPacket) (late : Bool) :
    Steady s₀ (s.combineManifest p late) ↔ Steady s₀ s := by simp [State.combineManifest]

@[simp] theorem State.combineWindow_steady (s : State) : Steady s₀ s.combineWindow ↔ Steady s₀ s := by
  simp [State.combineWindow]

@[simp] theorem State.clearFailed_steady (s : State) (p : BeatPacket) : Steady s₀ (s.clearFailed p) ↔ Steady s₀ s := by
  simp [State.clearFailed]

@[simp] theorem State.returnLands_steady (s : State) (p : BeatPacket) (answer : Bool) :
    Steady s₀ (s.returnLands p answer) ↔ Steady s₀ s := by simp [State.returnLands]

@[simp] theorem State.manifestLands_steady (s : State) (p : BeatPacket) :
    Steady s₀ (s.manifestLands p) ↔ Steady s₀ s := by simp [State.manifestLands]

@[simp] theorem State.expirePending_steady (s : State) (ahead : Nat) :
    Steady s₀ (s.expirePending ahead) ↔ Steady s₀ s := by simp [State.expirePending]

@[simp] theorem State.dropNotices_steady (s : State) (gone : CancelNotice → Bool) :
    Steady s₀ (s.dropNotices gone) ↔ Steady s₀ s := by simp [State.dropNotices]

/-! ### Homes -/

@[simp] theorem State.hbmWrite_steady (s : State) (a : Nat) (bs : List Byte) :
    Steady s₀ (s.hbmWrite a bs) ↔ Steady s₀ s := by simp [State.hbmWrite]

@[simp] theorem State.homeWrite_steady (s : State) (a off : Nat) (bs : List Byte) :
    Steady s₀ (s.homeWrite a off bs) ↔ Steady s₀ s := by simp [State.homeWrite]

@[simp] theorem State.zeroExtent_steady (s : State) (a : Nat) : Steady s₀ (s.zeroExtent a) ↔ Steady s₀ s := by
  simp [State.zeroExtent]

@[simp] theorem State.copyExtent_steady (s : State) (src dst : Nat) :
    Steady s₀ (s.copyExtent src dst) ↔ Steady s₀ s := by simp [State.copyExtent]

@[simp] theorem State.addHome_steady (s : State) (h : Home) : Steady s₀ (s.addHome h) ↔ Steady s₀ s := by
  simp [State.addHome]

theorem State.allocOne_steady {s : State} {tenant tier port cluster : Nat} {spread kv : Bool} {r : Nat × State}
    (h : s.allocOne tenant tier port cluster spread kv = some r) : Steady s₀ r.2 ↔ Steady s₀ s := by
  obtain ⟨e, -, rfl⟩ := Option.map_eq_some_iff.mp h
  simp

@[simp] theorem State.allocMany_steady (s : State) (tenant tier port cluster : Nat) (spread : Bool) (n : Nat) :
    Steady s₀ (s.allocMany tenant tier port cluster spread n).2 ↔ Steady s₀ s := by
  induction n generalizing s with
  | zero => rfl
  | succ n ih =>
    unfold State.allocMany
    split
    next => rfl
    next h => exact (ih _).trans (State.allocOne_steady h)

@[simp] theorem State.mapHomes_steady (s : State) (f : Home → Home) : Steady s₀ (s.mapHomes f) ↔ Steady s₀ s := by
  simp [State.mapHomes]

@[simp] theorem State.mapFrames_steady (s : State) (f : List Nat → List Nat) :
    Steady s₀ (s.mapFrames f) ↔ Steady s₀ s := by simp [State.mapFrames]

@[simp] theorem State.dropHome_steady (s : State) (a : Nat) : Steady s₀ (s.dropHome a) ↔ Steady s₀ s := by
  simp [State.dropHome]

@[simp] theorem State.setRunning_steady (s : State) (c : HomeCmd) : Steady s₀ (s.setRunning c) ↔ Steady s₀ s := by
  simp [State.setRunning]

@[simp] theorem State.freeHome_steady (s : State) (a : Nat) : Steady s₀ (s.freeHome a) ↔ Steady s₀ s := by
  simp [State.freeHome]

@[simp] theorem State.setStatus_steady (s : State) (tenant seq state cause done : Nat) :
    Steady s₀ (s.setStatus tenant seq state cause done) ↔ Steady s₀ s := by simp [State.setStatus]

@[simp] theorem State.updStatus_steady (s : State) (tenant seq : Nat) (f : HomeStatus → HomeStatus) :
    Steady s₀ (s.updStatus tenant seq f) ↔ Steady s₀ s := by
  dsimp only [State.updStatus]
  split <;> simp

@[simp] theorem State.setKvUser_steady (s : State) (u : KvUser) : Steady s₀ (s.setKvUser u) ↔ Steady s₀ s := by
  simp [State.setKvUser]

@[simp] theorem State.endCommand_steady (s : State) (c : HomeCmd) (state cause : Nat) :
    Steady s₀ (s.endCommand c state cause) ↔ Steady s₀ s := by
  dsimp only [State.endCommand]
  (repeat' split) <;> simp

theorem State.startMove_steady {s t : State} {seq a tier port : Nat} (h : s.startMove seq a tier port = .runs t) :
    Steady s₀ t ↔ Steady s₀ s := by
  dsimp only [State.startMove] at h
  repeat' split at h
  all_goals cases h
  simp

@[simp] theorem State.pumpMoves_steady (s : State) (c : HomeCmd) (n : Nat) :
    Steady s₀ (s.pumpMoves c n).2 ↔ Steady s₀ s := by
  induction n generalizing s c with
  | zero => rfl
  | succ n ih =>
    unfold State.pumpMoves
    split
    next => simp
    next =>
      split
      next => rfl
      next => simp
      next h => simp [ih, State.startMove_steady h]

@[simp] theorem State.startCommand_steady (s : State) (c : HomeCmd) : Steady s₀ (s.startCommand c).2 ↔ Steady s₀ s := by
  dsimp only [State.startCommand]
  (repeat' split) <;> simp

@[simp] theorem State.pumpQueue_steady (s : State) (n : Nat) : Steady s₀ (s.pumpQueue n) ↔ Steady s₀ s := by
  induction n generalizing s with
  | zero => rfl
  | succ n ih =>
    unfold State.pumpQueue
    split
    next => simp [ih]
    next => split <;> simp [ih]

@[simp] theorem State.pumpHomes_steady (s : State) : Steady s₀ s.pumpHomes ↔ Steady s₀ s := by simp [State.pumpHomes]

@[simp] theorem State.logMove_steady (s : State) (src dst seq : Nat) :
    Steady s₀ (s.logMove src dst seq) ↔ Steady s₀ s := by simp [State.logMove]

@[simp] theorem State.finishMove_steady (s : State) (h : Home) (d cause : Nat) :
    Steady s₀ (s.finishMove h d cause) ↔ Steady s₀ s := by
  dsimp only [State.finishMove]
  (repeat' split) <;> simp

@[simp] theorem State.unreadable_steady (s : State) (a : Nat) : Steady s₀ (s.unreadable a) ↔ Steady s₀ s := by
  simp [State.unreadable]

@[simp] theorem State.moveFailed_steady (s : State) (src dst cause : Nat) :
    Steady s₀ (s.moveFailed src dst cause) ↔ Steady s₀ s := by simp [State.moveFailed]

@[simp] theorem State.writeHomeCmd_steady (s : State) (r : Role) (bs : List Byte) :
    Steady s₀ (s.writeHomeCmd r bs).2 ↔ Steady s₀ s := by simp [State.writeHomeCmd]

@[simp] theorem State.abandonHomes_steady (s : State) (tenant : Nat) :
    Steady s₀ (s.abandonHomes tenant) ↔ Steady s₀ s := by
  refine (steady_foldl (fun t c => by simp) _ _).trans (steady_foldl (fun t h => ?_) _ _)
  dsimp only
  split <;> simp

theorem State.takeKvFrame_steady {s t : State} {u : KvUser} (h : s.takeKvFrame u = some t) :
    Steady s₀ t ↔ Steady s₀ s := by
  unfold State.takeKvFrame at h
  split at h
  next => cases h
  next =>
    obtain ⟨r, hr, rfl⟩ := Option.map_eq_some_iff.mp h
    simp [State.allocOne_steady hr]

@[simp] theorem State.endRequest_steady (s : State) (t : TokenId) (cause : Nat) :
    Steady s₀ (s.endRequest t cause) ↔ Steady s₀ s := by simp [State.endRequest]

@[simp] theorem State.reachAttention_steady (s : State) (t : TokenId) :
    Steady s₀ (s.reachAttention t) ↔ Steady s₀ s := by
  dsimp only [State.reachAttention]
  split
  next => simp
  next =>
    split
    next => rfl
    next =>
      split
      next => simp
      next h =>
        split
        next => simp [State.takeKvFrame_steady h]
        next g => exact (State.takeKvFrame_steady g).trans (State.takeKvFrame_steady h)

@[simp] theorem State.writeImage_steady (s : State) (r : Role) (bs : List Byte) :
    Steady s₀ (s.writeImage r bs).2 ↔ Steady s₀ s := by simp [State.writeImage]

@[simp] theorem State.dropImage_steady (s : State) (i : Image) : Steady s₀ (s.dropImage i) ↔ Steady s₀ s := by
  simp [State.dropImage]

@[simp] theorem State.writeImageDelete_steady (s : State) (r : Role) (id : Nat) :
    Steady s₀ (s.writeImageDelete r id).2 ↔ Steady s₀ s := by
  dsimp only [State.writeImageDelete]
  (repeat' split) <;> simp

@[simp] theorem State.setImageSlot_steady (s : State) (p : Nat) (i : ImageSlot) :
    Steady s₀ (s.setImageSlot p i) ↔ Steady s₀ s := by simp [State.setImageSlot]

@[simp] theorem State.writeImageLoad_steady (s : State) (p : Nat) : Steady s₀ (s.writeImageLoad p).2 ↔ Steady s₀ s := by
  simp [State.writeImageLoad]

@[simp] theorem State.rmError_steady (s : State) (core cause op rank jva : Nat) (errCtr : Option Nat) :
    Steady s₀ (s.rmError core cause op rank jva errCtr) ↔ Steady s₀ s := by
  dsimp only [State.rmError]
  split <;> simp [↓steady_mk]

/-! ### Yards -/

@[simp] theorem State.yardShare_steady (s : State) (tok : TokenId) (lslot cluster beat first : Nat) (bs : List Byte) :
    Steady s₀ (s.yardShare tok lslot cluster beat first bs) ↔ Steady s₀ s := by simp [State.yardShare]

@[simp] theorem State.creditCheck_steady (s : State) (lslot : Nat) (i e : Nat) (w : FP32) :
    Steady s₀ (s.creditCheck lslot i e w).2 ↔ Steady s₀ s := by simp [State.creditCheck]

@[simp] theorem State.creditChecks_steady (s : State) (lslot i : Nat) (l : List (Nat × FP32)) :
    Steady s₀ (s.creditChecks lslot i l).2 ↔ Steady s₀ s := by
  induction l generalizing s i with
  | nil => rfl
  | cons e l ih => simp [State.creditChecks, ih]

@[simp] theorem State.dispatch_steady (s : State) (tok : TokenId) (beat lslot cluster nextRank nextCluster : Nat)
    (flags : BitVec 16) (hidden residual : List BF16) (list : List (Nat × FP32)) :
    Steady s₀ (s.dispatch tok beat lslot cluster nextRank nextCluster flags hidden residual list) ↔ Steady s₀ s := by
  simp [State.dispatch]

@[simp] theorem State.yardBusy_steady (s : State) (n : Nat) : Steady s₀ (s.yardBusy n) ↔ Steady s₀ s := by
  simp [State.yardBusy]

@[simp] theorem State.countStage2_steady (s : State) (clamped : Nat) (d : Stage2) :
    Steady s₀ (s.countStage2 clamped d) ↔ Steady s₀ s := by simp [State.countStage2]

@[simp] theorem State.dropScoring_steady (s : State) (b : Nat) : Steady s₀ (s.dropScoring b) ↔ Steady s₀ s := by
  simp [State.dropScoring]

theorem State.freshFrame_steady {s : State} {u : KvUser} {r : Nat × Nat × KvUser × State}
    (h : s.freshFrame u = some r) : Steady s₀ r.2.2.2 ↔ Steady s₀ s := by
  obtain ⟨t, ht, rfl⟩ := Option.map_eq_some_iff.mp h
  exact State.takeKvFrame_steady ht

theorem State.kvPlace_steady {s : State} {u : KvUser} {p : Option (Nat × Nat)} {r : Nat × Nat × KvUser × State}
    (h : s.kvPlace u p = some r) : Steady s₀ r.2.2.2 ↔ Steady s₀ s := by
  unfold State.kvPlace at h
  split at h
  next =>
    split at h
    next => cases h; rfl
    next => exact State.freshFrame_steady h
  next => exact State.freshFrame_steady h

theorem State.kvBlockFor_steady {s : State} {u : KvUser} {lslot n : Nat} {r : KvSpan × KvUser × State}
    (h : s.kvBlockFor u lslot n = some r) : Steady s₀ r.2.2 ↔ Steady s₀ s := by
  dsimp only [State.kvBlockFor] at h
  split at h
  next =>
    split at h
    next => cases h; rfl
    next =>
      obtain ⟨x, hx, rfl⟩ := Option.map_eq_some_iff.mp h
      exact State.kvPlace_steady hx
  next =>
    obtain ⟨x, hx, rfl⟩ := Option.map_eq_some_iff.mp h
    exact State.kvPlace_steady hx

theorem State.kvSumFor_steady {s : State} {u : KvUser} {b : KvSpan} {n : Nat} {r : KvSpan × KvUser × State}
    (h : s.kvSumFor u b n = some r) : Steady s₀ r.2.2 ↔ Steady s₀ s := by
  unfold State.kvSumFor at h
  split at h
  next => cases h; rfl
  next =>
    obtain ⟨x, hx, rfl⟩ := Option.map_eq_some_iff.mp h
    exact State.kvPlace_steady hx

theorem State.storeKv_steady {s t : State} {u : KvUser} {lslot : Nat} {entry summary : List Byte}
    (h : s.storeKv u lslot entry summary = some t) : Steady s₀ t ↔ Steady s₀ s := by
  dsimp only [State.storeKv] at h
  split at h
  next => cases h
  next hb =>
    split at h
    next => cases h
    next hx =>
      cases h
      simp [State.kvSumFor_steady hx, State.kvBlockFor_steady hb]

@[simp] theorem State.selectKv_steady (s : State) (core ctr lslot : Nat) (tok : TokenId) (scores : List FP32) :
    Steady s₀ (s.selectKv core ctr lslot tok scores) ↔ Steady s₀ s := by simp [State.selectKv]

/-! ### Exits -/

@[simp] theorem State.setExit_steady (s : State) (x : ExitToken) : Steady s₀ (s.setExit x) ↔ Steady s₀ s := by
  simp [State.setExit]

@[simp] theorem State.startExit_steady (s : State) (r : Residual) (shares : List Nat) :
    Steady s₀ (s.startExit r shares) ↔ Steady s₀ s := by simp [State.startExit]

@[simp] theorem State.mergeExit_steady (s : State) (x : ExitToken) (partialSet : Bool) (entryCluster : Nat) :
    Steady s₀ (s.mergeExit x partialSet entryCluster) ↔ Steady s₀ s := by simp [State.mergeExit]

/-! ### Ports and the Junction -/

@[simp] theorem State.setPort_steady (s : State) (x : Nat) (p : Port) : Steady s₀ (s.setPort x p) ↔ Steady s₀ s := by
  simp [State.setPort]

@[simp] theorem State.formCombined_steady (s : State) (x : Nat) (e : Nat × Packet) (c : CombineRec) :
    Steady s₀ (s.formCombined x e c) ↔ Steady s₀ s := by simp [State.formCombined]

theorem State.tryCombine_steady {s t : State} {x : Nat} {p : Packet} (h : s.tryCombine x p = some t) :
    Steady s₀ t ↔ Steady s₀ s := by
  unfold State.tryCombine at h
  repeat' split at h
  all_goals cases h
  all_goals simp

@[simp] theorem State.enqueue_steady (s : State) (x : Nat) (p : Packet) : Steady s₀ (s.enqueue x p) ↔ Steady s₀ s := by
  unfold State.enqueue
  split
  next h => exact State.tryCombine_steady h
  next => simp

@[simp] theorem State.discardPacket_steady (s : State) (p : Packet) (cause : Nat) :
    Steady s₀ (s.discardPacket p cause) ↔ Steady s₀ s := by simp [State.discardPacket]

@[simp] theorem State.unqueue_steady (s : State) (x : Nat) (e : Nat × Packet) :
    Steady s₀ (s.unqueue x e) ↔ Steady s₀ s := by simp [State.unqueue]

@[simp] theorem State.unqueueAll_steady (s : State) (named : Packet → Bool) (x : Nat) :
    Steady s₀ (s.unqueueAll named x) ↔ Steady s₀ s := by simp [State.unqueueAll]

@[simp] theorem State.dropPackets_steady (s : State) (named : Packet → Bool) :
    Steady s₀ (s.dropPackets named) ↔ Steady s₀ s := by simp [State.dropPackets]

@[simp] theorem State.answerTime_steady (s : State) (domain sender sentAt corr : Nat) :
    Steady s₀ (s.answerTime domain sender sentAt corr) ↔ Steady s₀ s := by simp [State.answerTime]

@[simp] theorem State.deliverPacket_steady (s : State) (p : Packet) : Steady s₀ (s.deliverPacket p) ↔ Steady s₀ s := by
  dsimp only [State.deliverPacket]
  (repeat' split) <;> simp

@[simp] theorem State.transitFlits_steady (s : State) (n : Nat) : Steady s₀ (s.transitFlits n) ↔ Steady s₀ s := by
  simp [State.transitFlits]

@[simp] theorem State.holdPacket_steady (s : State) (transit : Bool) (p : Packet) :
    Steady s₀ (s.holdPacket transit p) ↔ Steady s₀ s := by simp [State.holdPacket]

@[simp] theorem State.routeUnicast_steady (s : State) (transit : Bool) (p : Packet) :
    Steady s₀ (s.routeUnicast transit p) ↔ Steady s₀ s := by
  dsimp only [State.routeUnicast]
  split <;> simp

@[simp] theorem State.routeMulticast_steady (s : State) (transit : Bool) (p : Packet) :
    Steady s₀ (s.routeMulticast transit p) ↔ Steady s₀ s := by simp [State.routeMulticast]

@[simp] theorem State.routePacket_steady (s : State) (transit : Bool) (p : Packet) :
    Steady s₀ (s.routePacket transit p) ↔ Steady s₀ s := by simp [State.routePacket]

@[simp] theorem State.takeInjected_steady (s : State) (p : Packet) : Steady s₀ (s.takeInjected p) ↔ Steady s₀ s := by
  dsimp only [State.takeInjected]
  split <;> simp

@[simp] theorem State.freeSlots_steady (s : State) (x : Nat) : Steady s₀ (s.freeSlots x) ↔ Steady s₀ s := by
  simp [State.freeSlots]

@[simp] theorem State.freeAllSlots_steady (s : State) : Steady s₀ s.freeAllSlots ↔ Steady s₀ s := by
  simp [State.freeAllSlots]

@[simp] theorem State.routeArrival_steady (s : State) (x : Nat) (p : Packet) :
    Steady s₀ (s.routeArrival x p) ↔ Steady s₀ s := by simp [State.routeArrival]

@[simp] theorem State.multicast_steady (s : State) (cls group func mask cluster : Nat) (ranks : List Nat) (b : Body) :
    Steady s₀ (s.multicast cls group func mask cluster ranks b) ↔ Steady s₀ s := by simp [State.multicast]

@[simp] theorem State.broadcast_steady (s : State) (m : MgmtMsg) : Steady s₀ (s.broadcast m) ↔ Steady s₀ s := by
  simp [State.broadcast]

@[simp] theorem State.truncateOnward_steady (s : State) (p : Packet) :
    Steady s₀ (s.truncateOnward p) ↔ Steady s₀ s := by simp [State.truncateOnward]

@[simp] theorem State.cutArrivals_steady (s : State) (x : Nat) : Steady s₀ (s.cutArrivals x) ↔ Steady s₀ s := by
  simp [State.cutArrivals]

@[simp] theorem State.closePort_steady (s : State) (x : Nat) : Steady s₀ (s.closePort x) ↔ Steady s₀ s := by
  simp [State.closePort]

@[simp] theorem State.failPort_steady (s : State) (x : Nat) : Steady s₀ (s.failPort x) ↔ Steady s₀ s := by
  simp [State.failPort]

@[simp] theorem State.resend_steady (s : State) (x : Nat) (fs : List SentFlit) :
    Steady s₀ (s.resend x fs) ↔ Steady s₀ s := by simp [State.resend]

@[simp] theorem State.serveRetry_steady (s : State) (x seqNo : Nat) :
    Steady s₀ (s.serveRetry x seqNo) ↔ Steady s₀ s := by simp [State.serveRetry]

@[simp] theorem State.acceptFlit_steady (s : State) (x : Nat) (h : FlitHdr) (payload : List Byte) :
    Steady s₀ (s.acceptFlit x h payload) ↔ Steady s₀ s := by simp [State.acceptFlit]

@[simp] theorem State.putFlit_steady (s : State) (x : Nat) (f : SentFlit) :
    Steady s₀ (s.putFlit x f) ↔ Steady s₀ s := by simp [State.putFlit]

@[simp] theorem State.countOwn_steady (s : State) (x : Nat) (e : Packet) :
    Steady s₀ (s.countOwn x e) ↔ Steady s₀ s := by simp [State.countOwn]

@[simp] theorem State.sendData_steady (s : State) (x : Nat) (e : Nat × Packet) :
    Steady s₀ (s.sendData x e) ↔ Steady s₀ s := by simp [State.sendData]

@[simp] theorem State.sendOne_steady (s : State) (x : Nat) : Steady s₀ (s.sendOne x) ↔ Steady s₀ s := by
  dsimp only [State.sendOne]
  (repeat' split) <;> simp

@[simp] theorem sendSome_steady (x n : Nat) (s : State) : Steady s₀ (sendSome x n s) ↔ Steady s₀ s := by
  induction n generalizing s with
  | zero => rfl
  | succ n ih => simp [sendSome, ih]

@[simp] theorem State.sendSpan_steady (s : State) (n x : Nat) : Steady s₀ (s.sendSpan n x) ↔ Steady s₀ s := by
  simp [State.sendSpan]

@[simp] theorem State.advanceTo_steady (s : State) (t : Nat) : Steady s₀ (s.advanceTo t) ↔ Steady s₀ s := by
  simp [State.advanceTo]

@[simp] theorem State.writeDrainCmd_steady (s : State) (v : Nat) : Steady s₀ (s.writeDrainCmd v).2 ↔ Steady s₀ s := by
  dsimp only [State.writeDrainCmd]
  simp [↓steady_ite_snd, ↓steady_pair, ↓steady_foldl, ↓steady_mk]

@[simp] theorem State.auditPort_steady (s : State) (x : Nat) : Steady s₀ (s.auditPort x) ↔ Steady s₀ s := by
  simp [State.auditPort]

@[simp] theorem State.finishTeardown_steady (s : State) : Steady s₀ s.finishTeardown ↔ Steady s₀ s := by
  dsimp only [State.finishTeardown]
  simp [↓State.writeDrainCmd_steady, ↓steady_mk]

@[simp] theorem State.drainPort_steady (s : State) (x : Nat) : Steady s₀ (s.drainPort x) ↔ Steady s₀ s := by
  simp [State.drainPort]

@[simp] theorem State.dropOwnPackets_steady (s : State) (cls b : Nat) :
    Steady s₀ (s.dropOwnPackets cls b) ↔ Steady s₀ s := by simp [State.dropOwnPackets]

/-! ### Platforms -/

@[simp] theorem State.setQueueOf_steady (s : State) (p : Nat) (q : List QueuedChoice) :
    Steady s₀ (s.setQueueOf p q) ↔ Steady s₀ s := by simp [State.setQueueOf]

@[simp] theorem State.releaseConsist_steady (s : State) (k : Nat) (p : BeatPacket) :
    Steady s₀ (s.releaseConsist k p) ↔ Steady s₀ s := by simp [State.releaseConsist]

@[simp] theorem State.choiceCounters_steady (s : State) (q : QueuedChoice) :
    Steady s₀ (s.choiceCounters q) ↔ Steady s₀ s := by simp [State.choiceCounters]

@[simp] theorem State.acceptChoice_steady (s : State) (p : BeatPacket) (e : ChoiceEntry) (bad : Bool) :
    Steady s₀ (s.acceptChoice p e bad) ↔ Steady s₀ s := by simp [State.acceptChoice]

@[simp] theorem State.decideChoice_steady (s : State) (p : BeatPacket) (chain : Nat) (bad : Bool) (e : ChoiceEntry) :
    Steady s₀ (s.decideChoice p chain bad e) ↔ Steady s₀ s := by simp [State.decideChoice]

@[simp] theorem State.consistLands_steady (s : State) (k : Nat) (p : BeatPacket) :
    Steady s₀ (s.consistLands k p) ↔ Steady s₀ s := by simp [State.consistLands]

@[simp] theorem State.sidingIn_steady (s : State) (k : Nat) (first : Bool) (p : BeatPacket) :
    Steady s₀ (s.sidingIn k first p) ↔ Steady s₀ s := by simp [State.sidingIn]

@[simp] theorem State.countSkipped_steady (s : State) (core beat : Nat) :
    Steady s₀ (s.countSkipped core beat) ↔ Steady s₀ s := by simp [State.countSkipped]

@[simp] theorem State.sealSegment_steady (s : State) (core beat : Nat) :
    Steady s₀ (s.sealSegment core beat) ↔ Steady s₀ s := by simp [State.sealSegment]

@[simp] theorem State.closeSlot_steady (s : State) (p : Nat) : Steady s₀ (s.closeSlot p) ↔ Steady s₀ s := by
  dsimp only [State.closeSlot]
  (repeat' split) <;> simp

@[simp] theorem State.sendAnswer_steady (s : State) (q : QueuedChoice) (overrun : Bool) (vec : List BF16) :
    Steady s₀ (s.sendAnswer q overrun vec) ↔ Steady s₀ s := by simp [State.sendAnswer]

@[simp] theorem State.updChoice_steady (s : State) (p : Nat) (q r : QueuedChoice) :
    Steady s₀ (s.updChoice p q r) ↔ Steady s₀ s := by simp [State.updChoice]

@[simp] theorem State.releaseChoice_steady (s : State) (p : Nat) (q : QueuedChoice) :
    Steady s₀ (s.releaseChoice p q) ↔ Steady s₀ s := by simp [State.releaseChoice]

@[simp] theorem State.dropChoice_steady (s : State) (p : Nat) (q : QueuedChoice) :
    Steady s₀ (s.dropChoice p q) ↔ Steady s₀ s := by simp [State.dropChoice]

theorem State.readChoice_steady {s : State} {pslot : Nat} {tok : TokenId} {choice : Nat} {last : Bool}
    {r : List BF16 × State}
    (h : s.readChoice pslot tok choice last = some r) : Steady s₀ r.2 ↔ Steady s₀ s := by
  unfold State.readChoice at h
  split at h
  next => cases h
  next =>
    split at h
    next => cases h
    next => cases h; simp

@[simp] theorem State.auditRow_steady (s : State) (core : Nat) : Steady s₀ (s.auditRow core) ↔ Steady s₀ s := by
  dsimp only [State.auditRow]
  split <;> simp [↓steady_ite, ↓steady_mk]

@[simp] theorem State.closeAudit_steady (s : State) : Steady s₀ s.closeAudit ↔ Steady s₀ s := by
  dsimp only [State.closeAudit]
  split <;> simp

@[simp] theorem State.judgeClip_steady (s : State) (e : Nat × ClipCount) : Steady s₀ (s.judgeClip e) ↔ Steady s₀ s := by
  simp [State.judgeClip]

@[simp] theorem State.closeClip_steady (s : State) : Steady s₀ s.closeClip ↔ Steady s₀ s := by
  dsimp only [State.closeClip]
  split <;> simp

@[simp] theorem State.windowBeats_steady (s : State) : Steady s₀ s.windowBeats ↔ Steady s₀ s := by
  simp [State.windowBeats]

@[simp] theorem State.judgeBefore_steady (s : State) : Steady s₀ s.judgeBefore ↔ Steady s₀ s := by
  simp [State.judgeBefore]

/-! ### Remote memory and the mover -/

@[simp] theorem State.mvBusy_steady (s : State) (n : Nat) : Steady s₀ (s.mvBusy n) ↔ Steady s₀ s := by
  simp [State.mvBusy]

@[simp] theorem State.readBytes_steady (s : State) (n : Nat) : Steady s₀ (s.readBytes n) ↔ Steady s₀ s := by
  simp [State.readBytes]

@[simp] theorem State.writeBytes_steady (s : State) (n : Nat) : Steady s₀ (s.writeBytes n) ↔ Steady s₀ s := by
  simp [State.writeBytes]

@[simp] theorem State.dropCopies_steady (s : State) (rank jva len : Nat) :
    Steady s₀ (s.dropCopies rank jva len) ↔ Steady s₀ s := by simp [State.dropCopies]

@[simp] theorem State.dropTracked_steady (s : State) (rank jva len : Nat) :
    Steady s₀ (s.dropTracked rank jva len) ↔ Steady s₀ s := by simp [State.dropTracked]

@[simp] theorem State.hitCopies_steady (s : State) (core : Nat) (r : RmReq) :
    Steady s₀ (s.hitCopies core r) ↔ Steady s₀ s := by
  unfold State.hitCopies
  split
  next => rfl
  next => exact steady_foldl (fun t a => by split <;> simp) _ _

@[simp] theorem State.outstanding_steady (s : State) (core : Nat) (r : RmReq) :
    Steady s₀ (s.outstanding core r).2 ↔ Steady s₀ s := by simp [State.outstanding]

@[simp] theorem State.issueRm_steady (s : State) (core : Nat) (r : RmReq) :
    Steady s₀ (s.issueRm core r) ↔ Steady s₀ s := by
  dsimp only [State.issueRm]
  (repeat' split) <;> simp

@[simp] theorem State.pumpRm_steady (s : State) (core n : Nat) : Steady s₀ (s.pumpRm core n) ↔ Steady s₀ s := by
  induction n generalizing s with
  | zero => rfl
  | succ n ih =>
    dsimp only [State.pumpRm]
    split <;> simp [ih]

@[simp] theorem State.pumpRmAll_steady (s : State) (core : Nat) : Steady s₀ (s.pumpRmAll core) ↔ Steady s₀ s := by
  simp [State.pumpRmAll]

@[simp] theorem State.rmSlot_steady (s : State) (core opc dtype rank jva len sp : Nat) (cache : Bool) :
    Steady s₀ (s.rmSlot core opc dtype rank jva len sp cache) ↔ Steady s₀ s := by simp [State.rmSlot]

@[simp] theorem State.endRm_steady (s : State) (core : Nat) (r : RmReq) : Steady s₀ (s.endRm core r) ↔ Steady s₀ s := by
  simp [State.endRm]

@[simp] theorem State.failRm_steady (s : State) (core : Nat) (r : RmReq) (cause : Nat) :
    Steady s₀ (s.failRm core r cause) ↔ Steady s₀ s := by simp [State.failRm]

@[simp] theorem State.failSlotColl_steady (s : State) (core : Nat) (r : RmReq) (cause : Nat) :
    Steady s₀ (s.failSlotColl core r cause) ↔ Steady s₀ s := by simp [State.failSlotColl]

@[simp] theorem State.respond_steady (s : State) (q : RmPacket) (opc cause : Nat) (data : List Byte) :
    Steady s₀ (s.respond q opc cause data) ↔ Steady s₀ s := by simp [State.respond]

@[simp] theorem State.clearDir_steady (s : State) (lines : List Nat) : Steady s₀ (s.clearDir lines) ↔ Steady s₀ s := by
  simp [State.clearDir]

@[simp] theorem State.invalidateHere_steady (s : State) (rank jva : Nat) :
    Steady s₀ (s.invalidateHere rank jva) ↔ Steady s₀ s := by simp [State.invalidateHere]

@[simp] theorem State.invalidateAt_steady (s : State) (pos jva : Nat) :
    Steady s₀ (s.invalidateAt pos jva).2 ↔ Steady s₀ s := by
  dsimp only [State.invalidateAt]
  (repeat' split) <;> simp

@[simp] theorem State.askSharers_steady (s : State) (p : RmPacket) : Steady s₀ (s.askSharers p).2 ↔ Steady s₀ s := by
  simp [State.askSharers]

@[simp] theorem State.hbmAdd_steady (s : State) (d a : Nat) (bs : List Byte) :
    Steady s₀ (s.hbmAdd d a bs) ↔ Steady s₀ s := by simp [State.hbmAdd]

@[simp] theorem State.recallCopy_steady (s : State) (p : RmPacket) (pos : Nat) :
    Steady s₀ (s.recallCopy p pos) ↔ Steady s₀ s := by simp [State.recallCopy]

@[simp] theorem State.endMine_steady (s : State) (core tag cause : Nat) :
    Steady s₀ (s.endMine core tag cause) ↔ Steady s₀ s := by
  dsimp only [State.endMine]
  split <;> simp

@[simp] theorem State.serveRm_steady (s : State) (h : HeldWrite) : Steady s₀ (s.serveRm h) ↔ Steady s₀ s := by
  dsimp only [State.serveRm]
  (repeat' split) <;> simp [↓State.recallCopy_steady, ↓State.respond_steady, ↓steady_mk]

@[simp] theorem State.pumpHome_steady (s : State) : Steady s₀ s.pumpHome ↔ Steady s₀ s := by simp [State.pumpHome]

@[simp] theorem State.joinHome_steady (s : State) (h : HeldWrite) : Steady s₀ (s.joinHome h) ↔ Steady s₀ s := by
  simp [State.joinHome]

@[simp] theorem State.homeRequest_steady (s : State) (p : RmPacket) : Steady s₀ (s.homeRequest p) ↔ Steady s₀ s := by
  simp [State.homeRequest]

@[simp] theorem State.copyOut_steady (s : State) (p : RmPacket) : Steady s₀ (s.copyOut p) ↔ Steady s₀ s := by
  dsimp only [State.copyOut]
  split <;> simp

@[simp] theorem State.response_steady (s : State) (p : RmPacket) (ok : RmReq → Bool) (f : State → Nat → RmReq → State)
    (hf : ∀ t core r, Steady s₀ (f t core r) ↔ Steady s₀ t) : Steady s₀ (s.response p ok f) ↔ Steady s₀ s := by
  dsimp only [State.response]
  split
  next => simp
  next => split <;> simp [hf]

@[simp] theorem State.keepLines_steady (s : State) (core : Nat) (r : RmReq) (data : List Byte) :
    Steady s₀ (s.keepLines core r data) ↔ Steady s₀ s := by simp [State.keepLines]

@[simp] theorem State.writeRecall_steady (s : State) (jpn : Nat) : Steady s₀ (s.writeRecall jpn).2 ↔ Steady s₀ s := by
  dsimp only [State.writeRecall]
  (repeat' split) <;> simp [↓steady_pair, ↓State.clearDir_steady, ↓steady_foldl_snd, ↓steady_mk]

@[simp] theorem State.mvPoison_steady (s : State) (core : Nat) (p : MvPlace) (bad : List Nat) :
    Steady s₀ (s.mvPoison core p bad) ↔ Steady s₀ s := by
  dsimp only [State.mvPoison]
  (repeat' split) <;> simp

@[simp] theorem State.ownWrite_steady (s : State) (core opc dtype a : Nat) (rep : Option Nat) (bs : List Byte) :
    Steady s₀ (s.ownWrite core opc dtype a rep bs) ↔ Steady s₀ s := by
  dsimp only [State.ownWrite]
  split <;> simp

@[simp] theorem State.farRequest_steady (s : State) (core opc dtype a off n : Nat) (place : Option MvPlace)
    (rep : Option Nat) :
    Steady s₀ (s.farRequest core opc dtype a off n place rep) ↔ Steady s₀ s := by simp [State.farRequest]

@[simp] theorem State.countReads_steady (s : State) (a off n : Nat) :
    Steady s₀ (s.countReads a off n) ↔ Steady s₀ s := by simp [State.countReads]

@[simp] theorem State.mvWrite_steady (s : State) (core dtype : Nat) (p : MvPlace) (rep : Option Nat) (bs : List Byte) :
    Steady s₀ (s.mvWrite core dtype p rep bs) ↔ Steady s₀ s := by
  dsimp only [State.mvWrite]
  split <;> simp

@[simp] theorem State.mvMove_steady (s : State) (core dtype : Nat) (src dst : MvPlace) (n : Nat) (rep : Option Nat) :
    Steady s₀ (s.mvMove core dtype src dst n rep) ↔ Steady s₀ s := by
  unfold State.mvMove
  split
  next => simp
  next =>
    dsimp only
    rw [State.mvWrite_steady]
    split
    next h => exact State.readChoice_steady h
    next => rfl
  next => simp

@[simp] theorem State.transferError_steady (s : State) (core : Nat) (src : MvPlace) (c : Nat × Nat × Nat) :
    Steady s₀ (s.transferError core src c) ↔ Steady s₀ s := by
  dsimp only [State.transferError]
  split <;> simp

@[simp] theorem State.atomic_steady (s : State) (core cluster off : Nat) (wide : Bool) (dst : Addr) (f : Nat → Nat) :
    Steady s₀ (s.atomic core cluster off wide dst f) ↔ Steady s₀ s := by simp [State.atomic]

/-! ### Collectives -/

@[simp] theorem State.setColl_steady (s : State) (i : Nat) (c : CollSlot) :
    Steady s₀ (s.setColl i c) ↔ Steady s₀ s := by simp [State.setColl]

@[simp] theorem State.vaWrite_steady (s : State) (va dtype : Nat) (bs : List Byte) :
    Steady s₀ (s.vaWrite va dtype bs) ↔ Steady s₀ s :=
  steady_foldl (fun t p => by dsimp only; split <;> simp) _ _

@[simp] theorem State.sendOrd_steady (s : State) (c : CollSlot) (ord : Nat) (p : CollPacket) :
    Steady s₀ (s.sendOrd c ord p) ↔ Steady s₀ s := by simp [State.sendOrd]

@[simp] theorem State.sendOrds_steady (s : State) (c : CollSlot) (ords : List Nat) (p : CollPacket) :
    Steady s₀ (s.sendOrds c ords p) ↔ Steady s₀ s := by simp [State.sendOrds]

@[simp] theorem State.collKib_steady (s : State) (n : Nat) : Steady s₀ (s.collKib n) ↔ Steady s₀ s := by
  simp [State.collKib]

@[simp] theorem State.closeColl_steady (s : State) (i state cause : Nat) :
    Steady s₀ (s.closeColl i state cause) ↔ Steady s₀ s := by
  dsimp only [State.closeColl]
  (repeat' split) <;> simp

@[simp] theorem State.failColl_steady (s : State) (i cause : Nat) (tell : Bool) :
    Steady s₀ (s.failColl i cause tell) ↔ Steady s₀ s := by simp [State.failColl]

@[simp] theorem State.orBadRank_steady (s : State) (i : Nat) (ords : List Nat) :
    Steady s₀ (s.orBadRank i ords) ↔ Steady s₀ s := by simp [State.orBadRank]

@[simp] theorem State.pumpColl_steady (s : State) (i n : Nat) : Steady s₀ (s.pumpColl i n) ↔ Steady s₀ s := by
  induction n generalizing s with
  | zero => rfl
  | succ n ih =>
    dsimp only [State.pumpColl]
    split
    next => rfl
    next => split <;> simp [ih]

@[simp] theorem State.queueChunk_steady (s : State) (i phase chunk : Nat) (to' : List Nat) (bs : List Byte) :
    Steady s₀ (s.queueChunk i phase chunk to' bs) ↔ Steady s₀ s := by simp [State.queueChunk]

@[simp] theorem State.checkColl_steady (s : State) (i : Nat) : Steady s₀ (s.checkColl i) ↔ Steady s₀ s := by
  simp [State.checkColl]

@[simp] theorem State.goColl_steady (s : State) (i : Nat) : Steady s₀ (s.goColl i) ↔ Steady s₀ s := by
  simp [State.goColl]

@[simp] theorem State.writeResult_steady (s : State) (i off : Nat) (v : List Byte) :
    Steady s₀ (s.writeResult i off v) ↔ Steady s₀ s := by simp [State.writeResult]

@[simp] theorem State.resultChunk_steady (s : State) (i k : Nat) (v : List Byte) :
    Steady s₀ (s.resultChunk i k v) ↔ Steady s₀ s := by
  dsimp only [State.resultChunk]
  split <;> simp

@[simp] theorem State.reduceChunk_steady (s : State) (i k : Nat) : Steady s₀ (s.reduceChunk i k) ↔ Steady s₀ s := by
  simp [State.reduceChunk]

@[simp] theorem State.beginColl_steady (s : State) (i : Nat) : Steady s₀ (s.beginColl i) ↔ Steady s₀ s := by
  dsimp only [State.beginColl]
  split <;> simp

@[simp] theorem State.readyAt_steady (s : State) (i : Nat) (p : CollPacket) :
    Steady s₀ (s.readyAt i p) ↔ Steady s₀ s := by simp [State.readyAt]

@[simp] theorem State.holdMover_steady (s : State) (i core : Nat) (rep : Option Nat) :
    Steady s₀ (s.holdMover i core rep) ↔ Steady s₀ s := by simp [State.holdMover]

@[simp] theorem State.exchangeReady_steady (s : State) (i : Nat) : Steady s₀ (s.exchangeReady i) ↔ Steady s₀ s := by
  dsimp only [State.exchangeReady]
  split
  next => simp
  next =>
    refine (steady_foldl (fun t p => ?_) _ _).trans (by simp)
    split <;> simp

@[simp] theorem State.startColl_steady (s : State) (b : List Byte) (core : Option (Nat × Option Nat)) :
    Steady s₀ (s.startColl b core) ↔ Steady s₀ s := by
  dsimp only [State.startColl]
  (repeat' split) <;> simp

@[simp] theorem State.writeCollStart_steady (s : State) (b : List Byte) :
    Steady s₀ (s.writeCollStart b).2 ↔ Steady s₀ s := by simp [State.writeCollStart]

@[simp] theorem State.slotCollStart_steady (s : State) (core : Nat) (place : Addr) :
    Steady s₀ (s.slotCollStart core place) ↔ Steady s₀ s := by simp [State.slotCollStart]

@[simp] theorem State.withColl_steady (s : State) (p : CollPacket) (f : State → Nat → State)
    (hf : ∀ t i, Steady s₀ (f t i) ↔ Steady s₀ t) : Steady s₀ (s.withColl p f) ↔ Steady s₀ s := by
  dsimp only [State.withColl]
  split <;> simp [hf]

@[simp] theorem State.useChunk_steady (s : State) (i : Nat) (p : CollPacket) :
    Steady s₀ (s.useChunk i p) ↔ Steady s₀ s := by simp [State.useChunk]

/-! ### Errors -/

@[simp] theorem State.collLost_steady (s : State) (p : CollPacket) : Steady s₀ (s.collLost p) ↔ Steady s₀ s := by
  dsimp only [State.collLost]
  split <;> simp

@[simp] theorem State.rmLost_steady (s : State) (tag : Nat) : Steady s₀ (s.rmLost tag) ↔ Steady s₀ s := by
  dsimp only [State.rmLost]
  split <;> simp

@[simp] theorem State.combinedLost_steady (s : State) (p : RmPacket) : Steady s₀ (s.combinedLost p) ↔ Steady s₀ s := by
  simp [State.combinedLost]

@[simp] theorem State.undelivered_steady (s : State) (copy : List Byte) :
    Steady s₀ (s.undelivered copy) ↔ Steady s₀ s := by simp [State.undelivered]

@[simp] theorem State.truncated_steady (s : State) (p : BeatPacket) : Steady s₀ (s.truncated p) ↔ Steady s₀ s := by
  simp [State.truncated]

@[simp] theorem State.sramUe_steady (s : State) (unit cause : Nat) : Steady s₀ (s.sramUe unit cause) ↔ Steady s₀ s := by
  simp [State.sramUe]

@[simp] theorem State.spoilChains_steady (s : State) (named : Chain → Bool) :
    Steady s₀ (s.spoilChains named) ↔ Steady s₀ s := by simp [State.spoilChains]

@[simp] theorem State.discardBuffered_steady (s : State) (p : Packet) :
    Steady s₀ (s.discardBuffered p) ↔ Steady s₀ s := by simp [State.discardBuffered]

@[simp] theorem State.sramError_steady (s : State) (st : SramStore) : Steady s₀ (s.sramError st) ↔ Steady s₀ s := by
  dsimp only [State.sramError]
  split <;> simp

@[simp] theorem State.spoilSlot_steady (s : State) (p : Nat) : Steady s₀ (s.spoilSlot p) ↔ Steady s₀ s := by
  simp [State.spoilSlot]

@[simp] theorem State.rewritePiece_steady (s : State) (body : List Byte) (x : Nat × Nat × Nat) :
    Steady s₀ (s.rewritePiece body x) ↔ Steady s₀ s := by simp [State.rewritePiece]

@[simp] theorem State.repairReplicas_steady (s : State) : Steady s₀ s.repairReplicas ↔ Steady s₀ s := by
  refine steady_foldl (fun t line => steady_foldl (fun t p => ?_) _ _) _ _
  dsimp only
  split <;> simp

@[simp] theorem State.placeImage_steady (s : State) (p : Nat) (sl : ImageSlot) (body : List Byte) :
    Steady s₀ (s.placeImage p sl body) ↔ Steady s₀ s := by simp [State.placeImage]

@[simp] theorem State.readImage_steady (s : State) (i : Image) (readOk : Bool) :
    Steady s₀ (s.readImage i readOk).2 ↔ Steady s₀ s := by simp [State.readImage]

@[simp] theorem State.relocated_steady (s : State) (stack block : Nat) :
    Steady s₀ (s.relocated stack block) ↔ Steady s₀ s := by simp [State.relocated]

@[simp] theorem State.farDown_steady (s : State) (port : Nat) : Steady s₀ (s.farDown port) ↔ Steady s₀ s := by
  simp [State.farDown]

/-! ### Access -/

@[simp] theorem State.countRefusal_steady (s : State) (code : Nat) : Steady s₀ (s.countRefusal code) ↔ Steady s₀ s := by
  simp [State.countRefusal]

@[simp] theorem answer_steady (r : Role) (x : Result) : Steady s₀ (answer r x) ↔ Steady s₀ x.2 := by simp [answer]

@[simp] theorem State.command_steady (s : State) (r : Role) (k : Nat) (f : State → Result)
    (hf : ∀ t, Steady s₀ (f t).2 ↔ Steady s₀ t) : Steady s₀ (s.command r k f) ↔ Steady s₀ s := by
  simp [State.command, hf]

/-! ### The loader -/

@[simp] theorem State.bankState_steady (s : State) (core bank v : Nat) :
    Steady s₀ (s.bankState core bank v) ↔ Steady s₀ s := by simp [State.bankState]

@[simp] theorem State.loadBank_steady (s : State) (core bank : Nat) (obj : List Byte) :
    Steady s₀ (s.loadBank core bank obj).2 ↔ Steady s₀ s := by simp [State.loadBank]

@[simp] theorem State.writeBank_steady (s : State) (core bank : Nat) (obj : List Byte) :
    Steady s₀ (s.writeBank core bank obj).2 ↔ Steady s₀ s := by simp [State.writeBank]

/-! ### Validation -/

@[simp] theorem State.setShadow_steady (s : State) (r : Role) (h : Shadow) :
    Steady s₀ (s.setShadow r h) ↔ Steady s₀ s := by simp [State.setShadow]

@[simp] theorem State.overlay_steady (s : State) (h : Shadow) : Steady s₀ (s.overlay h) ↔ Steady s₀ s :=
  Steady.iff (t := s) ⟨rfl, rfl, keysRise_foldl_mapSet h.regs s.regs⟩

/-! ### Commits -/

@[simp] theorem State.stale347_steady (s : State) (changed : Bool) : Steady s₀ (s.stale347 changed) ↔ Steady s₀ s := by
  simp [State.stale347]

@[simp] theorem State.selectBank_steady (s : State) (c old : Nat) : Steady s₀ (s.selectBank c old) ↔ Steady s₀ s := by
  simp [State.selectBank]

@[simp] theorem State.switchBanks_steady (o s : State) (h : Shadow) :
    Steady s₀ (State.switchBanks o s h) ↔ Steady s₀ s := by simp [State.switchBanks]

@[simp] theorem State.configPort_steady (s : State) (x : Nat) : Steady s₀ (s.configPort x) ↔ Steady s₀ s := by
  simp [State.configPort]

@[simp] theorem State.configPorts_steady (s : State) (h : Shadow) : Steady s₀ (s.configPorts h) ↔ Steady s₀ s := by
  simp [State.configPorts]

@[simp] theorem State.emptySlots_steady (o s : State) (h : Shadow) :
    Steady s₀ (State.emptySlots o s h) ↔ Steady s₀ s := by simp [State.emptySlots]

@[simp] theorem State.startCopy_steady (s : State) (claimed : Bool) :
    Steady s₀ (s.startCopy claimed) ↔ Steady s₀ s := by simp [State.startCopy]

@[simp] theorem State.endClaim_steady (s : State) (r : Role) : Steady s₀ (s.endClaim r) ↔ Steady s₀ s := by
  simp [State.endClaim]

@[simp] theorem State.dropImages_steady (s : State) : Steady s₀ s.dropImages ↔ Steady s₀ s := by
  simp [State.dropImages]

@[simp] theorem State.anchorSet_steady (s : State) (running : Bool) :
    Steady s₀ (s.anchorSet running) ↔ Steady s₀ s := by simp [State.anchorSet]

@[simp] theorem State.configured_steady (s : State) : Steady s₀ s.configured ↔ Steady s₀ s := by
  simp [State.configured]

@[simp] theorem State.endRecalls_steady (o s : State) : Steady s₀ (State.endRecalls o s) ↔ Steady s₀ s := by
  simp [State.endRecalls]

@[simp] theorem State.commitEffects_steady (o s : State) (h : Shadow) (r : Role) :
    Steady s₀ (State.commitEffects o s h r) ↔ Steady s₀ s := by simp [State.commitEffects]

@[simp] theorem State.runCommit_steady (s : State) (r : Role) (beat : Nat) (open' : Bool) :
    Steady s₀ (s.runCommit r beat open').2 ↔ Steady s₀ s := by simp [State.runCommit]

@[simp] theorem State.keepPrior_steady (o s : State) (k : Nat) (h : Shadow) :
    Steady s₀ (State.keepPrior o s k h) ↔ Steady s₀ s := by simp [State.keepPrior]

@[simp] theorem State.applyAt_steady (s : State) (r : Role) (k : Nat) : Steady s₀ (s.applyAt r k) ↔ Steady s₀ s := by
  dsimp only [State.applyAt]
  split <;> simp

@[simp] theorem State.applyDue_steady (s : State) (k : Nat) : Steady s₀ (s.applyDue k) ↔ Steady s₀ s := by
  simp [State.applyDue]

@[simp] theorem State.pend_steady (s : State) (r : Role) (beat : Nat) (named : Bool) :
    Steady s₀ (s.pend r beat named) ↔ Steady s₀ s := by simp [State.pend]

@[simp] theorem State.cancelCommit_steady (s : State) (r : Role) : Steady s₀ (s.cancelCommit r) ↔ Steady s₀ s := by
  simp [State.cancelCommit]

@[simp] theorem State.discardShadow_steady (s : State) (r : Role) : Steady s₀ (s.discardShadow r) ↔ Steady s₀ s := by
  simp [State.discardShadow]

@[simp] theorem State.writeCommit_steady (s : State) (r : Role) (v : Nat) :
    Steady s₀ (s.writeCommit r v).2 ↔ Steady s₀ s := by
  dsimp only [State.writeCommit]
  split <;> simp

/-! ### Tenants and the swap -/

@[simp] theorem State.setTslot_steady (s : State) (i : Nat) (t : TenantSlot) :
    Steady s₀ (s.setTslot i t) ↔ Steady s₀ s := by simp [State.setTslot]

@[simp] theorem State.registerTenant_steady (s : State) (i tenant share : Nat) :
    Steady s₀ (s.registerTenant i tenant share).2 ↔ Steady s₀ s := by simp [State.registerTenant]

@[simp] theorem State.dropTenant_steady (s : State) (tenant : Nat) : Steady s₀ (s.dropTenant tenant) ↔ Steady s₀ s := by
  simp [State.dropTenant]

@[simp] theorem State.deregisterTenant_steady (s : State) (i : Nat) :
    Steady s₀ (s.deregisterTenant i).2 ↔ Steady s₀ s := by simp [State.deregisterTenant]

@[simp] theorem State.writeTenantReg_steady (s : State) (i : Nat) (bs : List Byte) :
    Steady s₀ (s.writeTenantReg i bs).2 ↔ Steady s₀ s := by simp [State.writeTenantReg]

@[simp] theorem State.closeMinuteAt_steady (s : State) (t : Nat) : Steady s₀ (s.closeMinuteAt t) ↔ Steady s₀ s := by
  simp [State.closeMinuteAt]

@[simp] theorem State.setPhase_steady (s : State) (p : Nat) : Steady s₀ (s.setPhase p) ↔ Steady s₀ s := by
  simp [State.setPhase]

@[simp] theorem State.timePhase_steady (s : State) (i : Nat) : Steady s₀ (s.timePhase i) ↔ Steady s₀ s := by
  simp [State.timePhase]

@[simp] theorem State.armSwap_steady (s : State) (teardown : Bool) (epoch incoming : Nat) :
    Steady s₀ (s.armSwap teardown epoch incoming) ↔ Steady s₀ s := by simp [State.armSwap]

@[simp] theorem State.writeSwapCmd_steady (s : State) (v : Nat) : Steady s₀ (s.writeSwapCmd v).2 ↔ Steady s₀ s := by
  dsimp only [State.writeSwapCmd]
  split <;> simp

@[simp] theorem State.failLoads_steady (s : State) : Steady s₀ s.failLoads ↔ Steady s₀ s := by simp [State.failLoads]

@[simp] theorem State.startSwap_steady (s : State) : Steady s₀ s.startSwap ↔ Steady s₀ s := by simp [State.startSwap]

@[simp] theorem State.epochAt_steady (s : State) (k : Nat) : Steady s₀ (s.epochAt k) ↔ Steady s₀ s := by
  simp [State.epochAt]

@[simp] theorem State.settleOpen_steady (s : State) : Steady s₀ s.settleOpen ↔ Steady s₀ s := by
  simp [State.settleOpen]

@[simp] theorem State.endRequests_steady (s : State) (cause : Nat) : Steady s₀ (s.endRequests cause) ↔ Steady s₀ s := by
  simp [State.endRequests]

@[simp] theorem State.endColls_steady (s : State) (cause : Nat) : Steady s₀ (s.endColls cause) ↔ Steady s₀ s := by
  simp [State.endColls]

@[simp] theorem State.startSave_steady (s : State) : Steady s₀ s.startSave ↔ Steady s₀ s := by simp [State.startSave]

@[simp] theorem State.writeSaveArea_steady (s : State) (i : Nat) : Steady s₀ (s.writeSaveArea i) ↔ Steady s₀ s := by
  simp [State.writeSaveArea]

@[simp] theorem State.suspend_steady (s : State) : Steady s₀ s.suspend ↔ Steady s₀ s := by simp [State.suspend]

@[simp] theorem State.scrubFabric_steady (s : State) (job : Nat) : Steady s₀ (s.scrubFabric job) ↔ Steady s₀ s := by
  simp [State.scrubFabric]

theorem State.scrub_keeps (s : State) : Keeps s s.scrub := by
  unfold State.scrub
  extract_lets u _ _ v w
  have hu : Steady s u := by unfold u; simp
  clear_value u
  have hv : Keeps s v := ⟨hu.pending, hu.factory, fun n => keysRise_filter _ (hu.keeps.numbers n)⟩
  clear_value v
  exact hv.after (by unfold w; simp)

theorem State.afterScrub_keeps (s : State) : Keeps s s.afterScrub :=
  s.scrub_keeps.after (by dsimp only [State.afterScrub]; simp [↓steady_ite, ↓steady_mk])

@[simp] theorem State.putTenant_steady (s : State) (v : SavedTenant) : Steady s₀ (s.putTenant v) ↔ Steady s₀ s :=
  Steady.iff (t := s) ⟨rfl, rfl, keysRise_foldl_mapSet v.regs s.regs⟩

@[simp] theorem State.runSlot_steady (s : State) (i : Nat) : Steady s₀ (s.runSlot i) ↔ Steady s₀ s := by
  simp [State.runSlot]

theorem State.failRestore_keeps (s : State) (i : Nat) : Keeps s (s.failRestore i) :=
  s.scrub_keeps.after (by dsimp only [State.failRestore]; simp)

@[simp] theorem State.resumeAt_steady (s : State) (k : Nat) : Steady s₀ (s.resumeAt k) ↔ Steady s₀ s := by
  simp [State.resumeAt]

/-! ### Managers and partitions -/

@[simp] theorem State.takeMsg_steady (s : State) (m : MgmtMsg) : Steady s₀ (s.takeMsg m) ↔ Steady s₀ s := by
  simp [State.takeMsg]

@[simp] theorem State.setDomain_steady (s : State) (l : List DomainDev) : Steady s₀ (s.setDomain l) ↔ Steady s₀ s := by
  simp [State.setDomain]

@[simp] theorem State.updDev_steady (s : State) (dev : Nat) (f : DomainDev → DomainDev) :
    Steady s₀ (s.updDev dev f) ↔ Steady s₀ s := by simp [State.updDev]

@[simp] theorem State.admitDev_steady (s : State) (loc : Nat) : Steady s₀ (s.admitDev loc) ↔ Steady s₀ s := by
  simp [State.admitDev]

@[simp] theorem State.answerBeat_steady (s : State) (sender : Nat) : Steady s₀ (s.answerBeat sender) ↔ Steady s₀ s := by
  simp [State.answerBeat]

@[simp] theorem State.heardManager_steady (s : State) (dev : Nat) : Steady s₀ (s.heardManager dev) ↔ Steady s₀ s := by
  simp [State.heardManager]

@[simp] theorem State.promote_steady (s : State) : Steady s₀ s.promote ↔ Steady s₀ s := by simp [State.promote]

@[simp] theorem State.markSilent_steady (s : State) : Steady s₀ s.markSilent ↔ Steady s₀ s := by
  simp [State.markSilent]

@[simp] theorem State.declareLost_steady (s : State) (dev : Nat) : Steady s₀ (s.declareLost dev) ↔ Steady s₀ s := by
  simp [State.declareLost]

@[simp] theorem State.writePartCmd_steady (s : State) (v : Nat) : Steady s₀ (s.writePartCmd v).2 ↔ Steady s₀ s := by
  dsimp only [State.writePartCmd]
  split <;> simp

@[simp] theorem State.startAt_steady (s : State) (k : Nat) : Steady s₀ (s.startAt k) ↔ Steady s₀ s := by
  dsimp only [State.startAt]
  split <;> simp

@[simp] theorem State.teardownAt_steady (s : State) (k : Nat) : Steady s₀ (s.teardownAt k) ↔ Steady s₀ s := by
  dsimp only [State.teardownAt]
  split <;> simp

@[simp] theorem State.writeAdmit_steady (s : State) (b : Nat) : Steady s₀ (s.writeAdmit b).2 ↔ Steady s₀ s := by
  simp [State.writeAdmit]

@[simp] theorem State.rejoinAt_steady (s : State) (k : Nat) : Steady s₀ (s.rejoinAt k) ↔ Steady s₀ s := by
  dsimp only [State.rejoinAt]
  split <;> simp

@[simp] theorem State.setReplica_steady (s : State) (rank v : Nat) : Steady s₀ (s.setReplica rank v) ↔ Steady s₀ s := by
  simp [State.setReplica]

@[simp] theorem State.keepReplica_steady (s : State) (rank : Nat) (body : List Byte) :
    Steady s₀ (s.keepReplica rank body) ↔ Steady s₀ s := by simp [State.keepReplica]

@[simp] theorem State.standInToken_steady (s : State) (rank : Nat) (t : TokenId) :
    Steady s₀ (s.standInToken rank t) ↔ Steady s₀ s := by simp [State.standInToken]

/-! ### Non-volatile memory, updates and attestation -/

@[simp] theorem State.writeStore_steady (s : State) (restore : Bool) (v : Nat) :
    Steady s₀ (s.writeStore restore v).2 ↔ Steady s₀ s := by simp [State.writeStore]

@[simp] theorem State.startFw_steady (s : State) : Steady s₀ s.startFw.2 ↔ Steady s₀ s := by simp [State.startFw]

@[simp] theorem State.verifyFw_steady (s : State) (b : List Byte) : Steady s₀ (s.verifyFw b) ↔ Steady s₀ s := by
  simp [State.verifyFw]

@[simp] theorem State.endFw_steady (s : State) (readBackOk : Bool) :
    Steady s₀ (s.endFw readBackOk).2 ↔ Steady s₀ s := by simp [State.endFw]

@[simp] theorem State.setAttest_steady (s : State) (r : Role) (a : Attest) :
    Steady s₀ (s.setAttest r a) ↔ Steady s₀ s := by simp [State.setAttest]

@[simp] theorem State.writeNonce_steady (s : State) (r : Role) (b : List Byte) :
    Steady s₀ (s.writeNonce r b).2 ↔ Steady s₀ s := by simp [State.writeNonce]

@[simp] theorem State.captureFor_steady (s : State) (r : Role) : Steady s₀ (s.captureFor r) ↔ Steady s₀ s := by
  simp [State.captureFor]

@[simp] theorem State.writeDiag_steady (s : State) (cmd : Nat) : Steady s₀ (s.writeDiag cmd).2 ↔ Steady s₀ s := by
  simp [State.writeDiag]

@[simp] theorem State.diag_steady (s : State) (r : Role) (cmd : Nat) : Steady s₀ (s.diag r cmd) ↔ Steady s₀ s := by
  simp [State.diag]

@[simp] theorem State.putRecords_steady (s : State) (kind : Nat) (recs : List DiagRec) :
    Steady s₀ (s.putRecords kind recs) ↔ Steady s₀ s := by simp [State.putRecords]

@[simp] theorem State.zeroCluster_steady (s : State) (k : Nat) : Steady s₀ (s.zeroCluster k) ↔ Steady s₀ s := by
  simp [State.zeroCluster]

@[simp] theorem State.writeClipFlags_steady (s : State) (b : List Byte) :
    Steady s₀ (s.writeClipFlags b).2 ↔ Steady s₀ s := by simp [State.writeClipFlags]

@[simp] theorem State.writeAlarm_steady (s : State) (v : Nat) : Steady s₀ (s.writeAlarm v).2 ↔ Steady s₀ s := by
  simp [State.writeAlarm]

/-! ### Reset and boot -/

theorem State.resetWith_keeps (s : State) (p : Package) : Keeps s (s.resetWith p) :=
  ⟨rfl, s.nv.failStore_factory, fun _ => rfl⟩

@[simp] theorem State.applyEntry_steady (s : State) (e : Nat × Nat) : Steady s₀ (s.applyEntry e) ↔ Steady s₀ s := by
  dsimp only [State.applyEntry]
  split <;> simp

@[simp] theorem State.disablePorts_steady (s : State) : Steady s₀ s.disablePorts ↔ Steady s₀ s := by
  simp [State.disablePorts]

@[simp] theorem State.enumerate_steady (s : State) (port st ext : Nat) :
    Steady s₀ (s.enumerate port st ext) ↔ Steady s₀ s := by simp [State.enumerate]

@[simp] theorem State.startLinks_steady (s : State) : Steady s₀ s.startLinks ↔ Steady s₀ s := by
  simp [State.startLinks]

@[simp] theorem State.sendHellos_steady (s : State) : Steady s₀ s.sendHellos ↔ Steady s₀ s := by
  simp [State.sendHellos]

@[simp] theorem State.thermalWarn_steady (s : State) : Steady s₀ s.thermalWarn ↔ Steady s₀ s := by
  simp [State.thermalWarn]

@[simp] theorem State.thermalHold_steady (s : State) : Steady s₀ s.thermalHold ↔ Steady s₀ s := by
  simp [State.thermalHold]

/-! ### Streams -/

@[simp] theorem State.emitOut_steady (s : State) (r : OutRec) : Steady s₀ (s.emitOut r) ↔ Steady s₀ s := by
  simp [State.emitOut]

@[simp] theorem State.countRefused_steady (s : State) : Steady s₀ s.countRefused ↔ Steady s₀ s := by
  simp [State.countRefused]

@[simp] theorem State.setBatch_steady (s : State) (b : Batch) : Steady s₀ (s.setBatch b) ↔ Steady s₀ s := by
  simp [State.setBatch]

@[simp] theorem State.setParse_steady (s : State) (p : InParse) : Steady s₀ (s.setParse p) ↔ Steady s₀ s := by
  simp [State.setParse]

@[simp] theorem State.setUsed_steady (s : State) (n : Nat) : Steady s₀ (s.setUsed n) ↔ Steady s₀ s := by
  simp [State.setUsed]

@[simp] theorem State.idleLaneAt_steady (s : State) (b : Batch) (i : Nat) :
    Steady s₀ (s.idleLaneAt b i) ↔ Steady s₀ s := by simp [State.idleLaneAt]

@[simp] theorem State.refuseRec_steady (s : State) (cause lane batch gen : Nat) :
    Steady s₀ (s.refuseRec cause lane batch gen) ↔ Steady s₀ s := by simp [State.refuseRec]

@[simp] theorem State.failParse_steady (s : State) (cause : Nat) : Steady s₀ (s.failParse cause) ↔ Steady s₀ s := by
  dsimp only [State.failParse]
  split <;> simp

@[simp] theorem State.refuseAlone_steady (s : State) (r : InRec) (cause : Nat) :
    Steady s₀ (s.refuseAlone r cause) ↔ Steady s₀ s := by simp [State.refuseAlone]

@[simp] theorem State.accepted_steady (s : State) : Steady s₀ s.accepted ↔ Steady s₀ s := by simp [State.accepted]

@[simp] theorem State.openIfWhole_steady (s : State) : Steady s₀ s.openIfWhole ↔ Steady s₀ s := by
  dsimp only [State.openIfWhole]
  split <;> simp

@[simp] theorem State.takeBatch_steady (s : State) (r : InRec) : Steady s₀ (s.takeBatch r) ↔ Steady s₀ s := by
  simp [State.takeBatch]

@[simp] theorem State.takeBatchLane_steady (s : State) (r : InRec) (b : Batch) :
    Steady s₀ (s.takeBatchLane r b) ↔ Steady s₀ s := by simp [State.takeBatchLane]

@[simp] theorem State.takeLane_steady (s : State) (r : InRec) : Steady s₀ (s.takeLane r) ↔ Steady s₀ s := by
  dsimp only [State.takeLane]
  split <;> simp

@[simp] theorem State.takeTokens_steady (s : State) (r : InRec) : Steady s₀ (s.takeTokens r) ↔ Steady s₀ s := by
  dsimp only [State.takeTokens]
  (repeat' split) <;> simp

@[simp] theorem State.takeClose_steady (s : State) (r : InRec) : Steady s₀ (s.takeClose r) ↔ Steady s₀ s := by
  dsimp only [State.takeClose]
  split <;> simp

@[simp] theorem State.takeRec_steady (s : State) (r : InRec) : Steady s₀ (s.takeRec r) ↔ Steady s₀ s := by
  dsimp only [State.takeRec]
  (repeat' split) <;> simp

@[simp] theorem State.takeChecked_steady (s : State) (r : InRec) : Steady s₀ (s.takeChecked r) ↔ Steady s₀ s := by
  simp [State.takeChecked]

@[simp] theorem State.takeFull_steady (s : State) : Steady s₀ s.takeFull ↔ Steady s₀ s := by simp [State.takeFull]

@[simp] theorem State.putRecord_steady (s : State) (r : InRec) : Steady s₀ (s.putRecord r) ↔ Steady s₀ s := by
  dsimp only [State.putRecord]
  (repeat' split) <;> simp

@[simp] theorem State.streamAccess_steady (s : State) (r : Role) (f : State → State)
    (hf : ∀ t, Steady s₀ (f t) ↔ Steady s₀ t) : Steady s₀ (s.streamAccess r f) ↔ Steady s₀ s := by
  unfold State.streamAccess
  split
  next => rfl
  next => split <;> simp [hf]

@[simp] theorem State.embedToken_steady (s : State) (tok : TokenId) (id n : Nat) :
    Steady s₀ (s.embedToken tok id n) ↔ Steady s₀ s := by simp [State.embedToken]

@[simp] theorem State.sendEntry_steady (s : State) (e : EntryOut) : Steady s₀ (s.sendEntry e) ↔ Steady s₀ s := by
  simp [State.sendEntry]

@[simp] theorem State.entriesAtTick_steady (s : State) (late : TokenId → Bool) :
    Steady s₀ (s.entriesAtTick late) ↔ Steady s₀ s := by simp [State.entriesAtTick]

@[simp] theorem State.embed_steady (s : State) (b : Batch) (i : Nat) (l : Lane) (fromPrompt : Bool) (n : Nat) :
    Steady s₀ (s.embed b i l fromPrompt n) ↔ Steady s₀ s := by simp [State.embed]

@[simp] theorem State.entryLane_steady (t : Nat) (s : State) (n i : Nat) :
    Steady s₀ (State.entryLane t s n i) ↔ Steady s₀ s := by
  dsimp only [State.entryLane]
  (repeat' split) <;> simp

@[simp] theorem State.entryStages_steady (s : State) (t : Nat) : Steady s₀ (s.entryStages t) ↔ Steady s₀ s := by
  simp [State.entryStages]

@[simp] theorem State.takeSample_steady (s : State) (p : BeatPacket) (b : Batch) (l : Lane) :
    Steady s₀ (s.takeSample p b l) ↔ Steady s₀ s := by simp [State.takeSample]

@[simp] theorem State.writeBatchCancel_steady (s : State) (tag : Nat) :
    Steady s₀ (s.writeBatchCancel tag).2 ↔ Steady s₀ s := by
  dsimp only [State.writeBatchCancel]
  split <;> simp

@[simp] theorem State.cancelBatch_steady (s : State) (b : Batch) (beat : Nat) :
    Steady s₀ (s.cancelBatch b beat) ↔ Steady s₀ s := by
  dsimp only [State.cancelBatch]
  split
  next => rfl
  next =>
    refine (steady_foldl (fun t i => ?_) _ _).trans (State.setBatch_steady s _)
    split <;> simp

/-! ### The dictionary -/

@[simp] theorem State.writeHallTime_steady (s : State) (t : Nat) : Steady s₀ (s.writeHallTime t).2 ↔ Steady s₀ s := by
  simp [State.writeHallTime]

@[simp] theorem State.writeBind_steady (s : State) (v : Nat) : Steady s₀ (s.writeBind v).2 ↔ Steady s₀ s := by
  simp [State.writeBind]

@[simp] theorem State.writeTenantSel_steady (s : State) (r : Role) (v : Nat) :
    Steady s₀ (s.writeTenantSel r v).2 ↔ Steady s₀ s := by simp [State.writeTenantSel]

@[simp] theorem State.writeBankObj_steady (s : State) (core bank : Nat) (bs : List Byte) :
    Steady s₀ (s.writeBankObj core bank bs).2 ↔ Steady s₀ s := by simp [State.writeBankObj]

theorem State.numCommand_steady {s : State} {r : Role} {index sub v : Nat} {x : Result}
    (h : s.numCommand r index sub v = some x) : Steady s₀ x.2 ↔ Steady s₀ s := by
  unfold State.numCommand at h
  split at h <;> cases h <;> simp

theorem State.bytesCommand_steady {s : State} {r : Role} {index sub : Nat} {bs : List Byte} {x : Result}
    (h : s.bytesCommand r index sub bs = some x) : Steady s₀ x.2 ↔ Steady s₀ s := by
  unfold State.bytesCommand at h
  repeat' split at h
  all_goals cases h
  all_goals simp

@[simp] theorem State.claim_steady (s : State) (r : Role) (index sub : Nat) :
    Steady s₀ (s.claim r index sub) ↔ Steady s₀ s := by simp [State.claim]

@[simp] theorem State.noteLoad_steady (s : State) (index sub code : Nat) :
    Steady s₀ (s.noteLoad index sub code) ↔ Steady s₀ s := by simp [State.noteLoad]

@[simp] theorem State.stageNum_steady (s : State) (r : Role) (index sub k v : Nat) :
    Steady s₀ (s.stageNum r index sub k v).2 ↔ Steady s₀ s := by simp [State.stageNum]

@[simp] theorem State.stageBytes_steady (s : State) (r : Role) (index sub k : Nat) (b : Blob) (whole : List Byte) :
    Steady s₀ (s.stageBytes r index sub k b whole).2 ↔ Steady s₀ s := by simp [State.stageBytes]

@[simp] theorem State.writeNum_steady (s : State) (r : Role) (row : ObjRow) (index sub v : Nat) :
    Steady s₀ (s.writeNum r row index sub v).2 ↔ Steady s₀ s := by
  dsimp only [State.writeNum]
  split
  next => rfl
  next =>
    split
    next => simp
    next =>
      split
      next h => exact State.numCommand_steady h
      next => simp

@[simp] theorem State.writeDom_steady (s : State) (r : Role) (row : ObjRow) (index sub : Nat) (bs : List Byte) :
    Steady s₀ (s.writeDom r row index sub bs).2 ↔ Steady s₀ s := by
  dsimp only [State.writeDom]
  split
  next => rfl
  next =>
    split
    next => simp
    next =>
      split
      next h => exact State.bytesCommand_steady h
      next => simp

@[simp] theorem State.writeObject_steady (s : State) (r : Role) (index sub : Nat) (bs : List Byte) :
    Steady s₀ (s.writeObject r index sub bs).2 ↔ Steady s₀ s := by
  dsimp only [State.writeObject]
  (repeat' split) <;> simp

@[simp] theorem State.patchObject_steady (s : State) (r : Role) (index sub off : Nat) (bs : List Byte) :
    Steady s₀ (s.patchObject r index sub off bs).2 ↔ Steady s₀ s := by
  dsimp only [State.patchObject]
  (repeat' split) <;> simp

/-! ### The host -/

@[simp] theorem State.sendDx_steady (s : State) (x : Session) (seqNo off len : Nat) (final : Bool)
    (payload : List Byte) : Steady s₀ (s.sendDx x seqNo off len final payload) ↔ Steady s₀ s := by simp [State.sendDx]

@[simp] theorem State.pumpRemote_steady (s : State) : Steady s₀ s.pumpRemote ↔ Steady s₀ s := by
  dsimp only [State.pumpRemote]
  split <;> simp

@[simp] theorem State.startRemote_steady (s : State) (x : Session) : Steady s₀ (s.startRemote x) ↔ Steady s₀ s := by
  simp [State.startRemote]

@[simp] theorem State.finishWrite_steady (s : State) (r : Role) (x : Session) (bs : List Byte) :
    Steady s₀ (s.finishWrite r x bs) ↔ Steady s₀ s := by simp [State.finishWrite]

@[simp] theorem State.startRead_steady (s : State) (r : Role) (x : Session) :
    Steady s₀ (s.startRead r x) ↔ Steady s₀ s := by simp [State.startRead]

@[simp] theorem State.openWrite_steady (s : State) (index sub : Nat) :
    Steady s₀ (s.openWrite index sub).2 ↔ Steady s₀ s := by simp [State.openWrite]

@[simp] theorem State.startWrite_steady (s : State) (r : Role) (x : Session) :
    Steady s₀ (s.startWrite r x) ↔ Steady s₀ s := by simp [State.startWrite]

@[simp] theorem State.dxCommand_steady (s : State) (r : Role) (cmd sel len : Nat) :
    Steady s₀ (s.dxCommand r cmd sel len) ↔ Steady s₀ s := by simp [State.dxCommand]

@[simp] theorem State.badRequest_steady (s : State) (isRead : Bool) (n : Nat) :
    Steady s₀ (s.badRequest isRead n) ↔ Steady s₀ s := by simp [State.badRequest]

@[simp] theorem State.checkTenant_steady (s : State) (r : Role) : Steady s₀ (s.checkTenant r) ↔ Steady s₀ s := by
  simp [State.checkTenant]

@[simp] theorem State.dropXfer_steady (s : State) (seqNo : Nat) : Steady s₀ (s.dropXfer seqNo) ↔ Steady s₀ s := by
  simp [State.dropXfer]

@[simp] theorem State.putXfer_steady (s : State) (f : FabricXfer) : Steady s₀ (s.putXfer f) ↔ Steady s₀ s := by
  simp [State.putXfer]

@[simp] theorem State.dxAnswer_steady (s : State) (src : Nat) (h : DxHdr) (code len : Nat) (payload : List Byte) :
    Steady s₀ (s.dxAnswer src h code len payload) ↔ Steady s₀ s := by simp [State.dxAnswer]

@[simp] theorem State.spoilBank_steady (s : State) (h : DxHdr) : Steady s₀ (s.spoilBank h) ↔ Steady s₀ s := by
  simp [State.spoilBank]

@[simp] theorem State.cancelXfer_steady (s : State) (seqNo : Nat) : Steady s₀ (s.cancelXfer seqNo) ↔ Steady s₀ s := by
  dsimp only [State.cancelXfer]
  split <;> simp

@[simp] theorem State.dxFail_steady (s : State) (src : Nat) (h : DxHdr) (code : Nat) :
    Steady s₀ (s.dxFail src h code) ↔ Steady s₀ s := by simp [State.dxFail]

@[simp] theorem State.serveDxRead_steady (s : State) (src : Nat) (h : DxHdr) (held : Option FabricXfer) :
    Steady s₀ (s.serveDxRead src h held) ↔ Steady s₀ s := by simp [State.serveDxRead]

@[simp] theorem State.serveDxWrite_steady (s : State) (src : Nat) (h : DxHdr) (payload : List Byte)
    (held : Option FabricXfer) :
    Steady s₀ (s.serveDxWrite src h payload held) ↔ Steady s₀ s := by simp [State.serveDxWrite]

@[simp] theorem State.countXfer_steady (s : State) (held : Option FabricXfer) :
    Steady s₀ (s.countXfer held) ↔ Steady s₀ s := by simp [State.countXfer]

@[simp] theorem State.i3cSet_steady (s : State) (status : Nat) (out : List Byte) :
    Steady s₀ (s.i3cSet status out) ↔ Steady s₀ s := by simp [State.i3cSet]

@[simp] theorem State.countI3c_steady (s : State) : Steady s₀ s.countI3c ↔ Steady s₀ s := by simp [State.countI3c]

/-! ### Time and the beat -/

@[simp] theorem State.unitOverruns_steady (items : List Unfinished) (s : State) (u : Nat) :
    Steady s₀ (State.unitOverruns items s u) ↔ Steady s₀ s := by
  dsimp only [State.unitOverruns]
  split <;> simp

@[simp] theorem State.flagTokens_steady (s : State) (items : List Unfinished) :
    Steady s₀ (s.flagTokens items) ↔ Steady s₀ s := by simp [State.flagTokens]

@[simp] theorem State.overrunsAt_steady (s : State) (n : Nat) (unfinished : List Unfinished) :
    Steady s₀ (s.overrunsAt n unfinished) ↔ Steady s₀ s := by simp [State.overrunsAt]

@[simp] theorem State.askTime_steady (s : State) : Steady s₀ s.askTime ↔ Steady s₀ s := by simp [State.askTime]

@[simp] theorem State.scrubCore_steady (s : State) (c ns : Nat) : Steady s₀ (s.scrubCore c ns) ↔ Steady s₀ s := by
  simp [State.scrubCore]

@[simp] theorem State.scrubCache_steady (s : State) (k ns : Nat) : Steady s₀ (s.scrubCache k ns) ↔ Steady s₀ s := by
  simp [State.scrubCache]

@[simp] theorem State.scrubIdle_steady (s : State) : Steady s₀ s.scrubIdle ↔ Steady s₀ s := by simp [State.scrubIdle]

@[simp] theorem State.beatTotals_steady (s : State) : Steady s₀ s.beatTotals ↔ Steady s₀ s := by
  simp [State.beatTotals]

@[simp] theorem State.expireCredits_steady (s : State) : Steady s₀ s.expireCredits ↔ Steady s₀ s := by
  simp [State.expireCredits]

@[simp] theorem State.releaseConsists_steady (s : State) : Steady s₀ s.releaseConsists ↔ Steady s₀ s := by
  simp [State.releaseConsists]

@[simp] theorem State.dropAudits_steady (s : State) : Steady s₀ s.dropAudits ↔ Steady s₀ s := by
  simp [State.dropAudits]

@[simp] theorem State.checkPool_steady (s : State) (k : Nat) : Steady s₀ (s.checkPool k) ↔ Steady s₀ s := by
  simp [State.checkPool]

@[simp] theorem State.reportIdentity_steady (s : State) (i cause : Nat) :
    Steady s₀ (s.reportIdentity i cause) ↔ Steady s₀ s := by simp [State.reportIdentity]

@[simp] theorem State.checkLedger_steady (s : State) : Steady s₀ s.checkLedger ↔ Steady s₀ s := by
  simp [State.checkLedger]

@[simp] theorem State.charge_steady (s : State) : Steady s₀ s.charge ↔ Steady s₀ s := by simp [State.charge]

@[simp] theorem State.deferRelocation_steady (s : State) : Steady s₀ s.deferRelocation ↔ Steady s₀ s := by
  simp [State.deferRelocation]

@[simp] theorem State.settleStale_steady (s : State) : Steady s₀ s.settleStale ↔ Steady s₀ s := by
  simp [State.settleStale]

@[simp] theorem State.dropOldManifests_steady (s : State) : Steady s₀ s.dropOldManifests ↔ Steady s₀ s := by
  simp [State.dropOldManifests]

@[simp] theorem State.cutInvocations_steady (s : State) (n : Nat) : Steady s₀ (s.cutInvocations n) ↔ Steady s₀ s := by
  simp [State.cutInvocations]

@[simp] theorem State.abandonUnit_steady (s : State) (unit b : Nat) :
    Steady s₀ (s.abandonUnit unit b) ↔ Steady s₀ s := by simp [State.abandonUnit]

@[simp] theorem State.cutsAt_steady (s : State) (n : Nat) : Steady s₀ (s.cutsAt n) ↔ Steady s₀ s := by
  simp [State.cutsAt]

@[simp] theorem State.dropOld_steady (s : State) (n : Nat) : Steady s₀ (s.dropOld n) ↔ Steady s₀ s := by
  simp [State.dropOld]

@[simp] theorem State.reloadCredits_steady (s : State) : Steady s₀ s.reloadCredits ↔ Steady s₀ s := by
  simp [State.reloadCredits]

@[simp] theorem State.clearParity_steady (s : State) (n : Nat) : Steady s₀ (s.clearParity n) ↔ Steady s₀ s := by
  simp [State.clearParity]

@[simp] theorem State.openBeat_steady (s : State) : Steady s₀ s.openBeat ↔ Steady s₀ s := by simp [State.openBeat]

@[simp] theorem State.invoke_steady (s : State) (n c : Nat) : Steady s₀ (s.invoke n c) ↔ Steady s₀ s := by
  simp [State.invoke]

@[simp] theorem State.invokeAll_steady (s : State) (n : Nat) : Steady s₀ (s.invokeAll n) ↔ Steady s₀ s := by
  simp [State.invokeAll]

@[simp] theorem State.startStage_steady (s : State) (r : Residual) : Steady s₀ (s.startStage r) ↔ Steady s₀ s := by
  simp [State.startStage]

@[simp] theorem State.attend_steady (lost : List (TokenId × Nat)) (s : State) (r : Residual) :
    Steady s₀ (State.attend lost s r) ↔ Steady s₀ s := by
  dsimp only [State.attend]
  split <;> simp

@[simp] theorem State.combineAndEnter_steady (s : State) (n : Nat) : Steady s₀ (s.combineAndEnter n) ↔ Steady s₀ s := by
  simp [State.combineAndEnter]

@[simp] theorem State.enterHold_steady (s : State) : Steady s₀ s.enterHold ↔ Steady s₀ s := by simp [State.enterHold]

@[simp] theorem State.endBeat_steady (s : State) (n : Nat) (unfinished : List Unfinished) :
    Steady s₀ (s.endBeat n unfinished) ↔ Steady s₀ s := by simp [State.endBeat]

@[simp] theorem State.fall_steady (s : State) (n : Nat) : Steady s₀ (s.fall n) ↔ Steady s₀ s := by
  dsimp only [State.fall]
  simp [↓State.takeLatch_steady, ↓State.dropOld_steady, ↓State.checkLedger_steady, ↓steady_foldl,
    ↓State.dropNotices_steady, ↓State.dropOldManifests_steady, ↓State.expirePending_steady, ↓State.settleStale_steady,
    ↓State.releaseConsists_steady, ↓State.cutsAt_steady, ↓steady_mk]

@[simp] theorem State.startBeat_steady (s : State) (n : Nat) : Steady s₀ (s.startBeat n) ↔ Steady s₀ s := by
  simp [State.startBeat]

@[simp] theorem State.patrolStep_steady (s : State) : Steady s₀ s.patrolStep ↔ Steady s₀ s := by
  simp [State.patrolStep]

@[simp] theorem State.enterTimeHold_steady (s : State) : Steady s₀ s.enterTimeHold ↔ Steady s₀ s := by
  simp [State.enterTimeHold]

@[simp] theorem State.correctTime_steady (s : State) (managerTime : Nat) (offset : Int) :
    Steady s₀ (s.correctTime managerTime offset) ↔ Steady s₀ s := by simp [State.correctTime]

@[simp] theorem State.timeNext_steady (s : State) : Steady s₀ s.timeNext ↔ Steady s₀ s := by simp [State.timeNext]

@[simp] theorem State.exchangeEnds_steady (s : State) (port delayPs : Nat) :
    Steady s₀ (s.exchangeEnds port delayPs) ↔ Steady s₀ s := by simp [State.exchangeEnds]

/-! ### The engines -/

@[simp] theorem State.addAcc_steady (s : State) (n : AccCounts) : Steady s₀ (s.addAcc n) ↔ Steady s₀ s := by
  simp [State.addAcc]

@[simp] theorem State.countClip_steady (s : State) (slot n clipped nans : Nat) :
    Steady s₀ (s.countClip slot n clipped nans) ↔ Steady s₀ s := by simp [State.countClip]

@[simp] theorem State.ttDone_steady (s : State) (c n : Nat) : Steady s₀ (s.ttDone c n) ↔ Steady s₀ s := by
  simp [State.ttDone]

@[simp] theorem State.writeQuant_steady (s : State) (core : Nat) (f : EltFmt) (sc dst dsc slot : Nat) (xs : List RVal) :
    Steady s₀ (s.writeQuant core f sc dst dsc slot xs) ↔ Steady s₀ s := by simp [State.writeQuant]

@[simp] theorem State.quantSource_steady (s : State) (core : Nat) (d : QuantDesc) :
    Steady s₀ (s.quantSource core d).2 ↔ Steady s₀ s := by
  dsimp only [State.quantSource]
  split
  next => rfl
  next =>
    split
    next => rfl
    next h => exact State.readChoice_steady h

end Sys2Proof.Machine
end

section
/-! SUPPORT and O4. Every command completes and keeps the queue, the factory record and one value for each object. -/

namespace Sys2Proof.Machine

open Sys2Proof

/-! ### The sequencer -/

@[simp] theorem execWordIssue_completes (core : Nat) (s : State) : Completes s (execWordIssue core s) := by
  dsimp only [execWordIssue]
  refine .next ?_
  (repeat' split) <;> simp

@[simp] theorem execFence_completes (core : Nat) (mask : List Engine) (s : State) :
    Completes s (execFence core mask s) := .next (by simp)

@[simp] theorem execRaise_completes (core : Nat) (line : LineRef) (n : Nat) (s : State) :
    Completes s (execRaise core line n s) := .next (by simp)

@[simp] theorem execWait_completes (core : Nat) (line : LineRef) (s : State) :
    Completes s (execWait core line s) := .next (by simp)

@[simp] theorem execBarrier_completes (core : Nat) (line : LineRef) (n : Nat) (s : State) :
    Completes s (execBarrier core line n s) := .next (by simp)

@[simp] theorem execWaitOffset_completes (core t : Nat) (s : State) :
    Completes s (execWaitOffset core t s) := .next (by simp)

@[simp] theorem execHold_completes (core cp : Nat) (s : State) : Completes s (execHold core cp s) := .next (by simp)

@[simp] theorem execConfig_completes (core cp : Nat) (setting : CmpSetting) (s : State) :
    Completes s (execConfig core cp setting s) := .next (by simp)

@[simp] theorem execSplice_completes (core : Nat) (s : State) : Completes s (execSplice core s) := .next (by simp)

/-! ### Choices -/

@[simp] theorem execChainAllocate_completes (cluster : Nat) (s : State) :
    Completes s (execChainAllocate cluster s) := .next (by simp)

/-! ### Combining -/

@[simp] theorem execAnswerArrival_completes (p : BeatPacket) (s : State) :
    Completes s (execAnswerArrival p s) := .next (by simp)

@[simp] theorem execRefusalArrival_completes (p : BeatPacket) (s : State) :
    Completes s (execRefusalArrival p s) := .next (by simp)

@[simp] theorem execOrphanSweep_completes (s : State) : Completes s (execOrphanSweep s) := .next (by simp)

@[simp] theorem execPendingExpiry_completes (s : State) : Completes s (execPendingExpiry s) := .next (by simp)

@[simp] theorem execCancelNoticeArrival_completes (tag gen cb : Nat) (s : State) :
    Completes s (execCancelNoticeArrival tag gen cb s) := .next (by simp)

@[simp] theorem execCancelNoticeExpiry_completes (tag gen : Nat) (s : State) :
    Completes s (execCancelNoticeExpiry tag gen s) := .next (by simp)

/-! ### Homes -/

@[simp] theorem execMoveDone_completes (home cause : Nat) (s : State) : Completes s (execMoveDone home cause s) := by
  dsimp only [execMoveDone]
  refine .next ?_
  (repeat' split) <;> simp

/-! ### Yards -/

@[simp] theorem execStage2Result_completes (tok : TokenId) (lslot nextRank nextCluster : Nat)
    (hidden residual : List BF16) (s : State) :
    Completes s (execStage2Result tok lslot nextRank nextCluster hidden residual s) := by
  dsimp only [execStage2Result]
  refine .next ?_
  (repeat' split) <;> simp

@[simp] theorem execStripedGroupRequest_completes (lslot group : Nat) (tok : TokenId) (hidden : List BF16) (s : State) :
    Completes s (execStripedGroupRequest lslot group tok hidden s) := by
  dsimp only [execStripedGroupRequest]
  refine .next ?_
  (repeat' split) <;> simp

@[simp] theorem execKvBlockSelection_completes (core ctr lslot : Nat) (tok : TokenId) (entry summary : List Byte)
    (scores : List FP32)
    (s : State) : Completes s (execKvBlockSelection core ctr lslot tok entry summary scores s) := by
  dsimp only [execKvBlockSelection]
  refine .next ?_
  split
  next =>
    split
    next => exact .refl s
    next =>
      split
      next => simp
      next =>
        split
        next => simp
        next h => simp [State.storeKv_steady h]
  next => exact .refl s

@[simp] theorem execGateCopyDone_completes (s : State) : Completes s (execGateCopyDone s) := .next (by simp)

/-! ### Exits -/

@[simp] theorem execVocabularyRequestArrival_completes (p : BeatPacket) (logits : List FP32) (exitCluster : Nat)
    (s : State) : Completes s (execVocabularyRequestArrival p logits exitCluster s) := .next (by simp)

@[simp] theorem execCandidateSetArrival_completes (p : BeatPacket) (s : State) :
    Completes s (execCandidateSetArrival p s) := by
  dsimp only [execCandidateSetArrival]
  refine .next ?_
  (repeat' split) <;> simp

@[simp] theorem execVocabMerge_completes (tag lane entryCluster : Nat) (s : State) :
    Completes s (execVocabMerge tag lane entryCluster s) := by
  dsimp only [execVocabMerge]
  refine .next ?_
  split <;> simp

@[simp] theorem execSampleEndExpiry_completes (entryCluster : Nat) (s : State) :
    Completes s (execSampleEndExpiry entryCluster s) := .next (by simp)

/-! ### Ports and the Junction -/

@[simp] theorem execPacketRoute_completes (inPort : Option Nat) (p : Packet) (s : State) :
    Completes s (execPacketRoute inPort p s) := by
  dsimp only [execPacketRoute]
  refine .next ?_
  split <;> simp

@[simp] theorem execMulticastInject_completes (cls group mask srcCluster : Nat) (body : Body) (s : State) :
    Completes s (execMulticastInject cls group mask srcCluster body s) := .next (by simp)

@[simp] theorem execPortFail_completes (port : Nat) (s : State) : Completes s (execPortFail port s) := .next (by simp)

@[simp] theorem execPortSilenceTimeout_completes (port : Nat) (s : State) :
    Completes s (execPortSilenceTimeout port s) := .next (by simp)

@[simp] theorem execLaneFault_completes (port lane : Nat) (s : State) :
    Completes s (execLaneFault port lane s) := .next (by simp)

@[simp] theorem execLaneRemapDone_completes (port : Nat) (s : State) : Completes s (execLaneRemapDone port s) := by
  dsimp only [execLaneRemapDone]
  refine .next ?_
  split <;> simp

@[simp] theorem execPortTrainingDone_completes (port : Nat) (up : Bool) (peer peerPort : Nat) (s : State) :
    Completes s (execPortTrainingDone port up peer peerPort s) := .next (by simp)

@[simp] theorem execPortPeerPresent_completes (port : Nat) (s : State) :
    Completes s (execPortPeerPresent port s) := .next (by simp)

@[simp] theorem execRetryRequest_completes (port seqNo : Nat) (s : State) :
    Completes s (execRetryRequest port seqNo s) := .next (by simp)

@[simp] theorem execFlitReceive_completes (port : Nat) (flit : List Byte) (fixed lost : Nat) (s : State) :
    Completes s (execFlitReceive port flit fixed lost s) := .next (by simp)

@[simp] theorem execDrainDone_completes (s : State) : Completes s (execDrainDone s) := .next (by simp)

@[simp] theorem execDrainTimeout_completes (s : State) : Completes s (execDrainTimeout s) := .next (by simp)

@[simp] theorem execCombineRecordTimeout_completes (record : Nat) (s : State) :
    Completes s (execCombineRecordTimeout record s) := by
  dsimp only [execCombineRecordTimeout]
  refine .next ?_
  split <;> simp

/-! ### Platforms -/

@[simp] theorem execConsistHeaderArrival_completes (p : BeatPacket) (s : State) :
    Completes s (execConsistHeaderArrival p s) := .next (by simp)

@[simp] theorem execConsistArrival_completes (cluster : Nat) (p : BeatPacket) (s : State) :
    Completes s (execConsistArrival cluster p s) := .next (by simp)

@[simp] theorem execSegmentSeal_completes (core : Nat) (s : State) :
    Completes s (execSegmentSeal core s) := .next (by simp)

@[simp] theorem execIntakeClose_completes (s : State) : Completes s (execIntakeClose s) := .next (by simp)

@[simp] theorem execExpertAnswerSend_completes (pslot : Nat) (tok : TokenId) (choice : Nat) (overrun : Bool)
    (src : Nat) (s : State) : Completes s (execExpertAnswerSend pslot tok choice overrun src s) := by
  dsimp only [execExpertAnswerSend]
  refine .next ?_
  split <;> simp

@[simp] theorem execPredictionComplete_completes (pslot : Nat) (tok : TokenId) (choice : Nat) (s : State) :
    Completes s (execPredictionComplete pslot tok choice s) := by
  dsimp only [execPredictionComplete]
  refine .next ?_
  split <;> simp

@[simp] theorem execAuditWindowClose_completes (s : State) : Completes s (execAuditWindowClose s) := .next (by simp)

/-! ### Remote memory and the mover -/

@[simp] theorem execMvRemoteRead_completes (core rank jva len : Nat) (dst : Addr) (cache : Bool) (s : State) :
    Completes s (execMvRemoteRead core rank jva len dst cache s) := .next (by simp)

@[simp] theorem execMvRemoteWrite_completes (core rank jva len : Nat) (src : Addr) (s : State) :
    Completes s (execMvRemoteWrite core rank jva len src s) := .next (by simp)

@[simp] theorem execMvRemoteAdd_completes (core rank jva : Nat) (dtype : AddType) (src : Addr) (s : State) :
    Completes s (execMvRemoteAdd core rank jva dtype src s) := .next (by simp)

@[simp] theorem execMvInvalidate_completes (core rank jva len : Nat) (s : State) :
    Completes s (execMvInvalidate core rank jva len s) := .next (by simp)

@[simp] theorem execRmRead_completes (p : RmPacket) (s : State) : Completes s (execRmRead p s) := .next (by simp)

@[simp] theorem execRmWrite_completes (p : RmPacket) (s : State) : Completes s (execRmWrite p s) := .next (by simp)

@[simp] theorem execRmAdd_completes (p : RmPacket) (s : State) : Completes s (execRmAdd p s) := .next (by simp)

@[simp] theorem execReadData_completes (p : RmPacket) (s : State) : Completes s (execReadData p s) := .next (by simp)

@[simp] theorem execAck_completes (p : RmPacket) (s : State) : Completes s (execAck p s) := .next (by simp)

@[simp] theorem execNak_completes (p : RmPacket) (s : State) : Completes s (execNak p s) := .next (by simp)

@[simp] theorem execInvalidate_completes (p : RmPacket) (s : State) :
    Completes s (execInvalidate p s) := .next (by simp)

@[simp] theorem execInvAck_completes (p : RmPacket) (s : State) : Completes s (execInvAck p s) := by
  dsimp only [execInvAck]
  refine .next ?_
  split <;> simp

@[simp] theorem execRmTimeout_completes (core tag : Nat) (s : State) : Completes s (execRmTimeout core tag s) := by
  dsimp only [execRmTimeout]
  refine .next ?_
  split <;> simp

@[simp] theorem execRecallDone_completes (s : State) : Completes s (execRecallDone s) := .next (by simp)

@[simp] theorem execMoverTransfer_completes (core : Nat) (add : Option AddType) (src dst : MvPlace) (len : Nat)
    (s : State) : Completes s (execMoverTransfer core add src dst len s) := by
  dsimp only [execMoverTransfer]
  refine .next ?_
  (repeat' split) <;> simp

@[simp] theorem execCxlCompletion_completes (core id : Nat) (poisoned : Bool) (s : State) :
    Completes s (execCxlCompletion core id poisoned s) := by
  dsimp only [execCxlCompletion]
  refine .next ?_
  (repeat' split) <;> simp

@[simp] theorem execCxlTimeout_completes (core id : Nat) (s : State) : Completes s (execCxlTimeout core id s) := by
  dsimp only [execCxlTimeout]
  refine .next ?_
  split <;> simp

@[simp] theorem execAtomicAdd_completes (core cluster off : Nat) (wide : Bool) (v : Nat) (dst : Addr) (s : State) :
    Completes s (execAtomicAdd core cluster off wide v dst s) := .next (by simp)

@[simp] theorem execAtomicMin_completes (core cluster off : Nat) (wide : Bool) (v : Nat) (dst : Addr) (s : State) :
    Completes s (execAtomicMin core cluster off wide v dst s) := .next (by simp)

@[simp] theorem execAtomicMax_completes (core cluster off : Nat) (wide : Bool) (v : Nat) (dst : Addr) (s : State) :
    Completes s (execAtomicMax core cluster off wide v dst s) := .next (by simp)

@[simp] theorem execAtomicSwap_completes (core cluster off : Nat) (wide : Bool) (v : Nat) (dst : Addr) (s : State) :
    Completes s (execAtomicSwap core cluster off wide v dst s) := .next (by simp)

@[simp] theorem execCompareSwap_completes (core cluster off : Nat) (wide : Bool) (expected v : Nat) (dst : Addr)
    (s : State) : Completes s (execCompareSwap core cluster off wide expected v dst s) := .next (by simp)

/-! ### Collectives -/

@[simp] theorem execReady_completes (p : CollPacket) (s : State) : Completes s (execReady p s) := .next (by simp)

@[simp] theorem execData_completes (p : CollPacket) (s : State) : Completes s (execData p s) := by
  refine .next ((State.withColl_steady s p _ fun t i => ?_).mpr (.refl s))
  dsimp only
  repeat' split
  all_goals simp

@[simp] theorem execCollAck_completes (p : CollPacket) (s : State) : Completes s (execCollAck p s) := .next (by simp)

@[simp] theorem execResend_completes (p : CollPacket) (s : State) : Completes s (execResend p s) := by
  refine .next ((State.withColl_steady s p _ fun t i => ?_).mpr (.refl s))
  dsimp only
  split <;> simp

@[simp] theorem execAbort_completes (p : CollPacket) (s : State) : Completes s (execAbort p s) := .next (by simp)

@[simp] theorem execCollTimeout_completes (group seqNo : Nat) (s : State) :
    Completes s (execCollTimeout group seqNo s) := by
  dsimp only [execCollTimeout]
  refine .next ?_
  split <;> simp

/-! ### Errors -/

@[simp] theorem execUndeliverableNoticeArrival_completes (cause : Nat) (copy : List Byte) (s : State) :
    Completes s (execUndeliverableNoticeArrival cause copy s) := .next (by simp)

@[simp] theorem execTruncatedPacketArrival_completes (p : Packet) (s : State) :
    Completes s (execTruncatedPacketArrival p s) := by
  dsimp only [execTruncatedPacketArrival]
  refine .next ?_
  split <;> simp

@[simp] theorem execSramUeDetect_completes (store : SramStore) (corrected : Bool) (s : State) :
    Completes s (execSramUeDetect store corrected s) := .next (by simp)

@[simp] theorem execHbmUeDetect_completes (line : Nat) (patrol corrected : Bool) (reader : Option (Nat × Nat))
    (s : State) : Completes s (execHbmUeDetect line patrol corrected reader s) := by
  unfold execHbmUeDetect
  refine .next ?_
  split
  next => exact .refl s
  next =>
    split
    next => simp
    next =>
      extract_lets _ a b c d
      have ha : Steady s a := by unfold a; simp
      have hb : Steady s b := by unfold b; simp [ha]
      have hc : Steady s c := by unfold c; simp [hb]
      have hd : Steady s d := by unfold d; simp [hc]
      split
      next => exact hd
      next =>
        split
        next => exact hd
        next => split <;> simp [hd]

@[simp] theorem execImageLoadDone_completes (pslot : Nat) (readOk : Bool) (s : State) :
    Completes s (execImageLoadDone pslot readOk s) := by
  dsimp only [execImageLoadDone]
  refine .next ?_
  (repeat' split) <;> simp

@[simp] theorem execReadDisturbRelocate_completes (stack block : Nat) (s : State) :
    Completes s (execReadDisturbRelocate stack block s) := .next (by simp)

@[simp] theorem execForcedRelocation_completes (stack channel : Nat) (s : State) :
    Completes s (execForcedRelocation stack channel s) := by
  dsimp only [execForcedRelocation]
  refine .next ?_
  (repeat' split) <;> simp

@[simp] theorem execBlockRetire_completes (stack block spare : Nat) (s : State) :
    Completes s (execBlockRetire stack block spare s) := .next (by simp)

@[simp] theorem execCxlPortDown_completes (port : Nat) (s : State) :
    Completes s (execCxlPortDown port s) := .next (by simp)

@[simp] theorem execCxlPortRetrain_completes (port : Nat) (full : Bool) (s : State) :
    Completes s (execCxlPortRetrain port full s) := .next (by simp)

@[simp] theorem execDramRefresh_completes (channel : Nat) (_foreground : Bool) (s : State) :
    Completes s (execDramRefresh channel _foreground s) := .next (by simp)

/-! ### Commits -/

@[simp] theorem execCommitApply_completes (r : Role) (s : State) : Completes s (execCommitApply r s) := .next (by simp)

/-! ### Tenants and the swap -/

@[simp] theorem execInterferenceMinuteClose_completes (s : State) :
    Completes s (execInterferenceMinuteClose s) := .next (by simp)

@[simp] theorem execSwapArm_completes (r : Role) (s : State) : Completes s (execSwapArm r s) := .next (by simp)

@[simp] theorem execSwapDisarm_completes (r : Role) (s : State) : Completes s (execSwapDisarm r s) := .next (by simp)

@[simp] theorem execSwapEpoch_completes (s : State) : Completes s (execSwapEpoch s) := .next (by simp)

@[simp] theorem execSwapSaveStart_completes (s : State) : Completes s (execSwapSaveStart s) := .next (by simp)

@[simp] theorem execSwapSaveDone_completes (s : State) : Completes s (execSwapSaveDone s) := .next (by simp)

@[simp] theorem execSwapScrubDone_completes (s : State) : Completes s (execSwapScrubDone s) := by
  refine ⟨_, rfl, ?_⟩
  split
  next => exact s.afterScrub_keeps
  next => exact .refl s

@[simp] theorem execSwapRestoreDone_completes (readOk : Bool) (s : State) :
    Completes s (execSwapRestoreDone readOk s) := by
  refine ⟨_, rfl, ?_⟩
  dsimp only
  split
  next => exact .refl s
  next =>
    split
    next => exact Steady.keeps (by simp)
    next =>
      split
      next => exact s.failRestore_keeps _
      next =>
        split
        next => exact Steady.keeps (by simp)
        next => exact s.failRestore_keeps _

@[simp] theorem execSwapResume_completes (s : State) : Completes s (execSwapResume s) := .next (by simp)

@[simp] theorem execTenantRegister_completes (r : Role) (slot tenant share : Nat) (s : State) :
    Completes s (execTenantRegister r slot tenant share s) := .next (by simp)

@[simp] theorem execTenantDeregister_completes (r : Role) (slot : Nat) (s : State) :
    Completes s (execTenantDeregister r slot s) := .next (by simp)

@[simp] theorem execReproKeyRecompute_completes (s : State) : Completes s (execReproKeyRecompute s) := .next (by simp)

/-! ### Managers and partitions -/

@[simp] theorem execHello_completes (location grade stepping domain : Nat) (s : State) :
    Completes s (execHello location grade stepping domain s) := .next (by simp)

@[simp] theorem execAdmitReply_completes (manager domain : Nat) (s : State) :
    Completes s (execAdmitReply manager domain s) := .next (by simp)

@[simp] theorem execAdopt_completes (standby domain : Nat) (s : State) :
    Completes s (execAdopt standby domain s) := .next (by simp)

@[simp] theorem execHeartbeatSend_completes (s : State) : Completes s (execHeartbeatSend s) := .next (by simp)

@[simp] theorem execHeartbeatReceive_completes (sender : Nat) (s : State) :
    Completes s (execHeartbeatReceive sender s) := .next (by simp)

@[simp] theorem execMgrSilenceExpiry_completes (s : State) : Completes s (execMgrSilenceExpiry s) := .next (by simp)

@[simp] theorem execHeartbeatMissing_completes (dev : Nat) (s : State) : Completes s (execHeartbeatMissing dev s) := by
  dsimp only [execHeartbeatMissing]
  refine .next ?_
  (repeat' split) <;> simp

@[simp] theorem execPortFailed_completes (port peer reporter : Nat) (s : State) :
    Completes s (execPortFailed port peer reporter s) := .next (by simp)

@[simp] theorem execLaneRemapped_completes (port lane reporter : Nat) (s : State) :
    Completes s (execLaneRemapped port lane reporter s) := .next (by simp)

@[simp] theorem execDeviceFault_completes (cause reporter : Nat) (s : State) :
    Completes s (execDeviceFault cause reporter s) := .next (by simp)

@[simp] theorem execTenantError_completes (unit cause reporter : Nat) (s : State) :
    Completes s (execTenantError unit cause reporter s) := .next (by simp)

@[simp] theorem execMgmtCoreMiss_completes (s : State) : Completes s (execMgmtCoreMiss s) := .next (by simp)

@[simp] theorem execStart_completes (r : Role) (s : State) : Completes s (execStart r s) := .next (by simp)

@[simp] theorem execTeardown_completes (r : Role) (s : State) : Completes s (execTeardown r s) := .next (by simp)

@[simp] theorem execPartitionRun_completes (s : State) : Completes s (execPartitionRun s) := .next (by simp)

@[simp] theorem execTeardownBeat_completes (s : State) : Completes s (execTeardownBeat s) := .next (by simp)

@[simp] theorem execReadmit_completes (r : Role) (beat : Nat) (s : State) :
    Completes s (execReadmit r beat s) := .next (by simp)

@[simp] theorem execRejoin_completes (s : State) : Completes s (execRejoin s) := .next (by simp)

@[simp] theorem execFailover_completes (lost standin : Nat) (s : State) :
    Completes s (execFailover lost standin s) := .next (by simp)

@[simp] theorem execReplicaLoadDone_completes (rank : Nat) (ok : Bool) (s : State) :
    Completes s (execReplicaLoadDone rank ok s) := by
  dsimp only [execReplicaLoadDone]
  refine .next ?_
  (repeat' split) <;> simp

/-! ### Non-volatile memory, updates and attestation -/

@[simp] theorem execStore_completes (r : Role) (value : Nat) (s : State) :
    Completes s (execStore r value s) := .next (by simp)

@[simp] theorem execRestoreDefaults_completes (r : Role) (value : Nat) (s : State) :
    Completes s (execRestoreDefaults r value s) := .next (by simp)

@[simp] theorem execStoreDone_completes (readBackOk : Bool) (s : State) : Completes s (execStoreDone readBackOk s) := by
  dsimp only [execStoreDone]
  refine .next ?_
  split <;> simp

@[simp] theorem execFwUpdate_completes (r : Role) (image : List Byte) (s : State) :
    Completes s (execFwUpdate r image s) := .next (by simp)

@[simp] theorem execAttestNonce_completes (r : Role) (nonce : List Byte) (s : State) :
    Completes s (execAttestNonce r nonce s) := .next (by simp)

@[simp] theorem execAttestCapture_completes (s : State) : Completes s (execAttestCapture s) := .next (by simp)

@[simp] theorem execAttestSigned_completes (r : Role) (s : State) : Completes s (execAttestSigned r s) := by
  dsimp only [execAttestSigned]
  refine .next ?_
  split <;> simp

@[simp] theorem execHbmMargin_completes (r : Role) (s : State) : Completes s (execHbmMargin r s) := .next (by simp)

@[simp] theorem execEyeScan_completes (r : Role) (s : State) : Completes s (execEyeScan r s) := .next (by simp)

@[simp] theorem execFlashCheck_completes (r : Role) (s : State) : Completes s (execFlashCheck r s) := .next (by simp)

@[simp] theorem execSramTest_completes (r : Role) (s : State) : Completes s (execSramTest r s) := .next (by simp)

@[simp] theorem execDiagDone_completes (recs : List DiagRec) (s : State) :
    Completes s (execDiagDone recs s) := .next (by simp)

@[simp] theorem execClipFlagsClear_completes (r : Role) (bits : List Byte) (s : State) :
    Completes s (execClipFlagsClear r bits s) := .next (by simp)

@[simp] theorem execAuditAlarmClear_completes (r : Role) (value : Nat) (s : State) :
    Completes s (execAuditAlarmClear r value s) := .next (by simp)

@[simp] theorem execClipWindowClose_completes (s : State) : Completes s (execClipWindowClose s) := .next (by simp)

/-! ### Reset and boot -/

@[simp] theorem execResetAssert_completes (pin : ResetPin) (widthNs : Nat) (s : State) :
    Completes s (execResetAssert pin widthNs s) := by
  unfold execResetAssert
  extract_lets f acts u
  have hu : Steady s u := by unfold u f; simp
  refine ⟨_, rfl, ?_⟩
  split
  next => exact hu.keeps.trans (u.resetWith_keeps _)
  next => exact hu.keeps

@[simp] theorem execResetRelease_completes (pin : ResetPin) (devId : Nat) (s : State) :
    Completes s (execResetRelease pin devId s) := .next (by simp)

@[simp] theorem execRom_completes (puf random : List Byte) (s : State) :
    Completes s (execRom puf random s) := .next (by simp)

@[simp] theorem execNvBank_completes (s : State) : Completes s (execNvBank s) := by
  dsimp only [execNvBank]
  refine .next ?_
  (repeat' split) <;> simp [↓State.setBoot_steady, ↓steady_mk]

@[simp] theorem execFirmware_completes (s : State) : Completes s (execFirmware s) := by
  dsimp only [execFirmware]
  refine .next ?_
  (repeat' split) <;> simp

@[simp] theorem execHbm_completes (recs : List DiagRec) (trained : Bool) (s : State) :
    Completes s (execHbm recs trained s) := .next (by simp)

@[simp] theorem execFlash_completes (recs : List DiagRec) (cxl0 cxl1 ext0 ext1 : Nat) (s : State) :
    Completes s (execFlash recs cxl0 cxl1 ext0 ext1 s) := by
  dsimp only [execFlash]
  refine .next ?_
  split
  next => exact .refl s
  next =>
    split
    next => simp
    next =>
      split
      next => simp
      next =>
        rw [State.setBoot_steady, steady_nv]
        · simp
        · rfl

@[simp] theorem execLinks_completes (recs : List DiagRec) (s : State) :
    Completes s (execLinks recs s) := .next (by simp)

@[simp] theorem execDiscovery_completes (s : State) : Completes s (execDiscovery s) := .next (by simp)

@[simp] theorem execI3cTargetReady_completes (s : State) : Completes s (execI3cTargetReady s) := .next (by simp)

@[simp] theorem execThermalSample_completes (milliC : Int) (powerMw : Nat) (s : State) :
    Completes s (execThermalSample milliC powerMw s) := .next (by simp)

@[simp] theorem execThermalTrip_completes (s : State) : Completes s (execThermalTrip s) := ⟨_, rfl, s.resetWith_keeps _⟩

@[simp] theorem execBrefLoss_completes (s : State) : Completes s (execBrefLoss s) := .next (by simp)

@[simp] theorem execBrefValid_completes (s : State) : Completes s (execBrefValid s) := .next (by simp)

@[simp] theorem execVidStep_completes (target : Nat) (s : State) : Completes s (execVidStep target s) := .next (by simp)

/-! ### Streams -/

@[simp] theorem execBatch_completes (r : Role) (rec : BitVec 128) (s : State) :
    Completes s (execBatch r rec s) := .next (by simp)

@[simp] theorem execLane_completes (r : Role) (rec : BitVec 128) (s : State) :
    Completes s (execLane r rec s) := .next (by simp)

@[simp] theorem execTokens_completes (r : Role) (rec : BitVec 128) (s : State) :
    Completes s (execTokens r rec s) := .next (by simp)

@[simp] theorem execClose_completes (r : Role) (rec : BitVec 128) (s : State) :
    Completes s (execClose r rec s) := .next (by simp)

@[simp] theorem execReservedRecordKind_completes (r : Role) (rec : BitVec 128) (s : State) :
    Completes s (execReservedRecordKind r rec s) := .next (by simp)

@[simp] theorem execStreamOutRead_completes (r : Role) (n : Nat) (s : State) :
    Completes s (execStreamOutRead r n s) := .next (by simp)

@[simp] theorem execTokenLost_completes (tag lane : Nat) (s : State) : Completes s (execTokenLost tag lane s) := by
  dsimp only [execTokenLost]
  refine .next ?_
  (repeat' split) <;> simp

@[simp] theorem execSampledTokenArrival_completes (p : BeatPacket) (s : State) :
    Completes s (execSampledTokenArrival p s) := by
  dsimp only [execSampledTokenArrival]
  refine .next ?_
  (repeat' split) <;> simp

@[simp] theorem execEndNoticeArrival_completes (tag lane position gen cause : Nat) (s : State) :
    Completes s (execEndNoticeArrival tag lane position gen cause s) := by
  dsimp only [execEndNoticeArrival]
  refine .next ?_
  (repeat' split) <;> simp

@[simp] theorem execCancelTakesEffect_completes (tag : Nat) (s : State) :
    Completes s (execCancelTakesEffect tag s) := by
  dsimp only [execCancelTakesEffect]
  refine .next ?_
  split <;> simp

/-! ### The dictionary -/

@[simp] theorem execCommitNextTick_completes (r : Role) (s : State) :
    Completes s (execCommitNextTick r s) := .next (by simp)

@[simp] theorem execCommitAtBeat_completes (r : Role) (s : State) :
    Completes s (execCommitAtBeat r s) := .next (by simp)

@[simp] theorem execCommitCancel_completes (r : Role) (s : State) :
    Completes s (execCommitCancel r s) := .next (by simp)

@[simp] theorem execCommitDiscard_completes (r : Role) (s : State) :
    Completes s (execCommitDiscard r s) := .next (by simp)

@[simp] theorem execHallTimeSet_completes (r : Role) (t : Nat) (s : State) :
    Completes s (execHallTimeSet r t s) := .next (by simp)

@[simp] theorem execDictionaryWrite_completes (r : Role) (index sub : Nat) (value : List Byte) (s : State) :
    Completes s (execDictionaryWrite r index sub value s) := .next (by simp)

@[simp] theorem execBatchCancel_completes (r : Role) (tag : Nat) (s : State) :
    Completes s (execBatchCancel r tag s) := .next (by simp)

@[simp] theorem execBankWrite_completes (r : Role) (core bank : Nat) (obj : List Byte) (s : State) :
    Completes s (execBankWrite r core bank obj s) := .next (by simp)

@[simp] theorem execSegTemplatesWrite_completes (r : Role) (core : Nat) (obj : List Byte) (s : State) :
    Completes s (execSegTemplatesWrite r core obj s) := .next (by simp)

@[simp] theorem execDrainStart_completes (r : Role) (s : State) : Completes s (execDrainStart r s) := .next (by simp)

@[simp] theorem execDrainRelease_completes (r : Role) (s : State) :
    Completes s (execDrainRelease r s) := .next (by simp)

@[simp] theorem execRmRecall_completes (r : Role) (jpn : Nat) (s : State) :
    Completes s (execRmRecall r jpn s) := .next (by simp)

@[simp] theorem execCollStart_completes (src : CollSource) (s : State) : Completes s (execCollStart src s) := by
  dsimp only [execCollStart]
  refine .next ?_
  split <;> simp

@[simp] theorem execAlloc_completes (r : Role) (tier : Nat) (spread : Bool) (port cluster count : Nat) (s : State) :
    Completes s (execAlloc r tier spread port cluster count s) := .next (by simp)

@[simp] theorem execFree_completes (r : Role) (home tier : Nat) (s : State) :
    Completes s (execFree r home tier s) := .next (by simp)

@[simp] theorem execMove_completes (r : Role) (home tier : Nat) (spread : Bool) (port cluster : Nat) (s : State) :
    Completes s (execMove r home tier spread port cluster s) := .next (by simp)

@[simp] theorem execPark_completes (r : Role) (tag lane tier port : Nat) (s : State) :
    Completes s (execPark r tag lane tier port s) := .next (by simp)

@[simp] theorem execUnpark_completes (r : Role) (tag lane : Nat) (s : State) :
    Completes s (execUnpark r tag lane s) := .next (by simp)

@[simp] theorem execImageStore_completes (r : Role) (bytes : List Byte) (s : State) :
    Completes s (execImageStore r bytes s) := .next (by simp)

@[simp] theorem execImageDelete_completes (r : Role) (id : Nat) (s : State) :
    Completes s (execImageDelete r id s) := .next (by simp)

@[simp] theorem execImageLoad_completes (r : Role) (pslot : Nat) (s : State) :
    Completes s (execImageLoad r pslot s) := .next (by simp)

@[simp] theorem execSessionBind_completes (r : Role) (slot : Nat) (s : State) :
    Completes s (execSessionBind r slot s) := .next (by simp)

/-! ### The host -/

@[simp] theorem execRead_completes (r : Role) (sel len : Word64) (s : State) :
    Completes s (execRead r sel len s) := .next (by simp)

@[simp] theorem execWrite_completes (r : Role) (sel len : Word64) (s : State) :
    Completes s (execWrite r sel len s) := .next (by simp)

@[simp] theorem execPatch_completes (r : Role) (sel len : Word64) (s : State) :
    Completes s (execPatch r sel len s) := .next (by simp)

@[simp] theorem execCancel_completes (r : Role) (s : State) : Completes s (execCancel r s) := by
  dsimp only [execCancel]
  refine .next ?_
  (repeat' split) <;> simp

@[simp] theorem execDxDataWrite_completes (r : Role) (words : List Word64) (s : State) :
    Completes s (execDxDataWrite r words s) := .next (by simp)

@[simp] theorem execDxDataRead_completes (r : Role) (n : Nat) (s : State) :
    Completes s (execDxDataRead r n s) := .next (by simp)

@[simp] theorem execDxSegmentMove_completes (r : Role) (s : State) :
    Completes s (execDxSegmentMove r s) := .next (by simp)

@[simp] theorem execDxIdleTimeout_completes (r : Role) (s : State) :
    Completes s (execDxIdleTimeout r s) := .next (by simp)

@[simp] theorem execBadWindowAccess_completes (isRead : Bool) (len : Nat) (s : State) :
    Completes s (execBadWindowAccess isRead len s) := .next (by simp)

@[simp] theorem execFwUpdateDone_completes (readBackOk : Bool) (s : State) :
    Completes s (execFwUpdateDone readBackOk s) := .next (by simp)

@[simp] theorem execDxRequest_completes (src : Nat) (h : DxHdr) (payload : List Byte) (s : State) :
    Completes s (execDxRequest src h payload s) := .next (by simp)

@[simp] theorem execDxResponse_completes (h : DxHdr) (payload : List Byte) (s : State) :
    Completes s (execDxResponse h payload s) := .next (by simp)

@[simp] theorem execDxRemoteTimeout_completes (seqNo : Nat) (s : State) :
    Completes s (execDxRemoteTimeout seqNo s) := .next (by simp)

@[simp] theorem execI3cRead_completes (index sub : Nat) (s : State) :
    Completes s (execI3cRead index sub s) := .next (by simp)

@[simp] theorem execI3cWrite_completes (index sub : Nat) (value : List Byte) (s : State) :
    Completes s (execI3cWrite index sub value s) := .next (by simp)

@[simp] theorem execI3cStatusRead_completes (s : State) : Completes s (execI3cStatusRead s) := .next (by simp)

@[simp] theorem execSetdasa_completes (static dyn : Nat) (s : State) :
    Completes s (execSetdasa static dyn s) := .next (by simp)

@[simp] theorem execEntdaa_completes (dyn : Nat) (s : State) : Completes s (execEntdaa dyn s) := .next (by simp)

/-! ### Time and the beat -/

@[simp] theorem execManifestArrival_completes (p : BeatPacket) (s : State) :
    Completes s (execManifestArrival p s) := .next (by simp)

@[simp] theorem execTick_completes (unfinished : List Unfinished) (s : State) :
    Completes s (execTick unfinished s) := .next (by simp)

@[simp] theorem execCut_completes (unit : Nat) (s : State) : Completes s (execCut unit s) := by
  dsimp only [execCut]
  refine .next ?_
  split <;> simp

@[simp] theorem execMaintenanceSlot_completes (corrected : Nat) (audited : List Nat) (s : State) :
    Completes s (execMaintenanceSlot corrected audited s) := .next (by simp)

@[simp] theorem execTimeExchange_completes (port domain managerTime : Nat) (offsetPs : Int)
    (delayPs boundPs managerBoundPs : Nat) (s : State) :
    Completes s (execTimeExchange port domain managerTime offsetPs delayPs boundPs managerBoundPs s) := .next (by simp)

@[simp] theorem execHoldoverEntry_completes (s : State) : Completes s (execHoldoverEntry s) := .next (by simp)

@[simp] theorem execTimeHoldEntry_completes (s : State) : Completes s (execTimeHoldEntry s) := .next (by simp)

/-! ### The engines -/

@[simp] theorem execAeTileLoad_completes (core : Nat) (t : TileDesc) (s : State) :
    Completes s (execAeTileLoad core t s) := .next (by simp)

@[simp] theorem execWeightSwap_completes (core waited : Nat) (s : State) :
    Completes s (execWeightSwap core waited s) := .next (by simp)

@[simp] theorem execAePass_completes (core : Nat) (p : AePass) (s : State) :
    Completes s (execAePass core p s) := .next (by simp)

@[simp] theorem execReadout_completes (core : Nat) (d : ReadOut) (s : State) : Completes s (execReadout core d s) := by
  dsimp only [execReadout]
  refine .next ?_
  split <;> simp

@[simp] theorem execSePass_completes (core : Nat) (p : SePass) (s : State) :
    Completes s (execSePass core p s) := .next (by simp)

@[simp] theorem execVeOperation_completes (core : Nat) (o : VeOp) (s : State) :
    Completes s (execVeOperation core o s) := .next (by simp)

@[simp] theorem execQuantise_completes (core : Nat) (d : QuantDesc) (s : State) :
    Completes s (execQuantise core d s) := .next (by simp)

@[simp] theorem execDequantise_completes (core : Nat) (d : DequantDesc) (s : State) :
    Completes s (execDequantise core d s) := .next (by simp)

@[simp] theorem execRotate_completes (core : Nat) (d : DequantDesc) (s : State) :
    Completes s (execRotate core d s) := .next (by simp)

@[simp] theorem execReadOutToMx_completes (core : Nat) (d : ReadMx) (s : State) :
    Completes s (execReadOutToMx core d s) := .next (by simp)

@[simp] theorem execReadOutWithInverseRotation_completes (core : Nat) (d : ReadMx) (s : State) :
    Completes s (execReadOutWithInverseRotation core d s) := .next (by simp)

/-! ### Every command -/

/-- Each command is the operation it is dispatched to. -/
theorem exec_completes (i : Instr) (s : State) : Completes s (exec i s) := by
  cases i <;> simp

/-- Settles O4: each command answers a next state that keeps the three, by the rule of its own operation. -/
theorem everyCommandCompletes : Obligations.EveryCommandCompletes := by
  intro i s
  obtain ⟨t, ht, hk⟩ := exec_completes i s
  exact ⟨t, ht, hk.pending, hk.factory, hk.numbers⟩

end Sys2Proof.Machine
end

section
/-! SUPPORT and O15. The mover's transfers and atomics: what a repeat that begins and settles leaves as it was, what a write
at a place changes, and what a failed check records. -/

namespace Sys2Proof.Machine

open Sys2Proof

/-! ### A repeat of the mover -/

/-- The sequencer's work never changes a scratchpad. -/
theorem SeqOnly.scratch {c : Nat} {s t : State} (h : SeqOnly c s t) : (t.core c).scratch = (s.core c).scratch :=
  congrArg Prod.fst h.store

theorem SeqOnly.beat {c : Nat} {s t : State} (h : SeqOnly c s t) : t.beat = s.beat := by rw [h.rest]
theorem SeqOnly.tiers {c : Nat} {s t : State} (h : SeqOnly c s t) : t.tiers = s.tiers := by rw [h.rest]
theorem SeqOnly.pools {c : Nat} {s t : State} (h : SeqOnly c s t) : t.pools = s.pools := by rw [h.rest]
theorem SeqOnly.platforms {c : Nat} {s t : State} (h : SeqOnly c s t) : t.platforms = s.platforms := by rw [h.rest]
theorem SeqOnly.rmem {c : Nat} {s t : State} (h : SeqOnly c s t) : t.rmem = s.rmem := by rw [h.rest]
theorem SeqOnly.doms {c : Nat} {s t : State} (h : SeqOnly c s t) : t.doms = s.doms := by rw [h.rest]

/-- A cluster's shared SRAM is read from the tiers alone. -/
theorem State.sharedMem_of_tiers {s t : State} (h : t.tiers = s.tiers) (x : Nat) : t.sharedMem x = s.sharedMem x := by
  unfold State.sharedMem; rw [h]

/-- A home's bytes are read from the tiers alone. -/
theorem State.homeRead_of_tiers {s t : State} (h : t.tiers = s.tiers) (a off n : Nat) :
    t.homeRead a off n = s.homeRead a off n := by
  unfold State.homeRead; rw [h]

/-- Whether a choice's hidden vector can be read, and what it is, hangs on the Platforms' queues alone. -/
theorem State.readChoice_of_platforms {s t : State} (h : t.platforms = s.platforms) {p choice : Nat} {tok : TokenId}
    {v : List BF16} {u : State} (hr : s.readChoice p tok choice false = some (v, u)) :
    t.readChoice p tok choice false = some (v, t) := by
  have hq : t.findChoice p tok choice = s.findChoice p tok choice := by
    unfold State.findChoice State.queueOf; rw [h]
  unfold State.readChoice at hr ⊢
  rw [hq]
  split at hr
  · cases hr
  · split at hr
    · cases hr
    · cases hr; simp [*]

theorem State.mvBusy_only (s : State) (c n : Nat) : SeqOnly c (s.mvBusy n) ((s.beginRepeat c).2.mvBusy n) := by
  unfold State.beginRepeat
  dsimp only
  split
  · exact SeqOnly.refl c _
  · exact SeqOnly.setCore (s.mvBusy n) _ rfl

theorem State.settleRepeat_only (s : State) (c : Nat) (rep : Option Nat) : SeqOnly c s (s.settleRepeat c rep) := by
  unfold State.settleRepeat
  dsimp only
  split
  · exact State.repeatDone_only s c .mv
  · exact SeqOnly.refl c s

/-- The rank of the device is found by the numbers, byte strings and address that no sequencer changes. -/
theorem SeqOnly.myRank {c : Nat} {s t : State} (h : SeqOnly c s t) : t.myRank = s.myRank := by
  have hc : t.reg Reg.rankCount = s.reg Reg.rankCount := h.reg _ (by decide) (by decide) (by decide)
  have hl : t.reg Reg.locationActive = s.reg Reg.locationActive := h.reg _ (by decide) (by decide) (by decide)
  unfold State.myRank State.myRankOpt State.rankRecord State.here State.dom
  rw [hc, hl, h.doms]

/-! ### Writing at a place -/

@[simp] theorem State.fixPlace_shared (s : State) (c o : Nat) : s.fixPlace c (.shared o) = .shared o := rfl
@[simp] theorem State.fixPlace_scratch (s : State) (c : Nat) (a : Addr) :
    s.fixPlace c (.scratch a) = .scratch (.lit ((s.core c).addr .mv a)) := rfl

/-- What a scratchpad write leaves in the scratchpad hangs on the scratchpad alone. -/
theorem Core.spWrite_scratch_congr {k l : Core} (h : k.scratch = l.scratch) (a : Nat) (bs : List Byte) :
    (k.spWrite a bs).scratch = (l.spWrite a bs).scratch := by
  unfold Core.spWrite; rw [h]

@[simp] theorem State.mvWrite_scratch (s : State) (c dt a : Nat) (rep : Option Nat) (bs : List Byte) :
    s.mvWrite c dt (.scratch (.lit a)) rep bs = s.updCore c (fun k => k.spWrite a bs) := rfl

@[simp] theorem State.mvWrite_shared (s : State) (c dt o : Nat) (rep : Option Nat) (bs : List Byte) :
    s.mvWrite c dt (.shared o) rep bs = s.sharedWrite (c / 8) o bs := rfl

@[simp] theorem State.core_sharedWrite (s : State) (k a : Nat) (bs : List Byte) (j : Nat) :
    (s.sharedWrite k a bs).core j = s.core j := rfl

@[simp] theorem State.reg_sharedWrite (s : State) (k a : Nat) (bs : List Byte) (j : Nat) :
    (s.sharedWrite k a bs).reg j = s.reg j := rfl

theorem State.sharedMem_sharedWrite (s : State) (k a : Nat) (bs : List Byte) (x : Nat) :
    (s.sharedWrite k a bs).sharedMem x = if x = k then memWrite (s.sharedMem k) a bs else s.sharedMem x := by
  unfold State.sharedWrite State.sharedMem
  simp only [mapGetD_mapSet]

/-- Copying poison changes no byte of a scratchpad or of the shared SRAM. -/
theorem State.mvPoison_bytes (s : State) (c : Nat) (p : MvPlace) (bad : List Nat) :
    ((s.mvPoison c p bad).core c).scratch = (s.core c).scratch ∧ (s.mvPoison c p bad).beat = s.beat ∧
      ∀ x, (s.mvPoison c p bad).sharedMem x = s.sharedMem x := by
  unfold State.mvPoison
  split
  · exact ⟨rfl, rfl, fun _ => rfl⟩
  · cases p with
    | scratch a => exact ⟨by simp [State.core_updCore], rfl, fun _ => rfl⟩
    | shared o => exact ⟨rfl, rfl, fun _ => rfl⟩
    | home a o => dsimp only; split <;> exact ⟨rfl, rfl, fun _ => rfl⟩
    | cell p t ch o l => exact ⟨rfl, rfl, fun _ => rfl⟩
    | kv t l b o => exact ⟨rfl, rfl, fun _ => rfl⟩

/-! ### Failed checks -/

theorem State.placeCause_fixPlace (s : State) (c n op : Nat) (p : MvPlace) :
    s.placeCause n op (s.fixPlace c p) = s.placeCause n op p := by cases p <;> rfl

theorem placeJva_fixPlace (s : State) (c : Nat) (p : MvPlace) : placeJva (s.fixPlace c p) = placeJva p := by
  cases p <;> rfl

/-- A transfer is checked alike whether its scratchpad addresses are operands or fixed. -/
theorem State.mvCause_fixPlace (s : State) (c n : Nat) (add : Option AddType) (src dst : MvPlace) :
    s.mvCause add (s.fixPlace c src) (s.fixPlace c dst) n = s.mvCause add src dst n := by
  simp [State.mvCause, State.placeCause_fixPlace, placeJva_fixPlace]

theorem State.rmError_stores (s : State) (c cause op rank jva : Nat) (e : Option Nat) :
    ((s.rmError c cause op rank jva e).core c).scratch = (s.core c).scratch ∧
      (s.rmError c cause op rank jva e).tiers = s.tiers := by
  cases e with
  | none => exact ⟨rfl, rfl⟩
  | some i => exact ⟨by simp [State.rmError, State.core, State.updCore, State.setCore, Core.incCtr, Core.setCtr], rfl⟩

theorem State.rmError_reg (s : State) (c cause op rank jva : Nat) (e : Option Nat) :
    (s.rmError c cause op rank jva e).reg Reg.rmErrors = (s.reg Reg.rmErrors + 1) % 2 ^ 32 := by
  cases e <;> exact s.reg_count_same Reg.rmErrors 1

/-- The log that keeps the latest 16 keeps the one just added. -/
theorem faultLog_getLast? (l : List α) (x : α) :
    ((l ++ [x]).drop ((l ++ [x]).length - 16)).getLast? = some x := by
  simp [List.getLast?_drop]

theorem State.rmError_log (s : State) (c cause op rank jva : Nat) (e : Option Nat) :
    (s.rmError c cause op rank jva e).rmem.faults.getLast? = some [cause, op, c, rank, jva, s.beatNow % 2 ^ 32] := by
  have hb : (s.count Reg.rmErrors 1).beatNow = s.beatNow := s.reg_count_other 1 (by decide)
  cases e <;> exact hb ▸ faultLog_getLast? s.rmem.faults _

/-- An error of a transfer is recorded as one of a request, after the flash page it may have met is counted. -/
theorem State.transferError_eq (s : State) (c : Nat) (src : MvPlace) (x : Nat × Nat × Nat) :
    ∃ t, s.transferError c src x = t.rmError c x.1 x.2.1 s.myRank x.2.2 (s.mvErrCtr c) ∧
      (t = s ∨ t = s.count Reg.flashUe 1) := by
  unfold State.transferError
  dsimp only
  split
  · split
    · exact ⟨_, rfl, .inr rfl⟩
    · exact ⟨_, rfl, .inl rfl⟩
  · exact ⟨_, rfl, .inl rfl⟩

/-! ### The transfer -/

/-- A transfer whose check passes, and which meets no lost KV, moves: between a repeat that begins and one that settles. -/
theorem exec_moverTransfer_moves {s : State} {c len : Nat} {add : Option AddType} {src dst : MvPlace}
    (on : s.coreOn c = true) (ok : (s.mvCause add src dst len).1 = 0)
    (kv : ∀ u : State, u.kvLost c len (s.fixPlace c src) = none) :
    ∃ u rep t, exec (.moverTransfer c add src dst len) s = .next t ∧ SeqOnly c (s.mvBusy ((len + 2047) / 2048)) u ∧
      SeqOnly c (u.mvMove c ((add.map addTypeCode).getD 0) (s.fixPlace c src) (s.fixPlace c dst) len rep) t := by
  refine ⟨_, (s.beginRepeat c).1, _, ?_, s.mvBusy_only c _, State.settleRepeat_only _ c (s.beginRepeat c).1⟩
  simp only [exec_moverTransfer, execMoverTransfer, on, s.mvCause_fixPlace, ok, kv]
  rfl

/-- A transfer whose check fails records its cause, between a repeat that begins and one that settles. -/
theorem exec_moverTransfer_fails {s : State} {c len : Nat} {add : Option AddType} {src dst : MvPlace}
    (on : s.coreOn c = true) (bad : (s.mvCause add src dst len).1 ≠ 0) :
    ∃ u t, exec (.moverTransfer c add src dst len) s = .next t ∧ SeqOnly c (s.mvBusy ((len + 2047) / 2048)) u ∧
      SeqOnly c (u.transferError c (s.fixPlace c src) (s.mvCause add src dst len)) t := by
  refine ⟨_, _, ?_, s.mvBusy_only c _, State.settleRepeat_only _ c (s.beginRepeat c).1⟩
  simp only [exec_moverTransfer, execMoverTransfer, on, s.mvCause_fixPlace, if_pos bad]
  rfl

section Transfer

variable {s : State} {c len : Nat} (on : s.coreOn c = true)
include on

theorem moverTransfer_scratch_scratch (a b : Addr) :
    ∃ t, exec (.moverTransfer c none (.scratch a) (.scratch b) len) s = .next t ∧
      (t.core c).scratch =
        ((s.core c).spWrite ((s.core c).addr .mv b) ((s.core c).spRead ((s.core c).addr .mv a) len)).scratch ∧
      t.beat.busyMv = s.beat.busyMv + (len + 2047) / 2048 := by
  obtain ⟨u, rep, t, he, hu, ht⟩ := exec_moverTransfer_moves (src := .scratch a) (dst := .scratch b) (add := none)
    (len := len) on rfl (fun _ => rfl)
  obtain ⟨hp, hb, -⟩ := State.mvPoison_bytes _ c _ _
  have hs : (u.core c).scratch = (s.core c).scratch := hu.scratch
  refine ⟨t, he, ht.scratch.trans (hp.trans ?_), ?_⟩
  · simp [State.mvRead, State.core_updCore, Core.spRead, hs, Core.spWrite_scratch_congr hs, Core.addr]
  · rw [ht.beat.trans (hb.trans hu.beat)]
    rfl

theorem moverTransfer_scratch_shared (a : Addr) {o : Nat} (fits : o + len ≤ cacheBytes) :
    ∃ t, exec (.moverTransfer c none (.scratch a) (.shared o) len) s = .next t ∧
      t.sharedMem (c / 8) = memWrite (s.sharedMem (c / 8)) o ((s.core c).spRead ((s.core c).addr .mv a) len) ∧
      (∀ x, x ≠ c / 8 → t.sharedMem x = s.sharedMem x) ∧ (t.core c).scratch = (s.core c).scratch := by
  have ok : (s.mvCause none (.scratch a) (.shared o) len).1 = 0 := by
    simp [State.mvCause, State.placeCause, Nat.not_lt.mpr fits]
  obtain ⟨u, rep, t, he, hu, ht⟩ := exec_moverTransfer_moves on ok (fun _ => rfl)
  obtain ⟨hp, -, hm⟩ := State.mvPoison_bytes _ c _ _
  have hs : (u.core c).scratch = (s.core c).scratch := hu.scratch
  have hx (x : Nat) : u.sharedMem x = s.sharedMem x := State.sharedMem_of_tiers hu.tiers x
  refine ⟨t, he, ?_, fun x hne => ?_, ht.scratch.trans (hp.trans hs)⟩
  · rw [State.sharedMem_of_tiers ht.tiers]
    refine (hm _).trans ?_
    simp [State.sharedMem_sharedWrite, State.mvRead, Core.spRead, hs, hx, Core.addr]
  · rw [State.sharedMem_of_tiers ht.tiers]
    refine (hm _).trans ?_
    simp [State.sharedMem_sharedWrite, hne, hx]

theorem moverTransfer_shared_scratch {o : Nat} (b : Addr) (fits : o + len ≤ cacheBytes) :
    ∃ t, exec (.moverTransfer c none (.shared o) (.scratch b) len) s = .next t ∧
      (t.core c).scratch = ((s.core c).spWrite ((s.core c).addr .mv b) (memRead (s.sharedMem (c / 8)) o len)).scratch ∧
      ∀ x, t.sharedMem x = s.sharedMem x := by
  have ok : (s.mvCause none (.shared o) (.scratch b) len).1 = 0 := by
    simp [State.mvCause, State.placeCause, Nat.not_lt.mpr fits]
  obtain ⟨u, rep, t, he, hu, ht⟩ := exec_moverTransfer_moves on ok (fun _ => rfl)
  obtain ⟨hp, -, hm⟩ := State.mvPoison_bytes _ c _ _
  have hs : (u.core c).scratch = (s.core c).scratch := hu.scratch
  have hx (x : Nat) : u.sharedMem x = s.sharedMem x := State.sharedMem_of_tiers hu.tiers x
  refine ⟨t, he, ht.scratch.trans (hp.trans ?_), fun x => ?_⟩
  · simp [State.mvRead, State.core_updCore, hx, Core.spWrite_scratch_congr hs]
  · rw [State.sharedMem_of_tiers ht.tiers]
    exact (hm x).trans (hx x)

/-- A read of a fast-tier home moves its bytes at once. -/
theorem moverTransfer_home_scratch {a o : Nat} (b : Addr) (fast : homeTier a = 1)
    (ok : (s.mvCause none (.home a o) (.scratch b) len).1 = 0) :
    ∃ t, exec (.moverTransfer c none (.home a o) (.scratch b) len) s = .next t ∧
      (t.core c).scratch = ((s.core c).spWrite ((s.core c).addr .mv b) (s.homeRead a o len)).scratch ∧
      t.tiers = s.tiers := by
  obtain ⟨u, rep, t, he, hu, ht⟩ := exec_moverTransfer_moves on ok (fun _ => rfl)
  have hs : (u.core c).scratch = (s.core c).scratch := hu.scratch
  have hm : u.mvMove c 0 (.home a o) (.scratch (.lit ((s.core c).addr .mv b))) len rep =
      u.updCore c (fun k => k.spWrite ((s.core c).addr .mv b) (u.homeRead a o len)) := by
    simp [State.mvMove, fast]
  replace ht := hm ▸ ht
  refine ⟨t, he, ht.scratch.trans ?_, ht.tiers.trans hu.tiers⟩
  simp [State.core_updCore, State.homeRead_of_tiers (s := s) (t := u) hu.tiers, Core.spWrite_scratch_congr hs]

/-- A read of a cell chain that is not the last leaves the pool. -/
theorem moverTransfer_cell_scratch {p ch o : Nat} {tok : TokenId} (b : Addr) {v : List BF16} {w : State}
    (hr : s.readChoice p tok ch false = some (v, w)) :
    ∃ t, exec (.moverTransfer c none (.cell p tok ch o false) (.scratch b) len) s = .next t ∧
      (t.core c).scratch = ((s.core c).spWrite ((s.core c).addr .mv b) (bytesAt (b16Bytes v) o len)).scratch ∧
      t.tiers = s.tiers ∧ t.pools = s.pools := by
  have ok : (s.mvCause none (.cell p tok ch o false) (.scratch b) len).1 = 0 := by
    simp [State.mvCause, State.placeCause, hr]
  obtain ⟨u, rep, t, he, hu, ht⟩ := exec_moverTransfer_moves on ok (fun _ => rfl)
  have hs : (u.core c).scratch = (s.core c).scratch := hu.scratch
  have hm : u.mvMove c 0 (.cell p tok ch o false) (.scratch (.lit ((s.core c).addr .mv b))) len rep =
      u.updCore c (fun k => k.spWrite ((s.core c).addr .mv b) (bytesAt (b16Bytes v) o len)) := by
    simp [State.mvMove, State.mvRead, State.readChoice_of_platforms (s := s) (t := u) hu.platforms hr]
  replace ht := hm ▸ ht
  refine ⟨t, he, ht.scratch.trans ?_, ht.tiers.trans hu.tiers, ht.pools.trans hu.pools⟩
  simp [State.core_updCore, Core.spWrite_scratch_congr hs]

/-- A transfer whose check fails changes no store, and is counted and logged. -/
theorem moverTransfer_fails {add : Option AddType} {src dst : MvPlace} (bad : (s.mvCause add src dst len).1 ≠ 0) :
    ∃ t, exec (.moverTransfer c add src dst len) s = .next t ∧
      (t.core c).scratch = (s.core c).scratch ∧ t.tiers = s.tiers ∧
      t.reg Reg.rmErrors = (s.reg Reg.rmErrors + 1) % 2 ^ 32 ∧
      t.rmem.faults.getLast? = some [(s.mvCause add src dst len).1, (s.mvCause add src dst len).2.1, c, s.myRank,
        (s.mvCause add src dst len).2.2, s.beatNow % 2 ^ 32] := by
  obtain ⟨u, t, he, hu, ht⟩ := exec_moverTransfer_fails on bad
  obtain ⟨v, hv, huv⟩ := u.transferError_eq c (s.fixPlace c src) (s.mvCause add src dst len)
  obtain ⟨hvs, hvt, hve, hvb⟩ : (v.core c).scratch = (u.core c).scratch ∧ v.tiers = u.tiers ∧
      v.reg Reg.rmErrors = u.reg Reg.rmErrors ∧ v.beatNow = u.beatNow := by
    rcases huv with rfl | rfl
    · exact ⟨rfl, rfl, rfl, rfl⟩
    · exact ⟨by simp, rfl, u.reg_count_other 1 (by decide), u.reg_count_other 1 (by decide)⟩
  rw [hv] at ht
  obtain ⟨hs, hm⟩ := v.rmError_stores c (s.mvCause add src dst len).1 (s.mvCause add src dst len).2.1 u.myRank
    (s.mvCause add src dst len).2.2 (u.mvErrCtr c)
  refine ⟨t, he, ?_, ?_, ?_, ?_⟩
  · exact ht.scratch.trans (hs.trans (hvs.trans hu.scratch))
  · exact ht.tiers.trans (hm.trans (hvt.trans hu.tiers))
  · rw [ht.reg _ (by decide) (by decide) (by decide), State.rmError_reg, hve,
      hu.reg _ (by decide) (by decide) (by decide)]
    rfl
  · have hb : u.beatNow = s.beatNow := hu.reg _ (by decide) (by decide) (by decide)
    have hr : u.myRank = s.myRank := hu.myRank
    rw [ht.rmem, State.rmError_log, hvb, hb, hr]

end Transfer

/-! ### Atomics -/

/-- A word's poison is read from the tiers alone. -/
theorem State.sharedBadIn_of_tiers {s t : State} (h : t.tiers = s.tiers) (k a n : Nat) :
    t.sharedBadIn k a n = s.sharedBadIn k a n := by
  unfold State.sharedBadIn; rw [h]

section Atomic

variable {s : State} {c cl off n : Nat} {wide : Bool} (on : s.coreOn c = true) (hn : n = if wide then 8 else 4)
include on hn

/-- An atomic that passes its checks writes the word and hands the old value to the core, between a repeat that begins and
one that settles. -/
theorem State.atomic_passes (dst : Addr) (f : Nat → Nat)
    (inside : ¬ (off % n ≠ 0 ∨ off < softBase ∨ softBase + s.reg Reg.ccSoftBytes < off + n ∨ 16 ≤ cl))
    (clean : s.sharedBadIn cl off n = false) :
    ∃ u, SeqOnly c (s.mvBusy 1) u ∧
      SeqOnly c
        (((u.sharedWrite cl off (leBytes n (f (leNat (memRead (u.sharedMem cl) off n))))).count64 Reg.ccAtomics 1).updCore
          c (fun k => k.spWrite ((s.core c).addr .mv dst) (leBytes n (leNat (memRead (u.sharedMem cl) off n)))))
        (s.atomic c cl off wide dst f) := by
  have hu := s.mvBusy_only c 1
  have hr : (s.beginRepeat c).2.reg Reg.ccSoftBytes = s.reg Reg.ccSoftBytes :=
    hu.reg _ (by decide) (by decide) (by decide)
  have hc := State.sharedBadIn_of_tiers hu.tiers cl off n
  unfold State.atomic
  simp only [on, ← hn, hr, if_neg inside, hc.trans clean]
  exact ⟨_, hu, State.settleRepeat_only _ c _⟩

/-- An atomic outside the software area, or unaligned, is recorded with cause 3, between a repeat that begins and one that
settles. -/
theorem State.atomic_fails (dst : Addr) (f : Nat → Nat)
    (outside : off % n ≠ 0 ∨ off < softBase ∨ softBase + s.reg Reg.ccSoftBytes < off + n ∨ 16 ≤ cl) :
    ∃ u op rank e, SeqOnly c (s.mvBusy 1) u ∧
      SeqOnly c ((u.draws 1).rmError c 3 op rank off e) (s.atomic c cl off wide dst f) := by
  have hu := s.mvBusy_only c 1
  have hr : (s.beginRepeat c).2.reg Reg.ccSoftBytes = s.reg Reg.ccSoftBytes :=
    hu.reg _ (by decide) (by decide) (by decide)
  unfold State.atomic
  simp only [on, ← hn, hr, if_pos outside]
  exact ⟨_, _, _, _, hu, State.settleRepeat_only _ c _⟩

theorem State.atomic_updates (dst : Addr) (f : Nat → Nat)
    (ok : off % n = 0 ∧ softBase ≤ off ∧ off + n ≤ softBase + s.reg Reg.ccSoftBytes ∧ cl < 16 ∧
      s.sharedBadIn cl off n = false) :
    let old := leNat (memRead (s.sharedMem cl) off n)
    let t := s.atomic c cl off wide dst f
    t.sharedMem cl = memWrite (s.sharedMem cl) off (leBytes n (f old)) ∧
      (∀ x, x ≠ cl → t.sharedMem x = s.sharedMem x) ∧
      (t.core c).scratch = ((s.core c).spWrite ((s.core c).addr .mv dst) (leBytes n old)).scratch ∧
      t.reg Reg.ccAtomics = (s.reg Reg.ccAtomics + 1) % 2 ^ 64 := by
  obtain ⟨aligned, above, below, cluster, clean⟩ := ok
  obtain ⟨u, hu, ht⟩ := State.atomic_passes on hn dst f (by omega) clean
  have hx (x : Nat) : u.sharedMem x = s.sharedMem x := State.sharedMem_of_tiers hu.tiers x
  have hs : (u.core c).scratch = (s.core c).scratch := hu.scratch
  have ha : u.reg Reg.ccAtomics = s.reg Reg.ccAtomics := hu.reg _ (by decide) (by decide) (by decide)
  have hm (x : Nat) := (State.sharedMem_of_tiers ht.tiers x).trans (u.sharedMem_sharedWrite cl off _ x)
  refine ⟨(hm cl).trans ?_, fun x hne => (hm x).trans ?_, ht.scratch.trans ?_, ?_⟩
  · simp [hx]
  · simp [hne, hx]
  · simp [State.core_updCore, hx, Core.spWrite_scratch_congr hs]
  · rw [ht.reg _ (by decide) (by decide) (by decide), ← ha]
    simp [State.reg_count64]

theorem State.atomic_refused (dst : Addr) (f : Nat → Nat)
    (outside : off % n ≠ 0 ∨ off < softBase ∨ softBase + s.reg Reg.ccSoftBytes < off + n ∨ 16 ≤ cl) :
    let t := s.atomic c cl off wide dst f
    (∀ x, t.sharedMem x = s.sharedMem x) ∧ (t.core c).scratch = (s.core c).scratch ∧
      t.reg Reg.rmErrors = (s.reg Reg.rmErrors + 1) % 2 ^ 32 := by
  obtain ⟨u, op, rank, e, hu, ht⟩ := State.atomic_fails on hn dst f outside
  obtain ⟨hs, hm⟩ := (u.draws 1).rmError_stores c 3 op rank off e
  have hr : u.reg Reg.rmErrors = s.reg Reg.rmErrors := hu.reg _ (by decide) (by decide) (by decide)
  refine ⟨State.sharedMem_of_tiers (ht.tiers.trans (hm.trans hu.tiers)), ht.scratch.trans (hs.trans hu.scratch), ?_⟩
  rw [ht.reg _ (by decide) (by decide) (by decide), State.rmError_reg, ← hr]
  rfl

end Atomic

/-- Settles O15: a transfer moves or fails between a repeat that begins and one that settles, and the sequencer touches no
store in either; the five atomics are one operation with five functions of the old value. -/
theorem transfersAndAtomicsMoveBytes : Obligations.TransfersAndAtomicsMoveBytes := by
  refine ⟨fun s c len on => ⟨moverTransfer_scratch_scratch on, fun a o => moverTransfer_scratch_shared on a,
    fun o b => moverTransfer_shared_scratch on b, fun a o b => moverTransfer_home_scratch on b,
    fun p tok ch o b v u => moverTransfer_cell_scratch on b, fun add src dst => moverTransfer_fails on⟩, ?_⟩
  intro s c cl off v e wide dst on n w old ok bad forms f hf
  obtain ⟨g, he, hg⟩ : ∃ g : Nat → Nat, exec f.1 s = .next (s.atomic c cl off wide dst g) ∧ f.2 = g old := by
    simp only [forms, List.mem_cons, List.not_mem_nil, or_false] at hf
    rcases hf with rfl | rfl | rfl | rfl | rfl <;> exact ⟨_, rfl, rfl⟩
  rw [hg]
  exact ⟨fun h => ⟨_, he, State.atomic_updates on rfl dst g h⟩, fun h => ⟨_, he, State.atomic_refused on rfl dst g h⟩⟩

end Sys2Proof.Machine
end

section
/-! SUPPORT and O36. A batch is looked up by its number; what sets it, what makes a lane idle and what a STREAM_OUT record
changes of the streams; a landed packet decides nothing more; a cancel walks the lanes of its batch. -/

namespace Sys2Proof.Machine

open Sys2Proof

/-! ### Looking a batch up -/

/-- What a step keeps, a fold of it keeps. -/
theorem foldl_keeps {σ α β : Type} (view : σ → β) {f : σ → α → σ} (h : ∀ s a, view (f s a) = view s) (l : List α)
    (s : σ) : view (l.foldl f s) = view s := by
  induction l generalizing s with
  | nil => rfl
  | cons a l ih => exact (ih _).trans (h s a)

/-- A batch is found by its number in the open batches alone. -/
theorem State.batchNum_of_batches {s t : State} (h : t.streams.batches = s.streams.batches) (n : Nat) :
    t.batchNum n = s.batchNum n := by
  unfold State.batchNum; rw [h]

/-- The batch that a tag names is an open one. -/
theorem State.batchTag_mem {s : State} {tag : Nat} {b : Batch} (h : s.batchTag tag = some b) : b ∈ s.streams.batches :=
  List.mem_of_find?_eq_some h

/-- A batch that is set is found under its number, where one of that number was open. -/
theorem State.batchNum_setBatch {s : State} {b : Batch} (h : ∃ x ∈ s.streams.batches, x.num = b.num) :
    (s.setBatch b).batchNum b.num = some b := by
  unfold State.setBatch State.batchNum
  dsimp only
  generalize s.streams.batches = l at h ⊢
  induction l with
  | nil => simp at h
  | cons y l ih =>
    by_cases hy : y.num = b.num
    · simp [hy]
    · have hl : ∃ x ∈ l, x.num = b.num := by simpa [hy] using h
      simpa [hy] using ih hl

/-! ### Records and idle lanes -/

@[simp] theorem State.emitOut_batches (s : State) (r : OutRec) : (s.emitOut r).streams.batches = s.streams.batches := by
  unfold State.emitOut; split <;> rfl

theorem State.emitOut_out {s : State} (room : s.streams.out.length < 65536) (r : OutRec) :
    (s.emitOut r).streams.out = s.streams.out ++ [r] := by
  unfold State.emitOut streamRecords
  rw [if_neg (by omega)]
  rfl

/-- A record changes no number but the two counters of STREAM_OUT. -/
theorem State.emitOut_reg (s : State) (r : OutRec) {k : Nat} (hd : k ≠ Reg.streamOutDiscarded)
    (hw : k ≠ Reg.streamOutWritten) : (s.emitOut r).reg k = s.reg k := by
  unfold State.emitOut
  split
  · exact State.reg_count_other _ 1 hd
  · exact State.reg_count_other _ 1 hw

@[simp] theorem State.freeChain_streams (s : State) (c : Chain) : (s.freeChain c).streams = s.streams := rfl

theorem State.freeChain_reg (s : State) (c : Chain) {k : Nat} (h : k ≠ Reg.cellsReleased) :
    (s.freeChain c).reg k = s.reg k := by
  unfold State.freeChain
  simp only [State.reg_count64, if_neg h]
  rfl

/-- Chains that are freed leave the streams. -/
theorem State.freeChains_streams (l : List Chain) (s : State) : (l.foldl State.freeChain s).streams = s.streams :=
  foldl_keeps State.streams State.freeChain_streams l s

/-- Chains that are freed count released cells alone. -/
theorem State.freeChains_reg (l : List Chain) (s : State) {k : Nat} (h : k ≠ Reg.cellsReleased) :
    (l.foldl State.freeChain s).reg k = s.reg k :=
  foldl_keeps (State.reg · k) (fun s c => s.freeChain_reg c h) l s

@[simp] theorem State.setBatch_out (s : State) (b : Batch) : (s.setBatch b).streams.out = s.streams.out := rfl
@[simp] theorem State.reg_setBatch (s : State) (b : Batch) (k : Nat) : (s.setBatch b).reg k = s.reg k := rfl

/-- A batch with one lane idle. -/
def Batch.idleAt (b : Batch) (i : Nat) : Batch :=
  { b with lanes := b.lanes.set i (idleLane (b.lanes.getD i (idleLane none)).last) }

/-- Making a lane idle is: cells are freed, records released, and the batch is set with that lane idle. -/
theorem State.idleLaneAt_eq (s : State) (b : Batch) (i : Nat) :
    ∃ (cells : List Chain) (n : Nat), s.idleLaneAt b i = (cells.foldl State.freeChain (s.setUsed n)).setBatch (b.idleAt i) :=
  ⟨_, _, rfl⟩

@[simp] theorem State.idleLaneAt_out (s : State) (b : Batch) (i : Nat) :
    (s.idleLaneAt b i).streams.out = s.streams.out := by
  obtain ⟨cells, n, h⟩ := s.idleLaneAt_eq b i
  rw [h, State.setBatch_out, State.freeChains_streams]
  rfl

theorem State.idleLaneAt_reg (s : State) (b : Batch) (i : Nat) {k : Nat} (h : k ≠ Reg.cellsReleased) :
    (s.idleLaneAt b i).reg k = s.reg k := by
  obtain ⟨cells, n, he⟩ := s.idleLaneAt_eq b i
  rw [he, State.reg_setBatch, State.freeChains_reg _ _ h]
  rfl

/-- A batch one of whose lanes became idle is found with that lane idle. -/
theorem State.batchNum_idleLaneAt {s : State} {b : Batch} (h : ∃ x ∈ s.streams.batches, x.num = b.num) (i : Nat) :
    (s.idleLaneAt b i).batchNum b.num = some (b.idleAt i) := by
  obtain ⟨cells, n, he⟩ := s.idleLaneAt_eq b i
  have hf : (cells.foldl State.freeChain (s.setUsed n)).streams.batches = s.streams.batches := by
    rw [State.freeChains_streams]
    rfl
  rw [he]
  exact State.batchNum_setBatch (b := b.idleAt i) (hf ▸ h)

/-- The lane made idle is idle; the others are as they were. -/
theorem Batch.idleAt_lanes {b : Batch} {i : Nat} (h : i < b.lanes.length) :
    ∃ l, (b.idleAt i).lanes[i]? = some l ∧ l.idle = true :=
  ⟨_, List.getElem?_set_self h, rfl⟩

/-! ### A landed packet -/

/-- A delivered packet that leaves the landing list changes the fabric alone. -/
theorem State.takeLanding_fabric (s : State) (x : Body) : ∃ f, s.takeLanding x = { s with fabric := f } := by
  unfold State.takeLanding
  split
  · exact ⟨_, rfl⟩
  · exact ⟨s.fabric, rfl⟩

/-- With no waiting request of a packet, its cluster's allocator serves nothing for it. -/
theorem serveUntil_none {s : State} {p : BeatPacket} {k : Nat} (h : ∀ r ∈ (s.pool k).waiting, r.pkt ≠ p) (n : Nat) :
    serveUntil p n k s = s := by
  cases n with
  | zero => rfl
  | succ n =>
    unfold serveUntil
    rw [if_neg]
    simpa using h

/-- A packet that has landed decides no further chain. -/
theorem State.decideChains_of_landed {s : State} {p : BeatPacket} (h : s.landed p) : s.decideChains p = s := by
  obtain ⟨hk, -⟩ := h
  have hr : s.requestChains p = s := by
    have hnone : (s.landingClusters p).filter (fun k => !s.requested k p) = [] := by
      simpa [List.filter_eq_nil_iff] using fun k h => (hk k h).1
    simp [State.requestChains, hnone]
  unfold State.decideChains
  dsimp only
  rw [hr]
  generalize s.landingClusters p = ks at hk
  induction ks with
  | nil => rfl
  | cons k ks ih =>
    rw [List.foldl_cons, serveUntil_none (hk k (by simp)).2]
    exact ih fun j hj => hk j (List.mem_cons_of_mem k hj)

theorem State.landingFailed_of_landed {s : State} {p : BeatPacket} (h : s.landed p) (k : Nat) :
    s.landingFailed k p = false := by
  obtain ⟨-, hf⟩ := h
  simpa [State.landingFailed] using fun a q c hm _ => hf (a, q, c) hm

/-! ### What ends or advances a lane -/

/-- A sampled token of the lane that awaits it, landed and not stale, is taken; its delivery changes the fabric alone. -/
theorem exec_sampledTokenArrival_taken {s : State} {p : BeatPacket} {b : Batch} {l : Lane} (kind : p.hdr.kind = 7)
    (landed : s.landed p) (fresh : s.stale p.hdr.batchTag p.hdr.gen = false) (hb : s.batchTag p.hdr.batchTag = some b)
    (hl : b.lanes[p.hdr.lane]? = some l)
    (awaits : ¬ (l.idle ∨ p.hdr.gen ≠ b.run ∨ l.due ≠ some p.hdr.position ∨ l.got.isSome ∨ l.skip)) :
    ∃ f, exec (.sampledTokenArrival p) s = .next ({ s with fabric := f }.takeSample p b l) := by
  obtain ⟨f, hf⟩ := s.takeLanding_fabric (.beat p)
  have hd : { s with fabric := f }.decideChains p = { s with fabric := f } := State.decideChains_of_landed landed
  have hg : { s with fabric := f }.landingFailed (p.hdr.homeCluster % 16) p = false :=
    State.landingFailed_of_landed landed _
  have hs : { s with fabric := f }.stale p.hdr.batchTag p.hdr.gen = false := fresh
  have ht : { s with fabric := f }.batchTag p.hdr.batchTag = some b := hb
  refine ⟨f, ?_⟩
  simp only [exec_sampledTokenArrival, execSampledTokenArrival, hf, hd, hg, hs, ht, hl, kind, if_neg awaits]
  rfl

/-- A sample that is an output but not the lane's last is put out, and its lane goes on from it. -/
theorem State.takeSample_output (s : State) {p : BeatPacket} (b : Batch) {l : Lane} (prompt : l.prompt = [])
    (more : 1 < l.left) (goes : p.token % 2 ^ 32 ≠ l.stopId) :
    s.takeSample p b l =
      (s.emitOut ⟨1, 0, p.hdr.lane, b.num, p.tokFlags, (p.hdr.position + 1) % 2 ^ 24, p.token % 2 ^ 32, p.hdr.gen⟩).setBatch
        { b with lanes := (b.lanes.set p.hdr.lane
            { l with left := l.left - 1, last := some (p.token % 2 ^ 32), got := some (p.token % 2 ^ 32) }) } := by
  have hp : ¬ (l.prompt ≠ [] ∨ l.left = 0) := by simp [prompt]; omega
  have hm : l.left - 1 ≠ 0 ∧ p.token % 2 ^ 32 ≠ l.stopId := ⟨by omega, goes⟩
  simp only [State.takeSample, if_neg hp, if_pos hm]

/-- A token that is lost where its lane waits for it makes the lane idle after a LOST record, counted. -/
theorem exec_tokenLost_lost {s : State} {tag i p : Nat} {b : Batch} {l : Lane} (hb : s.batchTag tag = some b)
    (hl : b.lanes[i]? = some l) (due : l.due = some p) (waits : ¬ (l.idle ∨ l.got.isSome ∨ l.skip))
    (needed : ¬ (l.prompt ≠ [] ∨ l.left = 0 ∨ b.cancels ≠ [])) :
    exec (.tokenLost tag i) s =
      .next (((s.emitOut (eventRec 3 0 i b.num (p + 1) b.run)).count Reg.lostTokens 1).idleLaneAt b i) := by
  simp only [exec_tokenLost, execTokenLost, hb, hl, due, if_neg waits, if_neg needed]

/-- An end notice of the running generation makes its lane idle after an END record; its delivery changes the fabric alone. -/
theorem exec_endNoticeArrival_ends {s : State} {tag i : Nat} (pos cause : Nat) {b : Batch} {l : Lane}
    (hb : s.batchTag tag = some b) (hl : b.lanes[i]? = some l) (busy : l.idle = false) :
    ∃ f, exec (.endNoticeArrival tag i pos b.run cause) s =
      .next (({ s with fabric := f }.emitOut (eventRec 4 cause i b.num pos b.run)).idleLaneAt b i) := by
  obtain ⟨f, hf⟩ := s.takeLanding_fabric (.mgmt (.endNotice tag i pos b.run cause))
  have ht : { s with fabric := f }.batchTag tag = some b := hb
  exact ⟨f, by simp [execEndNoticeArrival, hf, ht, hl, busy]⟩

/-! ### Cancels -/

@[simp] theorem State.multicast_streams (s : State) (cls group func mask cluster : Nat) (ranks : List Nat) (x : Body) :
    (s.multicast cls group func mask cluster ranks x).streams = s.streams := by
  simp [State.multicast, apply_ite State.streams]

@[simp] theorem State.broadcast_streams (s : State) (m : MgmtMsg) : (s.broadcast m).streams = s.streams :=
  foldl_keeps State.streams (fun s _ => s.multicast_streams _ _ _ _ _ _ _) _ s

/-- A BATCH_CANCEL that is permitted raises the batch's generation, notes the beat in which it takes effect, and is broadcast. -/
theorem exec_batchCancel_notes {s : State} {r : Role} {tag : Nat} {b : Batch} (may : s.mayWrite r Reg.batchCancel)
    (room : s.combine.cancels.length < 64) (hb : s.batchTag tag = some b) :
    let gen := (b.gen + 1) % 65536
    let cb := s.beatNow + s.reg Reg.cancelLead
    exec (.batchCancel r tag) s =
      .next ((s.setBatch { b with gen := gen, cancels := b.cancels ++ [(gen, cb)] }).broadcast (.cancel tag gen cb)) := by
  obtain ⟨alive, allowed⟩ := may
  simp [execBatchCancel, State.command, alive, allowed, State.writeBatchCancel, hb, Nat.not_le.mpr room, answer]

/-- What holds before a fold over 0, …, n - 1, and goes on to j + 1 with step j, holds of n after it. -/
theorem foldl_range_invariant {σ : Type} {P : Nat → σ → Prop} {f : σ → Nat → σ} {n : Nat} {s : σ} (start : P 0 s)
    (step : ∀ j s, P j s → P (j + 1) (f s j)) : P n ((List.range n).foldl f s) := by
  induction n with
  | zero => exact start
  | succ n ih =>
    rw [List.range_succ, List.foldl_concat]
    exact step n _ ih

/-- The batch's first j lanes are idle. -/
def Batch.idleBelow (b : Batch) (j : Nat) : Prop := ∀ k < j, ∀ l, b.lanes[k]? = some l → l.idle = true

theorem Batch.idleBelow_succ {b : Batch} {j : Nat} (h : b.idleBelow j)
    (hj : (b.lanes.getD j (idleLane none)).idle = true) : b.idleBelow (j + 1) := by
  intro k hk l hl
  rcases Nat.lt_succ_iff_lt_or_eq.mp hk with hk | rfl
  · exact h k hk l hl
  · simpa [List.getD_eq_getElem?_getD, hl] using hj

theorem Batch.idleAt_idleBelow {b : Batch} {j : Nat} (h : b.idleBelow j) : (b.idleAt j).idleBelow (j + 1) := by
  intro k hk l hl
  unfold Batch.idleAt at hl
  rw [List.getElem?_set] at hl
  split at hl
  · split at hl
    · cases hl; rfl
    · cases hl
  · exact h k (by omega) l hl

/-- While a cancel walks the lanes of batch n, from b: that batch keeps b's number of lanes and its open cancels, and its
first j lanes are idle. -/
def CancelWalk (b : Batch) (j : Nat) (s : State) : Prop :=
  ∃ x, s.batchNum b.num = some x ∧ x.cancels = b.cancels ∧ x.lanes.length = b.lanes.length ∧ x.idleBelow j

/-- The batch found under a number is an open one of that number. -/
theorem State.open_of_batchNum {s : State} {n : Nat} {b : Batch} (h : s.batchNum n = some b) :
    ∃ x ∈ s.streams.batches, x.num = b.num :=
  ⟨b, List.mem_of_find?_eq_some h, rfl⟩

theorem State.num_of_batchNum {s : State} {n : Nat} {b : Batch} (h : s.batchNum n = some b) : b.num = n := by
  simpa using List.find?_some h

theorem CancelWalk.start {s : State} {b : Batch} (h : ∃ x ∈ s.streams.batches, x.num = b.num) :
    CancelWalk b 0 (s.setBatch b) :=
  ⟨b, State.batchNum_setBatch h, rfl, rfl, fun k hk => absurd hk k.not_lt_zero⟩

/-- A walk that makes lane j idle, after a record, goes on. -/
theorem CancelWalk.idleLaneAt {b x : Batch} {j : Nat} {s : State} (r : OutRec) (hx : s.batchNum b.num = some x)
    (hc : x.cancels = b.cancels) (hn : x.lanes.length = b.lanes.length) (hi : x.idleBelow j) :
    CancelWalk b (j + 1) ((s.emitOut r).idleLaneAt x j) := by
  have ho : ∃ y ∈ (s.emitOut r).streams.batches, y.num = x.num := by
    simpa using State.open_of_batchNum hx
  refine ⟨x.idleAt j, ?_, hc, by simpa [Batch.idleAt] using hn, Batch.idleAt_idleBelow hi⟩
  rw [← State.num_of_batchNum hx]
  exact State.batchNum_idleLaneAt ho j

/-- Cancels that take effect give the batch a generation, take themselves off it, and walk all its lanes. -/
theorem State.cancelBatch_walks {s : State} {b : Batch} {beat : Nat} (hb : b ∈ s.streams.batches)
    (due : b.cancels.any (fun c => decide (c.2 ≤ beat)) = true) :
    ∃ run, CancelWalk { b with run := run, cancels := b.cancels.filter (fun c => !decide (c.2 ≤ beat)) } b.lanes.length
      (s.cancelBatch b beat) := by
  have hdue : b.cancels.filter (fun c => decide (c.2 ≤ beat)) ≠ [] := by simpa [List.filter_eq_nil_iff] using due
  unfold State.cancelBatch
  dsimp only
  rw [if_neg hdue]
  refine ⟨_, foldl_range_invariant (P := CancelWalk _) (CancelWalk.start ?_) ?_⟩
  · exact ⟨b, hb, rfl⟩
  · rintro j t ⟨x, hx, hc, hn, hi⟩
    simp only [hx]
    split
    next hl => exact ⟨x, hx, hc, hn, Batch.idleBelow_succ hi hl⟩
    next => exact CancelWalk.idleLaneAt _ hx hc hn hi

/-- A walk over all the lanes of a batch leaves every one of them idle. -/
theorem CancelWalk.done {b : Batch} {s : State} (h : CancelWalk b b.lanes.length s) :
    ∃ x, s.batchNum b.num = some x ∧ x.cancels = b.cancels ∧ ∀ l ∈ x.lanes, l.idle = true := by
  obtain ⟨x, hx, hc, hn, hi⟩ := h
  refine ⟨x, hx, hc, fun l hl => ?_⟩
  obtain ⟨k, hk, rfl⟩ := List.getElem_of_mem hl
  exact hi k (hn ▸ hk) _ (List.getElem?_eq_getElem hk)

/-- Settles O36: each event sets its batch once with what it puts out, and a cancel walks the lanes of its batch. -/
theorem lanesEndWithARecord : Obligations.LanesEndWithARecord := by
  intro s b l tag i hb hl busy room
  have hopen : ∃ x ∈ s.streams.batches, x.num = b.num := ⟨b, State.batchTag_mem hb, rfl⟩
  have hlt : i < b.lanes.length := (List.getElem?_eq_some_iff.mp hl).1
  have hroom : s.streams.out.length < 65536 := by omega
  obtain ⟨l', hl', hidle⟩ := Batch.idleAt_lanes hlt
  refine ⟨?sample, ?lost, ?ended, ?cancel, ?effect⟩
  case sample =>
    rintro p kind rfl rfl landed fresh gen due got skip prompt more goes
    obtain ⟨f, he⟩ := exec_sampledTokenArrival_taken kind landed fresh hb hl (by simp [busy, gen, due, got, skip])
    rw [State.takeSample_output _ b prompt more goes] at he
    exact ⟨_, _, he, State.emitOut_out (s := { s with fabric := f }) hroom _,
      State.batchNum_setBatch (by simpa using hopen), List.getElem?_set_self hlt⟩
  case lost =>
    intro p due got skip prompt left cancels
    refine ⟨_, _, l', exec_tokenLost_lost hb hl due (by simp [busy, got, skip]) (by simp [prompt, left, cancels]), ?_, ?_,
      State.batchNum_idleLaneAt (by simpa using hopen) i, hl', hidle⟩
    · simp [State.emitOut_out hroom]
    · rw [State.idleLaneAt_reg _ _ _ (by decide), State.reg_count_same,
        State.emitOut_reg _ _ (by decide) (by decide)]
  case ended =>
    intro pos cause
    obtain ⟨f, he⟩ := exec_endNoticeArrival_ends pos cause hb hl busy
    refine ⟨_, _, l', he, ?_, State.batchNum_idleLaneAt (by simpa using hopen) i, hl', hidle⟩
    rw [State.idleLaneAt_out]
    exact State.emitOut_out (s := { s with fabric := f }) hroom _
  case cancel =>
    intro r may few
    refine ⟨_, { b with gen := _, cancels := _ }, exec_batchCancel_notes may few hb, ?_, rfl, rfl⟩
    rw [State.batchNum_of_batches (congrArg _ (State.broadcast_streams _ _))]
    exact State.batchNum_setBatch hopen
  case effect =>
    intro beats due
    obtain ⟨run, walk⟩ := State.cancelBatch_walks (State.batchTag_mem hb) due
    obtain ⟨b', hb', hc, hall⟩ := walk.done
    exact ⟨_, b', by simp [execCancelTakesEffect, hb, beats], hb', hc, hall⟩

end Sys2Proof.Machine
end

section
/-! SUPPORT. What the work of a tick, of the links and of a commit's effects leaves standing: a state's `bearings`, with one
rule for each operation, `(s.op x).bearings = s.bearings`, by which `simp` takes the operations off a state one after another.
A rule about numbers or tables asks that the one it writes is no bearing, which `decide` settles for a key of the
dictionary. -/

namespace Sys2Proof.Machine

open Sys2Proof

/-! ### Bearings -/

/-- The numbers among the bearings: the beat's, those of hall time, and those that a commit sets and nothing else does. -/
def bearingKeys : List Nat :=
  [Reg.beatNumber, Reg.overrunUnits, Reg.timeState, Reg.holdoverCount, Reg.lastOffset] ++ committedNumbers

/-- What stands while a device does the work of a beat: some numbers and tables of the dictionary, the shadow
sets, the commits that pend, hall time, and the flags that a tick sets. -/
structure Bearings where
  numbers      : List Nat
  tables       : List Blob
  shadows      : List (Nat × Shadow)
  commits      : List (Nat × Pending)
  hallTime     : Nat
  ticked       : Bool
  maintOpen    : Bool
  intakeClosed : Bool

/-- The bearings of a state. -/
def State.bearings (s : State) : Bearings :=
  ⟨bearingKeys.map s.reg, committedTables.map s.dom, s.shadows, s.commits, s.time.hallTime, s.time.ticked, s.beat.maintOpen,
    s.beat.intakeClosed⟩

theorem State.reg_of_bearings {s t : State} (h : t.bearings = s.bearings) {k : Nat} (hk : k ∈ bearingKeys) :
    t.reg k = s.reg k :=
  List.map_inj_left.mp (congrArg Bearings.numbers h) k hk

theorem State.dom_of_bearings {s t : State} (h : t.bearings = s.bearings) {k : Nat} (hk : k ∈ committedTables) :
    t.dom k = s.dom k :=
  List.map_inj_left.mp (congrArg Bearings.tables h) k hk

theorem State.shadows_of_bearings {s t : State} (h : t.bearings = s.bearings) : t.shadows = s.shadows :=
  congrArg Bearings.shadows h

theorem State.commits_of_bearings {s t : State} (h : t.bearings = s.bearings) : t.commits = s.commits :=
  congrArg Bearings.commits h

theorem State.hallTime_of_bearings {s t : State} (h : t.bearings = s.bearings) : t.time.hallTime = s.time.hallTime :=
  congrArg Bearings.hallTime h

theorem State.ticked_of_bearings {s t : State} (h : t.bearings = s.bearings) : t.time.ticked = s.time.ticked :=
  congrArg Bearings.ticked h

theorem State.maintOpen_of_bearings {s t : State} (h : t.bearings = s.bearings) : t.beat.maintOpen = s.beat.maintOpen :=
  congrArg Bearings.maintOpen h

theorem State.intakeClosed_of_bearings {s t : State} (h : t.bearings = s.bearings) :
    t.beat.intakeClosed = s.beat.intakeClosed :=
  congrArg Bearings.intakeClosed h

/-! ### Rules for the ways in which a state is built -/

/-- A state built from the numbers of another has its bearings where the rest of them agree. -/
@[simp] theorem State.bearings_mk (t : State) {doms shadows commits} {time : Timebase} {beat : BeatSt} (hd : doms = t.doms)
    (hs : shadows = t.shadows) (hc : commits = t.commits) (hh : time.hallTime = t.time.hallTime)
    (ht : time.ticked = t.time.ticked) (hm : beat.maintOpen = t.beat.maintOpen)
    (hi : beat.intakeClosed = t.beat.intakeClosed) (pending free latch prior latchDoms cores lines yards platforms pools
    combine exits streams fabric rmem colls tiers clip slots swap manager host nv security package) :
    State.bearings ⟨pending, free, t.regs, doms, latch, prior, latchDoms, shadows, commits, time, beat, cores, lines,
      yards, platforms, pools, combine, exits, streams, fabric, rmem, colls, tiers, clip, slots, swap, manager, host, nv,
      security, package⟩ = t.bearings := by
  subst hd hs hc
  dsimp only [State.bearings]
  rw [hh, ht, hm, hi]
  rfl

@[simp] theorem State.bearings_ite (a b : State) (c : Prop) [Decidable c] :
    (if c then a else b).bearings = if c then a.bearings else b.bearings := apply_ite _ _ _ _

@[simp] theorem State.bearings_ite_snd (a b : β × State) (c : Prop) [Decidable c] :
    (if c then a else b).2.bearings = if c then a.2.bearings else b.2.bearings :=
  apply_ite (fun x : β × State => x.2.bearings) _ _ _

@[simp] theorem State.bearings_foldl {f : State → α → State} (h : ∀ t a, (f t a).bearings = t.bearings)
    (l : List α) (t : State) : (l.foldl f t).bearings = t.bearings := by
  induction l generalizing t with
  | nil => rfl
  | cons a l ih => exact (ih _).trans (h t a)

/-- A fold whose steps keep the bearings for the members of its list. -/
theorem State.bearings_foldl_mem {f : State → α → State} {l : List α}
    (h : ∀ a ∈ l, ∀ t, (f t a).bearings = t.bearings) (t : State) : (l.foldl f t).bearings = t.bearings := by
  induction l generalizing t with
  | nil => rfl
  | cons a l ih => exact (ih (fun b hb => h b (.tail _ hb)) _).trans (h a (.head _) t)

@[simp] theorem State.bearings_foldl_snd {f : β × State → α → β × State}
    (h : ∀ t a, (f t a).2.bearings = t.2.bearings) (l : List α) (t : β × State) :
    (l.foldl f t).2.bearings = t.2.bearings := by
  induction l generalizing t with
  | nil => rfl
  | cons a l ih => exact (ih _).trans (h t a)

/-! ### Keys that are no bearing -/

@[simp] theorem keySub_objKey (index sub : Nat) : keySub (objKey index sub) = sub % 256 := by
  unfold keySub objKey; omega

theorem keyIndex_objKey (index : Nat) {sub : Nat} (h : sub < 256) : keyIndex (objKey index sub) = index := by
  unfold keyIndex objKey; omega

/-- No bearing has sub-index 0x10, which the flit counters have. -/
@[simp] theorem txFlits_not_bearing (x : Nat) : Reg.txFlits x ∉ bearingKeys := fun h =>
  absurd (keySub_objKey _ _) ((by decide : ∀ k ∈ bearingKeys, keySub k ≠ 16) _ h)

/-- No bearing lies among the objects of the 60 ports. -/
theorem portState_not_bearing {x : Nat} (hx : x < 60) : Reg.portState x ∉ bearingKeys := fun h => by
  have hk := (by decide : ∀ k ∈ bearingKeys, keyIndex k < 0x2300 ∨ 0x233C ≤ keyIndex k) _ h
  rw [Reg.portState, keyIndex_objKey _ (by decide)] at hk
  omega

/-- A table of a layer slot is no committed one where its object is none. -/
theorem slotKey_not_committed {k i : Nat} (hk : ∀ j ∈ committedTables, j / 65536 ≠ k / 65536) (h0 : k % 65536 = 0)
    (hi : i < 65536) : slotKey k i ∉ committedTables := fun h => by
  have := hk _ h
  unfold slotKey at this
  omega

@[simp] theorem outcomeOfCause_not_bearing (c : Nat) : outcomeOfCause c ∉ bearingKeys := by
  unfold outcomeOfCause; split <;> decide

@[simp] theorem State.sidingOutcome_not_bearing (s : State) (p : BeatPacket) (e : ChoiceEntry) :
    s.sidingOutcome p e ∉ bearingKeys := by
  unfold State.sidingOutcome; split
  · exact outcomeOfCause_not_bearing _
  · decide

/-! ### Numbers and tables -/

@[simp] theorem State.setReg_bearings (s : State) {k : Nat} (h : k ∉ bearingKeys) (v : Nat) :
    (s.setReg k v).bearings = s.bearings := by
  have hr : bearingKeys.map (s.setReg k v).reg = bearingKeys.map s.reg :=
    List.map_congr_left fun j hj => State.reg_setReg_other s v (ne_of_mem_of_not_mem hj h)
  unfold State.bearings
  rw [hr]
  rfl

@[simp] theorem State.setDom_bearings (s : State) {k : Nat} (h : k ∉ committedTables) (b : Blob) :
    (s.setDom k b).bearings = s.bearings := by
  have hd : committedTables.map (s.setDom k b).dom = committedTables.map s.dom :=
    List.map_congr_left fun j hj => by rw [State.dom_setDom, if_neg (ne_of_mem_of_not_mem hj h)]
  unfold State.bearings
  rw [hd]
  rfl

@[simp] theorem State.count_bearings (s : State) {k : Nat} (h : k ∉ bearingKeys) (n : Nat) :
    (s.count k n).bearings = s.bearings := State.setReg_bearings s h _

@[simp] theorem State.count64_bearings (s : State) {k : Nat} (h : k ∉ bearingKeys) (n : Nat) :
    (s.count64 k n).bearings = s.bearings := State.setReg_bearings s h _

@[simp] theorem State.takeLatch_bearings (s : State) : s.takeLatch.bearings = s.bearings := by simp [State.takeLatch]

@[simp] theorem State.leaveTables_bearings (s : State) (t : TokenId) : (s.leaveTables t).bearings = s.bearings := by
  simp [State.leaveTables]

@[simp] theorem State.fresh_bearings (s : State) : s.fresh.2.bearings = s.bearings := by simp [State.fresh]

@[simp] theorem State.draws_bearings (s : State) (n : Nat) : (s.draws n).bearings = s.bearings := by simp [State.draws]

@[simp] theorem State.setCore_bearings (s : State) (c : Nat) (k : Core) : (s.setCore c k).bearings = s.bearings := by
  simp [State.setCore]

@[simp] theorem State.updCore_bearings (s : State) (c : Nat) (f : Core → Core) :
    (s.updCore c f).bearings = s.bearings := by simp [State.updCore]

@[simp] theorem State.inject_bearings (s : State) (p : Packet) : (s.inject p).bearings = s.bearings := by
  simp [State.inject]

@[simp] theorem State.sendRank_bearings (s : State) (rank cluster srcCluster func cls : Nat) (b : Body) :
    (s.sendRank rank cluster srcCluster func cls b).bearings = s.bearings := by
  dsimp only [State.sendRank]
  split <;> simp +decide

@[simp] theorem State.sendMgmt_bearings (s : State) (dev : Nat) (m : MgmtMsg) :
    (s.sendMgmt dev m).bearings = s.bearings := by simp [State.sendMgmt]

@[simp] theorem State.sendNotice_bearings (s : State) (rank : Nat) (m : MgmtMsg) :
    (s.sendNotice rank m).bearings = s.bearings := by simp [State.sendNotice]

@[simp] theorem State.ibi_bearings (s : State) (n : Nat) : (s.ibi n).bearings = s.bearings := by simp [State.ibi]

@[simp] theorem State.logReport_bearings (s : State) (kind mid cause : Nat) :
    (s.logReport kind mid cause).bearings = s.bearings := by simp +decide [State.logReport]

@[simp] theorem State.report_bearings (s : State) (kind mid cause : Nat) :
    (s.report kind mid cause).bearings = s.bearings := by simp [State.report]

@[simp] theorem State.setSession_bearings (s : State) (b : Nat) (x : Session) :
    (s.setSession b x).bearings = s.bearings := by simp [State.setSession]

@[simp] theorem State.abandon_bearings (s : State) (x : Session) : (s.abandon x).bearings = s.bearings := by
  simp +decide [State.abandon]

@[simp] theorem State.endTransfer_bearings (s : State) {b : Nat} (h : Reg.lastAbort (b + 1) ∉ bearingKeys) (code : Nat) :
    (s.endTransfer b code).bearings = s.bearings := by simp +decide [State.endTransfer, h]

@[simp] theorem State.failTransfer_bearings (s : State) {b : Nat} (h : Reg.lastAbort (b + 1) ∉ bearingKeys) (code : Nat) :
    (s.failTransfer b code).bearings = s.bearings := by simp [State.failTransfer, h]

@[simp] theorem State.endTenantTransfer_bearings (s : State) : s.endTenantTransfer.bearings = s.bearings := by
  simp +decide [State.endTenantTransfer]

@[simp] theorem State.stopSwap_bearings (s : State) (cause : Nat) : (s.stopSwap cause).bearings = s.bearings := by
  simp +decide [State.stopSwap]

@[simp] theorem State.deviceFatal_bearings (s : State) (cause : Nat) : (s.deviceFatal cause).bearings = s.bearings := by
  dsimp only [State.deviceFatal]
  simp [↓State.bearings_mk]

@[simp] theorem State.tenantFault_bearings (s : State) (unit cause : Nat) :
    (s.tenantFault unit cause).bearings = s.bearings := by simp [State.tenantFault]

@[simp] theorem State.startInvocation_bearings (s : State) (c b : Nat) :
    (s.startInvocation c b).bearings = s.bearings := by simp +decide [State.startInvocation]

@[simp] theorem State.endInvocation_bearings (s : State) (c endNs : Nat) :
    (s.endInvocation c endNs).bearings = s.bearings := by simp [State.endInvocation]

@[simp] theorem State.cutInvocation_bearings (s : State) (c : Nat) : (s.cutInvocation c).bearings = s.bearings := by
  simp [State.cutInvocation]

@[simp] theorem State.setPool_bearings (s : State) (k : Nat) (p : Pool) : (s.setPool k p).bearings = s.bearings := by
  simp [State.setPool]

@[simp] theorem State.freeChain_bearings (s : State) (c : Chain) : (s.freeChain c).bearings = s.bearings := by
  simp +decide [State.freeChain]

@[simp] theorem State.freeChains_bearings (s : State) (p : BeatPacket) : (s.freeChains p).bearings = s.bearings := by
  simp [State.freeChains]

@[simp] theorem State.sidingCount_bearings (s : State) (packets cells : Nat) :
    (s.sidingCount packets cells).bearings = s.bearings := by simp +decide [State.sidingCount]

@[simp] theorem State.siding_bearings (s : State) (p : BeatPacket) : (s.siding p).bearings = s.bearings := by
  simp [State.siding]

@[simp] theorem State.settle_bearings (s : State) {outcome : Nat} (h : outcome ∉ bearingKeys) :
    (s.settle outcome).bearings = s.bearings := by simp +decide [State.settle, h]

@[simp] theorem State.sendEnd_bearings (s : State) (t : TokenId) (cause : Nat) :
    (s.sendEnd t cause).bearings = s.bearings := by simp +decide [State.sendEnd]

@[simp] theorem State.leaveStage_bearings (s : State) (tok : TokenId) : (s.leaveStage tok).bearings = s.bearings := by
  simp [State.leaveStage]

@[simp] theorem State.dropHeld_bearings (s : State) (t : TokenId) (b : Nat) :
    (s.dropHeld t b).bearings = s.bearings := by simp [State.dropHeld]

@[simp] theorem State.settleHeld_bearings (s : State) (p : BeatPacket) {dropped : Nat} (hd : dropped ∉ bearingKeys)
    {f : ChoiceEntry → Nat} (hf : ∀ e, f e ∉ bearingKeys) : (s.settleHeld p dropped f).bearings = s.bearings := by
  unfold State.settleHeld
  rw [State.dropHeld_bearings]
  refine State.bearings_foldl (fun t e => State.settle_bearings t ?_) _ _
  split
  · exact hd
  · exact hf e

@[simp] theorem State.addPending_bearings (s : State) (c : PendingChoice) : (s.addPending c).bearings = s.bearings := by
  simp [State.addPending]

@[simp] theorem combineEntry_bearings (t : TokenId) (b : Nat) (late : Bool) (a : Summing × State) (e : ChoiceEntry) :
    (combineEntry t b late a e).2.bearings = a.2.bearings := by
  dsimp only [combineEntry]
  (repeat' split) <;> simp +decide

@[simp] theorem State.combineHeld_bearings (s : State) (p : BeatPacket) (late : Bool) (h : Held) :
    (s.combineHeld p late h).bearings = s.bearings := by simp [State.combineHeld]

@[simp] theorem State.closeToken_bearings (s : State) (p : BeatPacket) : (s.closeToken p).bearings = s.bearings := by
  simp [State.closeToken]

@[simp] theorem State.combineToken_bearings (s : State) (p : BeatPacket) (late : Bool) :
    (s.combineToken p late).bearings = s.bearings := by simp +decide [State.combineToken]

@[simp] theorem State.cancelToken_bearings (s : State) (p : BeatPacket) : (s.cancelToken p).bearings = s.bearings := by
  simp +decide [State.cancelToken]

@[simp] theorem State.poisonToken_bearings (s : State) (p : BeatPacket) : (s.poisonToken p).bearings = s.bearings := by
  simp +decide [State.poisonToken]

@[simp] theorem State.combineManifest_bearings (s : State) (p : BeatPacket) (late : Bool) :
    (s.combineManifest p late).bearings = s.bearings := by simp [State.combineManifest]

@[simp] theorem State.combineWindow_bearings (s : State) : s.combineWindow.bearings = s.bearings := by
  simp [State.combineWindow]

@[simp] theorem State.expirePending_bearings (s : State) (ahead : Nat) :
    (s.expirePending ahead).bearings = s.bearings := by simp +decide [State.expirePending]

@[simp] theorem State.dropNotices_bearings (s : State) (gone : CancelNotice → Bool) :
    (s.dropNotices gone).bearings = s.bearings := by simp +decide [State.dropNotices]

@[simp] theorem State.zeroExtent_bearings (s : State) (a : Nat) : (s.zeroExtent a).bearings = s.bearings := by
  simp [State.zeroExtent]

@[simp] theorem State.addHome_bearings (s : State) (h : Home) : (s.addHome h).bearings = s.bearings := by
  simp [State.addHome]

theorem State.allocOne_bearings {s : State} {tenant tier port cluster : Nat} {spread kv : Bool} {r : Nat × State}
    (h : s.allocOne tenant tier port cluster spread kv = some r) : r.2.bearings = s.bearings := by
  obtain ⟨e, -, rfl⟩ := Option.map_eq_some_iff.mp h
  simp

@[simp] theorem State.mapHomes_bearings (s : State) (f : Home → Home) : (s.mapHomes f).bearings = s.bearings := by
  simp [State.mapHomes]

@[simp] theorem State.updStatus_bearings (s : State) (tenant seq : Nat) (f : HomeStatus → HomeStatus) :
    (s.updStatus tenant seq f).bearings = s.bearings := by
  dsimp only [State.updStatus]
  split <;> simp

@[simp] theorem State.setKvUser_bearings (s : State) (u : KvUser) : (s.setKvUser u).bearings = s.bearings := by
  simp [State.setKvUser]

@[simp] theorem State.endCommand_bearings (s : State) (c : HomeCmd) (state cause : Nat) :
    (s.endCommand c state cause).bearings = s.bearings := by
  dsimp only [State.endCommand]
  (repeat' split) <;> simp

@[simp] theorem State.abandonHomes_bearings (s : State) (tenant : Nat) :
    (s.abandonHomes tenant).bearings = s.bearings := by
  refine (bearings_foldl (fun t c => by simp) _ _).trans (bearings_foldl (fun t h => ?_) _ _)
  dsimp only
  split <;> simp

theorem State.takeKvFrame_bearings {s t : State} {u : KvUser} (h : s.takeKvFrame u = some t) :
    t.bearings = s.bearings := by
  unfold State.takeKvFrame at h
  split at h
  next => cases h
  next =>
    obtain ⟨r, hr, rfl⟩ := Option.map_eq_some_iff.mp h
    simp [State.allocOne_bearings hr]

@[simp] theorem State.endRequest_bearings (s : State) (t : TokenId) (cause : Nat) :
    (s.endRequest t cause).bearings = s.bearings := by simp [State.endRequest]

@[simp] theorem State.reachAttention_bearings (s : State) (t : TokenId) :
    (s.reachAttention t).bearings = s.bearings := by
  dsimp only [State.reachAttention]
  split
  next => simp
  next =>
    split
    next => rfl
    next =>
      split
      next => simp
      next h =>
        split
        next => simp [State.takeKvFrame_bearings h]
        next g => exact (State.takeKvFrame_bearings g).trans (State.takeKvFrame_bearings h)

@[simp] theorem State.dropScoring_bearings (s : State) (b : Nat) : (s.dropScoring b).bearings = s.bearings := by
  simp [State.dropScoring]

@[simp] theorem State.setExit_bearings (s : State) (x : ExitToken) : (s.setExit x).bearings = s.bearings := by
  simp [State.setExit]

@[simp] theorem State.startExit_bearings (s : State) (r : Residual) (shares : List Nat) :
    (s.startExit r shares).bearings = s.bearings := by simp [State.startExit]

@[simp] theorem State.setPort_bearings (s : State) (x : Nat) (p : Port) : (s.setPort x p).bearings = s.bearings := by
  simp [State.setPort]

@[simp] theorem State.formCombined_bearings (s : State) (x : Nat) (e : Nat × Packet) (c : CombineRec) :
    (s.formCombined x e c).bearings = s.bearings := by simp [State.formCombined]

theorem State.tryCombine_bearings {s t : State} {x : Nat} {p : Packet} (h : s.tryCombine x p = some t) :
    t.bearings = s.bearings := by
  unfold State.tryCombine at h
  repeat' split at h
  all_goals cases h
  all_goals simp +decide

@[simp] theorem State.enqueue_bearings (s : State) (x : Nat) (p : Packet) : (s.enqueue x p).bearings = s.bearings := by
  unfold State.enqueue
  split
  next h => exact State.tryCombine_bearings h
  next => simp +decide

@[simp] theorem State.discardPacket_bearings (s : State) (p : Packet) (cause : Nat) :
    (s.discardPacket p cause).bearings = s.bearings := by simp +decide [State.discardPacket]

@[simp] theorem State.unqueue_bearings (s : State) (x : Nat) (e : Nat × Packet) :
    (s.unqueue x e).bearings = s.bearings := by simp [State.unqueue]

@[simp] theorem State.unqueueAll_bearings (s : State) (named : Packet → Bool) (x : Nat) :
    (s.unqueueAll named x).bearings = s.bearings := by simp [State.unqueueAll]

@[simp] theorem State.dropPackets_bearings (s : State) (named : Packet → Bool) :
    (s.dropPackets named).bearings = s.bearings := by simp [State.dropPackets]

@[simp] theorem State.answerTime_bearings (s : State) (domain sender sentAt corr : Nat) :
    (s.answerTime domain sender sentAt corr).bearings = s.bearings := by simp [State.answerTime]

@[simp] theorem State.deliverPacket_bearings (s : State) (p : Packet) : (s.deliverPacket p).bearings = s.bearings := by
  dsimp only [State.deliverPacket]
  (repeat' split) <;> simp +decide

@[simp] theorem State.holdPacket_bearings (s : State) (transit : Bool) (p : Packet) :
    (s.holdPacket transit p).bearings = s.bearings := by simp [State.holdPacket]

@[simp] theorem State.routeUnicast_bearings (s : State) (transit : Bool) (p : Packet) :
    (s.routeUnicast transit p).bearings = s.bearings := by
  dsimp only [State.routeUnicast]
  split <;> simp +decide

@[simp] theorem State.routeMulticast_bearings (s : State) (transit : Bool) (p : Packet) :
    (s.routeMulticast transit p).bearings = s.bearings := by simp +decide [State.routeMulticast]

@[simp] theorem State.routePacket_bearings (s : State) (transit : Bool) (p : Packet) :
    (s.routePacket transit p).bearings = s.bearings := by simp [State.routePacket]

@[simp] theorem State.freeSlots_bearings (s : State) (x : Nat) : (s.freeSlots x).bearings = s.bearings := by
  simp [State.freeSlots]

@[simp] theorem State.freeAllSlots_bearings (s : State) : s.freeAllSlots.bearings = s.bearings := by
  simp [State.freeAllSlots]

@[simp] theorem State.truncateOnward_bearings (s : State) (p : Packet) :
    (s.truncateOnward p).bearings = s.bearings := by simp [State.truncateOnward]

@[simp] theorem State.cutArrivals_bearings (s : State) (x : Nat) : (s.cutArrivals x).bearings = s.bearings := by
  simp [State.cutArrivals]

@[simp] theorem State.closePort_bearings (s : State) (x : Nat) : (s.closePort x).bearings = s.bearings := by
  simp [State.closePort]

@[simp] theorem State.putFlit_bearings (s : State) (x : Nat) (f : SentFlit) :
    (s.putFlit x f).bearings = s.bearings := by simp [State.putFlit]

@[simp] theorem State.countOwn_bearings (s : State) (x : Nat) (e : Packet) :
    (s.countOwn x e).bearings = s.bearings := by simp [State.countOwn]

@[simp] theorem State.sendData_bearings (s : State) (x : Nat) (e : Nat × Packet) :
    (s.sendData x e).bearings = s.bearings := by simp [State.sendData]

@[simp] theorem State.sendOne_bearings (s : State) (x : Nat) : (s.sendOne x).bearings = s.bearings := by
  dsimp only [State.sendOne]
  (repeat' split) <;> simp

@[simp] theorem sendSome_bearings (x n : Nat) (s : State) : (sendSome x n s).bearings = s.bearings := by
  induction n generalizing s with
  | zero => rfl
  | succ n ih => simp [sendSome, ih]

@[simp] theorem State.sendSpan_bearings (s : State) (n x : Nat) : (s.sendSpan n x).bearings = s.bearings := by
  simp [State.sendSpan]

/-- Setting hall time leaves the other bearings. -/
theorem State.bearings_hallTime (s : State) (t : Nat) :
    { s with time := { s.time with hallTime := t } }.bearings = { s.bearings with hallTime := t } := rfl

/-- Hall time moves on and nothing else of the bearings. -/
theorem State.advanceTo_bearings (s : State) (t : Nat) :
    (s.advanceTo t).bearings = { s.bearings with hallTime := max t s.time.hallTime } := by
  dsimp only [State.advanceTo]
  rw [State.bearings_hallTime, State.bearings_foldl fun u x => u.sendSpan_bearings _ x]

theorem State.bearings_hallTime_eq (s : State) : s.bearings.hallTime = s.time.hallTime := rfl

theorem State.bearings_commits_eq (s : State) : s.bearings.commits = s.commits := rfl

theorem State.advanceTo_hallTime (s : State) (t : Nat) : (s.advanceTo t).time.hallTime = max t s.time.hallTime := by
  rw [← State.bearings_hallTime_eq, State.advanceTo_bearings]

theorem State.advanceTo_commits (s : State) (t : Nat) : (s.advanceTo t).commits = s.commits := by
  rw [← State.bearings_commits_eq, State.advanceTo_bearings]
  rfl

theorem State.advanceTo_reg (s : State) (t : Nat) {k : Nat} (hk : k ∈ bearingKeys) : (s.advanceTo t).reg k = s.reg k :=
  List.map_inj_left.mp (congrArg Bearings.numbers (s.advanceTo_bearings t)) k hk

@[simp] theorem State.dropOwnPackets_bearings (s : State) (cls b : Nat) :
    (s.dropOwnPackets cls b).bearings = s.bearings := by simp [State.dropOwnPackets]

@[simp] theorem State.closeAudit_bearings (s : State) : s.closeAudit.bearings = s.bearings := by
  dsimp only [State.closeAudit]
  split <;> simp +decide

@[simp] theorem State.judgeClip_bearings (s : State) (e : Nat × ClipCount) : (s.judgeClip e).bearings = s.bearings := by
  simp +decide [State.judgeClip]

@[simp] theorem State.closeClip_bearings (s : State) : s.closeClip.bearings = s.bearings := by
  dsimp only [State.closeClip]
  split <;> simp

@[simp] theorem State.windowBeats_bearings (s : State) : s.windowBeats.bearings = s.bearings := by
  simp [State.windowBeats]

@[simp] theorem State.judgeBefore_bearings (s : State) : s.judgeBefore.bearings = s.bearings := by
  simp [State.judgeBefore]

@[simp] theorem State.stale347_bearings (s : State) (changed : Bool) : (s.stale347 changed).bearings = s.bearings := by
  simp +decide [State.stale347]

@[simp] theorem State.selectBank_bearings (s : State) (c old : Nat) : (s.selectBank c old).bearings = s.bearings := by
  simp +decide [State.selectBank]

@[simp] theorem State.switchBanks_bearings (o s : State) (h : Shadow) :
    (State.switchBanks o s h).bearings = s.bearings := by simp [State.switchBanks]

theorem State.configPort_bearings (s : State) {x : Nat} (hx : x < 60) : (s.configPort x).bearings = s.bearings := by
  simp [State.configPort, portState_not_bearing hx]

@[simp] theorem State.configPorts_bearings (s : State) (h : Shadow) : (s.configPorts h).bearings = s.bearings :=
  State.bearings_foldl_mem
    (fun _ hx t => t.configPort_bearings (List.mem_range.mp (List.mem_filter.mp hx).1)) s

theorem State.activeSlots_lt {s : State} {i : Nat} (h : i ∈ s.activeSlots) : i < 65536 := by
  have := List.mem_range.mp (List.mem_filter.mp h).1
  omega

@[simp] theorem State.emptySlots_bearings (o s : State) (h : Shadow) :
    (State.emptySlots o s h).bearings = s.bearings := by
  unfold State.emptySlots
  split
  · rfl
  · refine State.bearings_foldl_mem (fun i hi t => State.bearings_foldl_mem (fun k hk u => ?_) t) s
    obtain ⟨hne, h0⟩ := (by decide : ∀ k ∈ [Reg.gateGroupW, Reg.gateExpertW, Reg.gateGroupBias, Reg.gateExpertBias,
      Reg.expertMap, Reg.sendGrants, Reg.predShared],
      (∀ j ∈ committedTables, j / 65536 ≠ k / 65536) ∧ k % 65536 = 0) k hk
    exact u.setDom_bearings (slotKey_not_committed hne h0 (State.activeSlots_lt (List.mem_filter.mp hi).1)) _

@[simp] theorem State.startCopy_bearings (s : State) (claimed : Bool) :
    (s.startCopy claimed).bearings = s.bearings := by simp +decide [State.startCopy]

@[simp] theorem State.endClaim_bearings (s : State) (r : Role) : (s.endClaim r).bearings = s.bearings := by
  simp +decide [State.endClaim]

@[simp] theorem State.dropImages_bearings (s : State) : s.dropImages.bearings = s.bearings := by
  simp [State.dropImages]

@[simp] theorem State.configured_bearings (s : State) : s.configured.bearings = s.bearings := by
  simp +decide [State.configured]

@[simp] theorem State.endRecalls_bearings (o s : State) : (State.endRecalls o s).bearings = s.bearings := by
  simp +decide [State.endRecalls]

/-- Of what a commit sets off, the anchor alone changes a bearing: whether a tick has fallen. -/
theorem State.commitEffects_bearings (o s : State) (h : Shadow) (r : Role) :
    (State.commitEffects o s h r).bearings =
      (if h.hasAny [Reg.anchorBeat, Reg.anchorTime] then s.anchorSet (!o.noBeat) else s).bearings := by
  simp +decide [State.commitEffects]

@[simp] theorem State.setTslot_bearings (s : State) (i : Nat) (t : TenantSlot) :
    (s.setTslot i t).bearings = s.bearings := by simp [State.setTslot]

@[simp] theorem State.closeMinuteAt_bearings (s : State) (t : Nat) : (s.closeMinuteAt t).bearings = s.bearings := by
  simp [State.closeMinuteAt]

@[simp] theorem State.setPhase_bearings (s : State) (p : Nat) : (s.setPhase p).bearings = s.bearings := by
  simp +decide [State.setPhase]

@[simp] theorem State.armSwap_bearings (s : State) (teardown : Bool) (epoch incoming : Nat) :
    (s.armSwap teardown epoch incoming).bearings = s.bearings := by simp +decide [State.armSwap]

@[simp] theorem State.failLoads_bearings (s : State) : s.failLoads.bearings = s.bearings := by simp +decide [State.failLoads]

theorem State.startSwap_bearings {s : State} (h : s.commits = []) : s.startSwap.bearings = s.bearings := by
  simp [State.startSwap, h]

theorem State.epochAt_bearings {s : State} (h : s.commits = []) (k : Nat) : (s.epochAt k).bearings = s.bearings := by
  simp [State.epochAt, State.startSwap_bearings h]

@[simp] theorem State.resumeAt_bearings (s : State) (k : Nat) : (s.resumeAt k).bearings = s.bearings := by
  simp +decide [State.resumeAt]

@[simp] theorem State.startAt_bearings (s : State) (k : Nat) : (s.startAt k).bearings = s.bearings := by
  dsimp only [State.startAt]
  split <;> simp +decide

theorem State.teardownAt_bearings {s : State} (h : s.commits = []) (k : Nat) : (s.teardownAt k).bearings = s.bearings := by
  unfold State.teardownAt
  split
  · rw [State.bearings_ite, State.startSwap_bearings (by simpa [State.armSwap] using h)]
    simp +decide
  · rfl

@[simp] theorem State.rejoinAt_bearings (s : State) (k : Nat) : (s.rejoinAt k).bearings = s.bearings := by
  dsimp only [State.rejoinAt]
  split <;> simp +decide

@[simp] theorem State.standInToken_bearings (s : State) (rank : Nat) (t : TokenId) :
    (s.standInToken rank t).bearings = s.bearings := by simp [State.standInToken]

@[simp] theorem State.emitOut_bearings (s : State) (r : OutRec) : (s.emitOut r).bearings = s.bearings := by
  simp +decide [State.emitOut]

@[simp] theorem State.setBatch_bearings (s : State) (b : Batch) : (s.setBatch b).bearings = s.bearings := by
  simp [State.setBatch]

@[simp] theorem State.setUsed_bearings (s : State) (n : Nat) : (s.setUsed n).bearings = s.bearings := by
  simp [State.setUsed]

@[simp] theorem State.idleLaneAt_bearings (s : State) (b : Batch) (i : Nat) :
    (s.idleLaneAt b i).bearings = s.bearings := by simp [State.idleLaneAt]

@[simp] theorem State.embedToken_bearings (s : State) (tok : TokenId) (id n : Nat) :
    (s.embedToken tok id n).bearings = s.bearings := by simp [State.embedToken]

@[simp] theorem State.sendEntry_bearings (s : State) (e : EntryOut) : (s.sendEntry e).bearings = s.bearings := by
  simp [State.sendEntry]

@[simp] theorem State.entriesAtTick_bearings (s : State) (late : TokenId → Bool) :
    (s.entriesAtTick late).bearings = s.bearings := by simp [State.entriesAtTick]

@[simp] theorem State.embed_bearings (s : State) (b : Batch) (i : Nat) (l : Lane) (fromPrompt : Bool) (n : Nat) :
    (s.embed b i l fromPrompt n).bearings = s.bearings := by simp [State.embed]

@[simp] theorem State.entryLane_bearings (t : Nat) (s : State) (n i : Nat) :
    (State.entryLane t s n i).bearings = s.bearings := by
  dsimp only [State.entryLane]
  (repeat' split) <;> simp

@[simp] theorem State.entryStages_bearings (s : State) (t : Nat) : (s.entryStages t).bearings = s.bearings := by
  simp [State.entryStages]

@[simp] theorem State.cancelBatch_bearings (s : State) (b : Batch) (beat : Nat) :
    (s.cancelBatch b beat).bearings = s.bearings := by
  dsimp only [State.cancelBatch]
  split
  next => rfl
  next =>
    refine (bearings_foldl (fun t i => ?_) _ _).trans (State.setBatch_bearings s _)
    split <;> simp

@[simp] theorem State.flagTokens_bearings (s : State) (items : List Unfinished) :
    (s.flagTokens items).bearings = s.bearings := by simp [State.flagTokens]

@[simp] theorem State.askTime_bearings (s : State) : s.askTime.bearings = s.bearings := by simp [State.askTime]

@[simp] theorem State.scrubCore_bearings (s : State) (c ns : Nat) : (s.scrubCore c ns).bearings = s.bearings := by
  simp [State.scrubCore]

@[simp] theorem State.scrubCache_bearings (s : State) (k ns : Nat) : (s.scrubCache k ns).bearings = s.bearings := by
  simp [State.scrubCache]

@[simp] theorem State.scrubIdle_bearings (s : State) : s.scrubIdle.bearings = s.bearings := by simp [State.scrubIdle]

@[simp] theorem State.beatTotals_bearings (s : State) : s.beatTotals.bearings = s.bearings := by
  simp +decide [State.beatTotals]

@[simp] theorem State.expireCredits_bearings (s : State) : s.expireCredits.bearings = s.bearings := by
  simp +decide [State.expireCredits]

@[simp] theorem State.releaseConsists_bearings (s : State) : s.releaseConsists.bearings = s.bearings := by
  simp [State.releaseConsists]

@[simp] theorem State.dropAudits_bearings (s : State) : s.dropAudits.bearings = s.bearings := by
  simp +decide [State.dropAudits]

@[simp] theorem State.checkPool_bearings (s : State) (k : Nat) : (s.checkPool k).bearings = s.bearings := by
  simp +decide [State.checkPool]

@[simp] theorem State.reportIdentity_bearings (s : State) (i cause : Nat) :
    (s.reportIdentity i cause).bearings = s.bearings := by simp [State.reportIdentity]

@[simp] theorem State.checkLedger_bearings (s : State) : s.checkLedger.bearings = s.bearings := by
  simp [State.checkLedger]

@[simp] theorem State.charge_bearings (s : State) : s.charge.bearings = s.bearings := by simp [State.charge]

@[simp] theorem State.deferRelocation_bearings (s : State) : s.deferRelocation.bearings = s.bearings := by
  simp [State.deferRelocation]

@[simp] theorem State.settleStale_bearings (s : State) : s.settleStale.bearings = s.bearings := by
  simp [State.settleStale]

@[simp] theorem State.dropOldManifests_bearings (s : State) : s.dropOldManifests.bearings = s.bearings := by
  simp +decide [State.dropOldManifests]

@[simp] theorem State.cutInvocations_bearings (s : State) (n : Nat) : (s.cutInvocations n).bearings = s.bearings := by
  simp [State.cutInvocations]

@[simp] theorem State.abandonUnit_bearings (s : State) (unit b : Nat) :
    (s.abandonUnit unit b).bearings = s.bearings := by simp [State.abandonUnit]

@[simp] theorem State.cutsAt_bearings (s : State) (n : Nat) : (s.cutsAt n).bearings = s.bearings := by
  simp +decide [State.cutsAt]

@[simp] theorem State.dropOld_bearings (s : State) (n : Nat) : (s.dropOld n).bearings = s.bearings := by
  simp [State.dropOld]

@[simp] theorem State.reloadCredits_bearings (s : State) : s.reloadCredits.bearings = s.bearings := by
  simp +decide [State.reloadCredits]

@[simp] theorem State.clearParity_bearings (s : State) (n : Nat) : (s.clearParity n).bearings = s.bearings := by
  simp [State.clearParity]

@[simp] theorem State.invoke_bearings (s : State) (n c : Nat) : (s.invoke n c).bearings = s.bearings := by
  simp [State.invoke]

@[simp] theorem State.invokeAll_bearings (s : State) (n : Nat) : (s.invokeAll n).bearings = s.bearings := by
  simp [State.invokeAll]

@[simp] theorem State.startStage_bearings (s : State) (r : Residual) : (s.startStage r).bearings = s.bearings := by
  simp [State.startStage]

@[simp] theorem State.attend_bearings (lost : List (TokenId × Nat)) (s : State) (r : Residual) :
    (State.attend lost s r).bearings = s.bearings := by
  dsimp only [State.attend]
  split <;> simp

@[simp] theorem State.combineAndEnter_bearings (s : State) (n : Nat) : (s.combineAndEnter n).bearings = s.bearings := by
  simp [State.combineAndEnter]

@[simp] theorem State.enterHold_bearings (s : State) : s.enterHold.bearings = s.bearings := by simp +decide [State.enterHold]

/-! ### The tick -/

/-- What the overruns of a tick leave of the bearings where it matters here: they count in OVERRUN_UNITS. -/
def State.timeAndCommits (s : State) : Timebase × List (Nat × Pending) := (s.time, s.commits)

theorem State.overrun_timeAndCommits (s : State) (unit cause : Nat) :
    (s.overrun unit cause).timeAndCommits = s.timeAndCommits := by
  unfold State.overrun
  split <;> rfl

theorem State.unitOverruns_timeAndCommits (items : List Unfinished) (s : State) (u : Nat) :
    (State.unitOverruns items s u).timeAndCommits = s.timeAndCommits := by
  unfold State.unitOverruns
  split
  · rfl
  · exact s.overrun_timeAndCommits u _

theorem State.overrunsAt_keeps (s : State) (n : Nat) (unfinished : List Unfinished) :
    (s.overrunsAt n unfinished).time.hallTime = s.time.hallTime ∧ (s.overrunsAt n unfinished).commits = s.commits := by
  unfold State.overrunsAt
  split
  · exact ⟨State.hallTime_of_bearings (by simp), State.commits_of_bearings (by simp)⟩
  · dsimp only
    generalize unfinished ++ s.moverItems ++ s.segmentItems ++ s.yardItems ++ s.queuedItems = items
    have h := foldl_keeps State.timeAndCommits (State.unitOverruns_timeAndCommits items) (List.range 13) s
    obtain ⟨ht, hc⟩ := Prod.ext_iff.mp h
    exact ⟨(State.hallTime_of_bearings (State.flagTokens_bearings _ items)).trans (congrArg Timebase.hallTime ht),
      (State.commits_of_bearings (State.flagTokens_bearings _ items)).trans hc⟩

theorem State.endBeat_keeps (s : State) (n : Nat) (unfinished : List Unfinished) :
    (s.endBeat n unfinished).time.hallTime = s.time.hallTime ∧ (s.endBeat n unfinished).commits = s.commits := by
  obtain ⟨ht, hc⟩ := s.overrunsAt_keeps n unfinished
  unfold State.endBeat
  split
  · exact ⟨rfl, rfl⟩
  · exact ⟨(State.hallTime_of_bearings (by simp)).trans ht, (State.commits_of_bearings (by simp)).trans hc⟩

/-- As the tick falls the beat's number and the flag that a tick has fallen are the bearings that change. -/
theorem State.fall_keeps (s : State) (n : Nat) :
    (s.fall n).reg Reg.beatNumber = n ∧ (s.fall n).time.ticked = true ∧ (s.fall n).time.hallTime = s.time.hallTime ∧
      (s.fall n).commits = s.commits := by
  have hu : s.beatTotals.expireCredits.bearings = s.bearings := by simp
  have hf : (s.fall n).bearings = { s.beatTotals.expireCredits.setReg Reg.beatNumber n with
      time := { s.beatTotals.expireCredits.time with ticked := true } }.bearings := by
    dsimp only [State.fall]
    simp
  revert hu hf
  generalize s.fall n = f
  generalize s.beatTotals.expireCredits = u
  intro hu hf
  refine ⟨?_, State.ticked_of_bearings hf, ?_, ?_⟩
  · exact (State.reg_of_bearings hf (by decide)).trans ((State.reg_of_regs rfl _).trans (u.reg_setReg_same _ n))
  · rw [State.hallTime_of_bearings hf, ← State.hallTime_of_bearings hu]
  · rw [State.commits_of_bearings hf, ← State.commits_of_bearings hu]
    rfl

theorem State.applyAt_none {s : State} (h : s.commits = []) (r : Role) (k : Nat) : s.applyAt r k = s := by
  simp [State.applyAt, h]

theorem State.applyDue_none {s : State} (h : s.commits = []) (k : Nat) : s.applyDue k = s := by
  simp [State.applyDue, commitOrder, State.applyAt_none h]

/-- A tick without a pending commit opens its beat on a state with the bearings of the one that it falls on. -/
theorem State.startBeat_bearings {s : State} (h : s.commits = []) (n : Nat) :
    ∃ v : State, v.bearings = s.bearings ∧ (s.startBeat n).bearings = v.openBeat.bearings := by
  let a := ((s.startAt n).rejoinAt n).resumeAt n
  have ha : a.bearings = s.bearings := by simp [a]
  have hac : a.commits = [] := (State.commits_of_bearings ha).trans h
  have he : (a.epochAt n).bearings = s.bearings := (State.epochAt_bearings hac n).trans ha
  have hec : (a.epochAt n).commits = [] := (State.commits_of_bearings he).trans h
  have hb : ((a.epochAt n).teardownAt n).enterHold.bearings = s.bearings := by
    rw [State.enterHold_bearings, State.teardownAt_bearings hec, he]
  have hbc : ((a.epochAt n).teardownAt n).enterHold.commits = [] := (State.commits_of_bearings hb).trans h
  refine ⟨((a.epochAt n).teardownAt n).enterHold.reloadCredits.clearParity n, by simpa using hb, ?_⟩
  dsimp only [State.startBeat]
  rw [State.applyDue_none hbc, State.invokeAll_bearings, State.combineAndEnter_bearings]

/-- What a beat's opening sets of the bearings, and what it leaves. -/
theorem State.openBeat_bearings (s : State) :
    s.openBeat.reg Reg.beatNumber = s.reg Reg.beatNumber ∧ s.openBeat.reg Reg.overrunUnits = 0 ∧
      s.openBeat.time = s.time ∧ s.openBeat.beat.maintOpen = false ∧ s.openBeat.beat.intakeClosed = false := by
  refine ⟨?_, ?_, rfl, rfl, rfl⟩
  · exact (State.reg_setReg_other _ _ (by decide)).trans (State.reg_setReg_other _ _ (by decide))
  · exact (State.reg_setReg_other _ _ (by decide)).trans (State.reg_setReg_same _ _ _)

/-- From the end of the old beat on: the bearings that the tick of beat n sets, with no commit pending. -/
theorem State.fall_startBeat_keeps {e : State} (free : e.commits = []) (n : Nat) :
    ∃ v : State, ((e.fall n).startBeat n).bearings = v.bearings ∧ v.reg Reg.beatNumber = n ∧
      v.time.hallTime = e.time.hallTime ∧ v.time.ticked = true ∧ v.beat.maintOpen = false ∧
      v.beat.intakeClosed = false ∧ v.reg Reg.overrunUnits = 0 := by
  obtain ⟨hfn, hfk, hft, hfc⟩ := e.fall_keeps n
  obtain ⟨v, hv, hstart⟩ := State.startBeat_bearings (hfc.trans free) n
  obtain ⟨hnum, hunits, htime, hmaint, hintake⟩ := v.openBeat_bearings
  refine ⟨v.openBeat, hstart, ?_, ?_, ?_, hmaint, hintake, hunits⟩
  · rw [hnum, State.reg_of_bearings hv (by decide), hfn]
  · rw [htime, State.hallTime_of_bearings hv, hft]
  · rw [htime, State.ticked_of_bearings hv, hfk]

/-- A tick of an anchored device that no commit waits for. -/
theorem exec_tick_bearings {s : State} (unfinished : List Unfinished) (anchored : s.time.anchored = true)
    (free : s.commits = []) : ∃ t, exec (.tick unfinished) s = .next t ∧ t.reg Reg.beatNumber = s.nextBeat ∧
      s.tickTime s.nextBeat ≤ t.time.hallTime ∧ t.time.ticked = true ∧ t.beat.maintOpen = false ∧
      t.beat.intakeClosed = false ∧ t.reg Reg.overrunUnits = 0 := by
  obtain ⟨het, hec⟩ := (s.advanceTo (s.tickTime s.nextBeat)).endBeat_keeps s.nextBeat unfinished
  rw [s.advanceTo_hallTime] at het
  rw [s.advanceTo_commits, free] at hec
  obtain ⟨v, hv, hnum, htime, hticked, hmaint, hintake, hunits⟩ := State.fall_startBeat_keeps hec s.nextBeat
  rw [← State.askTime_bearings] at hv
  have run : exec (.tick unfinished) s = .next ((((s.advanceTo (s.tickTime s.nextBeat)).endBeat s.nextBeat
      unfinished).fall s.nextBeat).startBeat s.nextBeat).askTime := by simp [execTick, anchored]
  refine ⟨_, run, ?_, ?_, ?_, ?_, ?_, ?_⟩
  · exact (State.reg_of_bearings hv (by decide)).trans hnum
  · rw [State.hallTime_of_bearings hv, htime, het]
    exact le_max_left _ _
  · exact (State.ticked_of_bearings hv).trans hticked
  · exact (State.maintOpen_of_bearings hv).trans hmaint
  · exact (State.intakeClosed_of_bearings hv).trans hintake
  · exact (State.reg_of_bearings hv (by decide)).trans hunits

end Sys2Proof.Machine
end

section
/-! SUPPORT. The cut of a late unit, and the maintenance slot. -/

namespace Sys2Proof.Machine

open Sys2Proof

/-! ### Entries of a table whose keys rise -/

theorem keysRise_of_above {b : Nat} {m : List (Nat × α)} (h : keysAbove b m = true) : keysRise m = true := by
  cases m with
  | nil => rfl
  | cons e m => exact (Bool.and_eq_true_iff.mp h).2

theorem key_lt_of_above {b : Nat} {m : List (Nat × α)} (h : keysAbove b m = true) : ∀ e ∈ m, b < e.1 := by
  induction m generalizing b with
  | nil => simp
  | cons e m ih =>
    simp only [keysAbove, Bool.and_eq_true, decide_eq_true_eq] at h
    intro e' he'
    rcases List.mem_cons.mp he' with rfl | hm
    · exact h.1
    · exact h.1.trans (ih h.2 e' hm)

/-- The entries of a table whose keys rise have different keys. -/
theorem pairwise_of_keysRise {m : List (Nat × α)} (h : keysRise m = true) : m.Pairwise (fun e f => e.1 ≠ f.1) := by
  induction m with
  | nil => exact .nil
  | cons e m ih => exact .cons (fun f hf => (key_lt_of_above h f hf).ne) (ih (keysRise_of_above h))

/-- Each entry of a table whose keys rise is the one found under its key. -/
theorem mapGet_of_mem {m : List (Nat × α)} (h : keysRise m = true) {e : Nat × α} (he : e ∈ m) :
    mapGet e.1 m = some e.2 := by
  induction m with
  | nil => cases he
  | cons f m ih =>
    rcases List.mem_cons.mp he with rfl | hm
    · simp [mapGet]
    · rw [mapGet, if_neg (key_lt_of_above h e hm).ne]
      exact ih (keysRise_of_above h) hm

theorem State.core_of_mem {s : State} (h : keysRise s.cores = true) {e : Nat × Core} (he : e ∈ s.cores) :
    s.core e.1 = e.2 := by
  unfold State.core mapGetD
  rw [mapGet_of_mem h he]
  rfl

/-! ### The cut of an invocation -/

theorem Core.setQueue_seq (k : Core) (e : Engine) (q : EngQueue) : (k.setQueue e q).seq = k.seq := by cases e <;> rfl

theorem Core.bankReleased_seq (k : Core) (b : Nat) : (k.bankReleased b).seq = k.seq := by
  unfold Core.bankReleased Core.setBank
  repeat' split
  all_goals rfl

/-- An invocation that nothing is to follow is idle after its cut. -/
theorem State.cutInvocation_seq_same {s : State} {c : Nat} (h : (s.core c).seq.nextDue = false) :
    ((s.cutInvocation c).core c).seq = Sequencer.idle := by
  have hq : (allEngines.foldl (fun k e => k.setQueue e ⟨[], none⟩) (s.core c)).seq = (s.core c).seq :=
    foldl_keeps Core.seq (fun k e => k.setQueue_seq e _) allEngines _
  dsimp only [State.cutInvocation]
  simp [State.endInvocation, Core.bankReleased_seq, hq, h]

theorem State.startInvocation_core_other (s : State) {c j : Nat} (hj : j ≠ c) (b : Nat) :
    (s.startInvocation c b).core j = s.core j := by
  unfold State.startInvocation
  dsimp only
  split
  · rfl
  · simp [State.core_setCore_other _ _ hj]

theorem State.cutInvocation_core_other (s : State) {c j : Nat} (hj : j ≠ c) : (s.cutInvocation c).core j = s.core j := by
  unfold State.cutInvocation State.endInvocation
  dsimp only
  split
  · rw [State.startInvocation_core_other _ hj]
    simp [State.core_setCore_other _ _ hj]
  · simp [State.core_setCore_other _ _ hj]

/-- What the cut of late invocations does to one listed core. -/
def State.cutIfLate (n : Nat) (s : State) (e : Nat × Core) : State :=
  if e.2.seq.running ∧ e.2.seq.beat + 2 ≤ n then
    (s.setCore e.1 { e.2 with seq := { e.2.seq with nextDue := false } }).cutInvocation e.1
  else s

theorem State.cutInvocations_eq (s : State) (n : Nat) : s.cutInvocations n = s.cores.foldl (State.cutIfLate n) s := rfl

theorem State.cutIfLate_core_other (s : State) (n : Nat) {e : Nat × Core} {j : Nat} (hj : j ≠ e.1) :
    (State.cutIfLate n s e).core j = s.core j := by
  unfold State.cutIfLate
  split
  · rw [State.cutInvocation_core_other _ hj, State.core_setCore_other _ _ hj]
  · rfl

theorem State.cutIfLate_seq_same {s : State} {n : Nat} {e : Nat × Core} (running : e.2.seq.running = true)
    (late : e.2.seq.beat + 2 ≤ n) : ((State.cutIfLate n s e).core e.1).seq = Sequencer.idle := by
  unfold State.cutIfLate
  rw [if_pos ⟨running, late⟩]
  exact State.cutInvocation_seq_same (by simp)

/-- Each listed core that runs a late invocation is idle after the cut, where the cores' keys differ. -/
theorem State.cutIfLate_foldl_seq {n : Nat} {e : Nat × Core} (running : e.2.seq.running = true)
    (late : e.2.seq.beat + 2 ≤ n) {l : List (Nat × Core)} (hl : l.Pairwise (fun e f => e.1 ≠ f.1)) (he : e ∈ l)
    (s : State) : ((l.foldl (State.cutIfLate n) s).core e.1).seq = Sequencer.idle := by
  induction l generalizing s with
  | nil => cases he
  | cons f l ih =>
    obtain ⟨hf, hl⟩ := List.pairwise_cons.mp hl
    rcases List.mem_cons.mp he with rfl | hm
    · have keep : ∀ (l : List (Nat × Core)) (t : State), (∀ g ∈ l, e.1 ≠ g.1) →
          (l.foldl (State.cutIfLate n) t).core e.1 = t.core e.1 := fun l => by
        induction l with
        | nil => exact fun t _ => rfl
        | cons g l ih => exact fun t h =>
            (ih _ fun g hg => h g (.tail _ hg)).trans (t.cutIfLate_core_other n (h g (.head _)))
      exact (congrArg Core.seq (keep l _ hf)).trans (State.cutIfLate_seq_same running late)
    · exact ih hl hm _

/-! ### The cut of a unit -/

/-- What the cut of a unit leaves alone: the beat's own state and the count of cuts. -/
def State.beatAndCuts (s : State) : BeatSt × Nat := (s.beat, s.reg Reg.cutCount)

theorem State.startInvocation_beatAndCuts (s : State) (c b : Nat) :
    (s.startInvocation c b).beatAndCuts = s.beatAndCuts := by
  unfold State.startInvocation State.beatAndCuts
  dsimp only
  split
  · rfl
  · rw [State.reg_count_other _ _ (by decide)]
    simp

theorem State.cutInvocation_beatAndCuts (s : State) (c : Nat) : (s.cutInvocation c).beatAndCuts = s.beatAndCuts := by
  unfold State.cutInvocation State.endInvocation
  dsimp only
  split
  · rw [State.startInvocation_beatAndCuts]
    simp [State.beatAndCuts]
  · simp [State.beatAndCuts]

theorem State.cutIfLate_beatAndCuts (n : Nat) (s : State) (e : Nat × Core) :
    (State.cutIfLate n s e).beatAndCuts = s.beatAndCuts := by
  unfold State.cutIfLate
  split
  · rw [State.cutInvocation_beatAndCuts]
    simp [State.beatAndCuts]
  · rfl

theorem State.unqueue_beatAndCuts (s : State) (x : Nat) (e : Nat × Packet) :
    (s.unqueue x e).beatAndCuts = s.beatAndCuts := by
  dsimp only [State.unqueue]
  split <;> rfl

theorem State.dropPackets_beatAndCuts (s : State) (named : Packet → Bool) :
    (s.dropPackets named).beatAndCuts = s.beatAndCuts := by
  unfold State.dropPackets State.unqueueAll
  exact foldl_keeps State.beatAndCuts
    (fun t x => foldl_keeps State.beatAndCuts (fun u e => u.unqueue_beatAndCuts x e) _ t) _ _

theorem State.abandonUnit_beatAndCuts (s : State) (unit b : Nat) :
    (s.abandonUnit unit b).beatAndCuts = s.beatAndCuts := by
  unfold State.abandonUnit
  repeat' split
  · exact foldl_keeps State.beatAndCuts (State.cutIfLate_beatAndCuts _) _ _
  · exact foldl_keeps State.beatAndCuts (f := State.leaveStage) (fun _ _ => rfl) _ _
  · exact s.dropPackets_beatAndCuts _
  · exact s.dropPackets_beatAndCuts _
  · rfl

/-- The cut of the one late unit. -/
theorem exec_cut_late {s : State} {u b : Nat} (late : s.beat.late = [(u, b)]) (past : b < s.beatNow) :
    ∃ t, exec (.cut u) s = .next t ∧ t.beat.late = [] ∧ t.reg Reg.cutCount = (s.reg Reg.cutCount + 1) % 2 ^ 32 ∧
      (listUnits.contains u = true → ∀ e ∈ s.cores, (s.core e.1).seq.running = true → (s.core e.1).seq.beat ≤ b →
        keysRise s.cores = true → (t.core e.1).seq = Sequencer.idle) := by
  let v : State := { s with beat := { s.beat with late := [] } }
  have run : exec (.cut u) s = .next ((v.abandonUnit u b).count Reg.cutCount 1) := by
    simp [execCut, late, past, v]
  obtain ⟨hbeat, hcuts⟩ := Prod.ext_iff.mp (v.abandonUnit_beatAndCuts u b)
  refine ⟨_, run, ?_, ?_, fun lists e he running before rise => ?_⟩
  · exact congrArg BeatSt.late hbeat
  · rw [State.reg_count_same]
    exact congrArg (fun n => (n + 1) % 2 ^ 32) hcuts
  · rw [State.core_of_mem rise he] at running before
    rw [State.core_count, State.abandonUnit, if_pos lists, State.cutInvocations_eq]
    exact State.cutIfLate_foldl_seq running (by omega) (pairwise_of_keysRise rise) he v

/-! ### The maintenance slot -/

/-- What the scrubbers of a maintenance slot leave alone. -/
def State.scrubView (s : State) : BeatSt × List (Nat × Nat) × List (Nat × Core) × Nat × Memory × List Nat :=
  (s.beat, s.regs, s.cores, s.tiers.patrol, s.tiers.hbm, s.tiers.hbmBad)

/-- The maintenance slot's scrubbers at work. -/
def State.slotScrubbed (s : State) (ns : Nat) : State :=
  (List.range 16).foldl (fun s k => s.scrubCache k ns)
    (((List.range 128).filter s.coreOn).foldl (fun s c => s.scrubCore c ns) s)

theorem State.slotScrubbed_view (s : State) (ns : Nat) : (s.slotScrubbed ns).scrubView = s.scrubView :=
  (foldl_keeps State.scrubView (f := fun s k => s.scrubCache k ns) (fun _ _ => rfl) _ _).trans
    (foldl_keeps State.scrubView (f := fun s c => s.scrubCore c ns) (fun _ _ => rfl) _ _)

theorem State.patrolStep_keeps (s : State) :
    s.patrolStep.beat = s.beat ∧ s.patrolStep.reg Reg.sramCe = s.reg Reg.sramCe ∧
      s.patrolStep.tiers.patrol = (if channelLines ≤ s.tiers.patrol + 1 then 0 else s.tiers.patrol + 1) ∧
      s.patrolStep.cores = s.cores ∧ s.patrolStep.tiers.hbm = s.tiers.hbm ∧ s.patrolStep.tiers.hbmBad = s.tiers.hbmBad := by
  unfold State.patrolStep
  dsimp only
  split
  · exact ⟨rfl, State.reg_count_other _ _ (by decide), rfl, rfl, rfl, rfl⟩
  · exact ⟨rfl, rfl, rfl, rfl, rfl, rfl⟩

theorem State.repairReplicas_sound {s : State} (h : s.tiers.hbmBad = []) : s.repairReplicas = s := by
  unfold State.repairReplicas
  rw [h]
  rfl

/-- A maintenance slot without audits, where no line of the HBM is bad. -/
theorem exec_maintenanceSlot_sound {s : State} (n : Nat) (closed : s.beat.maintOpen = false)
    (sound : s.tiers.hbmBad = []) : ∃ t, exec (.maintenanceSlot n []) s = .next t ∧
      t.beat.maintOpen = true ∧ t.reg Reg.sramCe = (s.reg Reg.sramCe + n) % 2 ^ 32 ∧
      t.tiers.patrol = (if channelLines ≤ s.tiers.patrol + 1 then 0 else s.tiers.patrol + 1) ∧ t.cores = s.cores ∧
      t.tiers.hbm = s.tiers.hbm := by
  let v : State := { s with beat := { s.beat with maintOpen := true } }
  obtain ⟨w, hw⟩ : ∃ w, v.slotScrubbed (maintLen (s.reg Reg.beatPeriod)) = w := ⟨_, rfl⟩
  have view : w.scrubView = v.scrubView := hw ▸ v.slotScrubbed_view _
  simp only [State.scrubView, Prod.mk.injEq] at view
  obtain ⟨hbeat, hregs, hcores, hpatrol, hhbm, hbad⟩ := view
  obtain ⟨pbeat, psram, ppatrol, pcores, phbm, pbad⟩ := (w.count Reg.sramCe n).patrolStep_keeps
  have run : exec (.maintenanceSlot n []) s = .next (w.count Reg.sramCe n).patrolStep.repairReplicas := by
    rw [exec_maintenanceSlot, execMaintenanceSlot, closed, ← hw]
    rfl
  rw [State.repairReplicas_sound (pbad.trans (hbad.trans sound))] at run
  refine ⟨_, run, ?_, ?_, ppatrol.trans ?_, pcores.trans hcores, phbm.trans hhbm⟩
  · rw [pbeat]
    exact congrArg BeatSt.maintOpen hbeat
  · rw [psram, State.reg_count_same, State.reg_of_regs hregs]
    rfl
  · change (if channelLines ≤ w.tiers.patrol + 1 then 0 else w.tiers.patrol + 1) = _
    rw [hpatrol]

/-- Settles O57: the tick by its bearings, the cut by the fold over the cores, the slot by what scrubbing leaves alone. -/
theorem ticksCutsAndSlotsPass : Obligations.TicksCutsAndSlotsPass := fun _ =>
  ⟨fun unfinished anchored free => exec_tick_bearings unfinished anchored free,
    fun _ _ late past => exec_cut_late late past,
    fun n closed sound => exec_maintenanceSlot_sound n closed sound⟩

end Sys2Proof.Machine
end

section
/-! SUPPORT. The step: the command at the front of the queue, or an idle nanosecond. -/

namespace Sys2Proof.Machine

open Sys2Proof

variable {s₀ : State}

/-! ### An idle nanosecond -/

@[simp] theorem State.releaseEntries_steady (s : State) : Steady s₀ s.releaseEntries ↔ Steady s₀ s := by
  simp [State.releaseEntries, State.sendEntries]

@[simp] theorem State.releaseEntries_bearings (s : State) : s.releaseEntries.bearings = s.bearings := by
  simp [State.releaseEntries, State.sendEntries]

theorem idle_unbooted {s : State} (h : s.reg Reg.bootStage = 0) : idle s = s := by simp [idle, h]

theorem idle_steady (s : State) : Steady s (idle s) := by
  unfold idle
  split
  · exact .refl s
  · simp

/-- Once boot has begun, an idle nanosecond is the advance of hall time; nothing else of it moves hall time. -/
theorem idle_bearings {s : State} (h : s.reg Reg.bootStage ≠ 0) :
    (idle s).bearings = { s with time := s.time.advance }.bearings := by
  unfold idle
  rw [if_neg h]
  exact (State.bearings_foldl (fun t x => t.sendSpan_bearings _ x) _ _).trans
    ((State.releaseEntries_bearings _).trans (State.askTime_bearings _))

/-- With no correction due, an idle nanosecond adds one. -/
theorem Timebase.advance_hallTime {t : Timebase} (h : t.slew = 0) : t.advance.hallTime = t.hallTime + 1 := by
  simp [Timebase.advance, h]

/-- Settles O1: the front command by the step's own equation, an idle nanosecond by what keeps hall time. -/
theorem stepRunsTheFrontCommand : Obligations.StepRunsTheFrontCommand := by
  refine ⟨fun s c q => step_cons _ c q rfl, fun s empty => ⟨idle s, step_nil s empty, ?_, idle_unbooted, ?_⟩⟩
  · exact (idle_steady s).pending.trans empty
  · intro booted still
    exact (State.hallTime_of_bearings (idle_bearings booted)).trans (Timebase.advance_hallTime still)

end Sys2Proof.Machine
end

section
/-! SUPPORT. What a device-fatal error leaves alone, and hall time by its exchanges. -/

namespace Sys2Proof.Machine

open Sys2Proof

/-- A write that passes its checks does what its object does. -/
theorem State.command_of_mayWrite {s : State} {r : Role} {k : Nat} (may : s.mayWrite r k) (f : State → Result) :
    s.command r k f = answer r (f s) := by
  obtain ⟨alive, allowed⟩ := may
  simp [State.command, alive, allowed]

/-! ### Device-fatal errors -/

/-- The numbers that a device-fatal error changes: those of a tenant's transfer and slot that it stops, and its report's. -/
def fatalKeys : List Nat := [Reg.lastAbort 3, Reg.dxErrors, Reg.fwUpdateState, Reg.runningSlot, Reg.faultReports]

/-- No object of the 60 ports is changed by a device-fatal error. -/
theorem linkDelay_not_fatal {x : Nat} (hx : x < 60) : Reg.linkDelay x ∉ fatalKeys := fun h => by
  have hk := (by decide : ∀ k ∈ fatalKeys, keyIndex k < 0x2300 ∨ 0x233C ≤ keyIndex k) _ h
  rw [Reg.linkDelay, keyIndex_objKey _ (by decide)] at hk
  omega

theorem linkDelay_not_bearing {x : Nat} (hx : x < 60) : Reg.linkDelay x ∉ bearingKeys := fun h => by
  have hk := (by decide : ∀ k ∈ bearingKeys, keyIndex k < 0x2300 ∨ 0x233C ≤ keyIndex k) _ h
  rw [Reg.linkDelay, keyIndex_objKey _ (by decide)] at hk
  omega

@[simp] theorem State.abandon_time (s : State) (x : Session) : (s.abandon x).time = s.time := by
  dsimp only [State.abandon]
  (repeat' split) <;> simp

theorem State.abandon_reg (s : State) (x : Session) {k : Nat} (hk : k ∉ fatalKeys) : (s.abandon x).reg k = s.reg k := by
  have hf : k ≠ Reg.fwUpdateState := by rintro rfl; exact hk (by decide)
  dsimp only [State.abandon]
  (repeat' split) <;> simp [State.reg_setReg_other _ _ hf]

@[simp] theorem State.endTransfer_time (s : State) (b code : Nat) : (s.endTransfer b code).time = s.time := by
  dsimp only [State.endTransfer]
  split <;> simp [State.setSession]

@[simp] theorem State.endTenantTransfer_time (s : State) : s.endTenantTransfer.time = s.time := by
  unfold State.endTenantTransfer State.failTransfer
  split <;> simp

theorem State.endTenantTransfer_reg (s : State) {k : Nat} (hk : k ∉ fatalKeys) :
    s.endTenantTransfer.reg k = s.reg k := by
  have ha : k ≠ Reg.lastAbort 3 := by rintro rfl; exact hk (by decide)
  have he : k ≠ Reg.dxErrors := by rintro rfl; exact hk (by decide)
  unfold State.endTenantTransfer State.failTransfer State.endTransfer
  split
  · dsimp only
    rw [if_neg (by decide), State.reg_count_other _ _ he, State.reg_setReg_other _ _ ha]
    exact (State.reg_of_regs rfl k).trans (State.abandon_reg s _ hk)
  · rfl

@[simp] theorem State.stopSwap_time (s : State) (cause : Nat) : (s.stopSwap cause).time = s.time := by
  dsimp only [State.stopSwap]
  (repeat' split) <;> simp

theorem State.stopSwap_reg (s : State) (cause : Nat) {k : Nat} (hk : k ∉ fatalKeys) :
    (s.stopSwap cause).reg k = s.reg k := by
  have hr : k ≠ Reg.runningSlot := by rintro rfl; exact hk (by decide)
  dsimp only [State.stopSwap]
  repeat' split
  · rfl
  · rfl
  · rw [State.reg_setReg_other _ _ hr]
    exact State.endTenantTransfer_reg _ hk
  · rw [State.reg_setReg_other _ _ hr]
    rfl

theorem State.report_reg (s : State) (kind mid cause : Nat) {k : Nat} (hk : k ≠ Reg.faultReports) :
    (s.report kind mid cause).reg k = s.reg k := by
  have hl : (s.logReport kind mid cause).reg k = s.reg k := State.reg_count_other _ _ hk
  dsimp only [State.report]
  split
  · exact (State.reg_of_regs (State.sendMgmt_regs _ _ _) k).trans hl
  · exact hl

@[simp] theorem State.deviceFatal_time (s : State) (cause : Nat) : (s.deviceFatal cause).time = s.time := by
  simp [State.deviceFatal]

theorem State.deviceFatal_reg (s : State) (cause : Nat) {k : Nat} (hk : k ∉ fatalKeys) :
    (s.deviceFatal cause).reg k = s.reg k := by
  have hf : k ≠ Reg.faultReports := by rintro rfl; exact hk (by decide)
  exact (State.reg_of_regs (by simp [State.deviceFatal]) k).trans
    ((State.report_reg _ 3 0 cause hf).trans (s.stopSwap_reg cause hk))

theorem State.deviceFatal_cause (s : State) (cause : Nat) : cause ∈ (s.deviceFatal cause).manager.causes := by
  dsimp only [State.deviceFatal]
  split
  next h => simpa using h
  next => simp

theorem State.deviceFatal_holdNext (s : State) (cause : Nat) : (s.deviceFatal cause).beat.holdNext = true := rfl

/-! ### Time exchanges -/

/-- What an exchange of the own domain does before hall time changes its state: the measured values are kept, and the
first exchange steps hall time. -/
def State.measured (s : State) (port m : Nat) (offset : Int) (delay bound : Nat) : State :=
  let s := ((s.exchangeEnds port delay).setReg Reg.lastOffset (codeOf 32 offset)).correctTime m offset
  { s with time := { s.time with boundPs := bound, measuredAt := s.time.hallTime, lastExchange := s.time.hallTime,
                                 goodRun := if bound ≤ 10000 then s.time.goodRun + 1 else 0 } }

/-- Whether an offset is so large a correction that it leads to TIME_HOLD (R31, R33). -/
def State.bigOffset (s : State) (offset : Int) : Bool :=
  decide (100 < offset.natAbs) &&
    (s.reg Reg.timeState == 3 || (s.reg Reg.timeState != 4 && s.time.joined && !s.noBeat))

theorem State.correctTime_keeps (s : State) (m : Nat) (offset : Int) :
    (s.correctTime m offset).regs = s.regs ∧ s.time.hallTime ≤ (s.correctTime m offset).time.hallTime ∧
      (s.correctTime m offset).time.goodRun = s.time.goodRun := by
  dsimp only [State.correctTime]
  split
  · exact ⟨rfl, le_max_left _ _, rfl⟩
  · exact ⟨rfl, le_refl _, rfl⟩

theorem State.exchangeEnds_time (s : State) (port delay : Nat) : (s.exchangeEnds port delay).time = s.time := by
  dsimp only [State.exchangeEnds]
  split <;> rfl

theorem State.exchangeEnds_reg (s : State) {port : Nat} (delay : Nat) {k : Nat}
    (hk : port < 60 → k ≠ Reg.linkDelay port) : (s.exchangeEnds port delay).reg k = s.reg k := by
  dsimp only [State.exchangeEnds]
  split
  next hp => exact (State.reg_setReg_other _ _ (hk hp)).trans (State.reg_of_regs rfl k)
  next => rfl

theorem State.exchangeEnds_linkDelay (s : State) {port : Nat} (delay : Nat) (hp : port < 60) :
    (s.exchangeEnds port delay).reg (Reg.linkDelay port) = delay % 2 ^ 32 := by
  dsimp only [State.exchangeEnds]
  rw [if_pos hp, State.reg_setReg_same]

section Measured

variable (s : State) (port m : Nat) (offset : Int) (delay bound : Nat)

theorem State.measured_reg (k : Nat) : (s.measured port m offset delay bound).reg k =
    ((s.exchangeEnds port delay).setReg Reg.lastOffset (codeOf 32 offset)).reg k :=
  (State.reg_of_regs rfl k).trans (State.reg_of_regs (State.correctTime_keeps _ m offset).1 k)

theorem State.measured_lastOffset : (s.measured port m offset delay bound).reg Reg.lastOffset = codeOf 32 offset :=
  (s.measured_reg port m offset delay bound _).trans (State.reg_setReg_same _ _ _)

theorem State.measured_linkDelay (hp : port < 60) :
    (s.measured port m offset delay bound).reg (Reg.linkDelay port) = delay % 2 ^ 32 := by
  have hne : Reg.linkDelay port ≠ Reg.lastOffset :=
    fun h => linkDelay_not_bearing hp (h ▸ by decide)
  rw [State.measured_reg, State.reg_setReg_other _ _ hne, State.exchangeEnds_linkDelay _ _ hp]

theorem State.measured_timeState : (s.measured port m offset delay bound).reg Reg.timeState = s.reg Reg.timeState := by
  rw [State.measured_reg, State.reg_setReg_other _ _ (by decide)]
  exact s.exchangeEnds_reg delay fun hp h => linkDelay_not_bearing hp (h ▸ by decide)

theorem State.measured_hallTime : s.time.hallTime ≤ (s.measured port m offset delay bound).time.hallTime := by
  obtain ⟨-, h, -⟩ := State.correctTime_keeps
    ((s.exchangeEnds port delay).setReg Reg.lastOffset (codeOf 32 offset)) m offset
  rwa [State.setReg_time, State.exchangeEnds_time] at h

theorem State.measured_goodRun : (s.measured port m offset delay bound).time.goodRun =
    if bound ≤ 10000 then s.time.goodRun + 1 else 0 := by
  obtain ⟨-, -, h⟩ := State.correctTime_keeps
    ((s.exchangeEnds port delay).setReg Reg.lastOffset (codeOf 32 offset)) m offset
  rw [State.setReg_time, State.exchangeEnds_time] at h
  dsimp only [State.measured]
  rw [h]

end Measured

theorem exec_timeExchange_own {s : State} {dom : Nat} (own : s.ownDomain dom = true) (takes : s.takesTime = true)
    (port m delay b mb : Nat) (off : Int) : exec (.timeExchange port dom m off delay b mb) s = .next
      (if (s.exchangeEnds port delay).bigOffset (s.offsetNs port off) then
        (s.measured port m (s.offsetNs port off) delay (b + mb)).enterTimeHold
      else (s.measured port m (s.offsetNs port off) delay (b + mb)).timeNext) := by
  simp only [exec_timeExchange, execTimeExchange, own, takes]
  rfl

/-! ### The states of hall time -/

/-- What a change of hall time's state leaves of an exchange. -/
structure ExchangeKept (s t : State) : Prop where
  hallTime : t.time.hallTime = s.time.hallTime
  boundPs : t.time.boundPs = s.time.boundPs
  lastExchange : t.time.lastExchange = s.time.lastExchange
  reg : ∀ k, k ≠ Reg.timeState → k ∉ fatalKeys → t.reg k = s.reg k

theorem State.enterTimeHold_keeps (s : State) : ExchangeKept s s.enterTimeHold where
  hallTime := by simp [State.enterTimeHold]
  boundPs := by simp [State.enterTimeHold]
  lastExchange := by simp [State.enterTimeHold]
  reg k ht hf := (State.deviceFatal_reg _ 1 hf).trans ((State.reg_setReg_other _ _ ht).trans (State.reg_of_regs rfl k))

theorem State.enterTimeHold_faults (s : State) : s.enterTimeHold.reg Reg.timeState = 4 ∧
    1 ∈ s.enterTimeHold.manager.causes ∧ s.enterTimeHold.beat.holdNext = true :=
  ⟨(State.deviceFatal_reg _ 1 (by decide)).trans (State.reg_setReg_same _ _ _), State.deviceFatal_cause _ 1, rfl⟩

theorem State.timeNext_cases (s : State) : s.timeNext = s ∨ ∃ v, s.timeNext = s.setReg Reg.timeState v := by
  dsimp only [State.timeNext]
  split
  · split
    · exact .inr ⟨_, rfl⟩
    · exact .inl rfl
  · split
    · split
      · exact .inr ⟨_, rfl⟩
      · exact .inl rfl
    · split
      · exact .inl rfl
      · exact .inr ⟨_, rfl⟩

theorem State.timeNext_keeps (s : State) : ExchangeKept s s.timeNext := by
  rcases s.timeNext_cases with h | ⟨v, h⟩ <;> rw [h]
  · exact ⟨rfl, rfl, rfl, fun _ _ _ => rfl⟩
  · exact ⟨rfl, rfl, rfl, fun _ hk _ => State.reg_setReg_other _ _ hk⟩

/-- The sixteenth good exchange LOCKS hall time. -/
theorem State.timeNext_locks {s : State} (acquiring : s.reg Reg.timeState = 1) (run : s.time.goodRun = 16) :
    s.timeNext.reg Reg.timeState = 2 := by
  simp [State.timeNext, acquiring, run]

/-! ### What the commands of hall time do -/

theorem exec_timeExchange_keeps {s : State} {dom : Nat} (own : s.ownDomain dom = true) (takes : s.takesTime = true)
    (port m delay b mb : Nat) (off : Int) : ∃ t, exec (.timeExchange port dom m off delay b mb) s = .next t ∧
      t.reg Reg.lastOffset = codeOf 32 (s.offsetNs port off) ∧
      (port < 60 → t.reg (Reg.linkDelay port) = delay % 2 ^ 32) ∧
      t.time.boundPs = b + mb ∧ t.time.lastExchange = t.time.hallTime ∧ s.time.hallTime ≤ t.time.hallTime := by
  have kept : ∀ t, ExchangeKept (s.measured port m (s.offsetNs port off) delay (b + mb)) t →
      t.reg Reg.lastOffset = codeOf 32 (s.offsetNs port off) ∧
      (port < 60 → t.reg (Reg.linkDelay port) = delay % 2 ^ 32) ∧
      t.time.boundPs = b + mb ∧ t.time.lastExchange = t.time.hallTime ∧ s.time.hallTime ≤ t.time.hallTime := by
    intro t h
    refine ⟨?_, fun hp => ?_, h.boundPs, h.lastExchange.trans h.hallTime.symm, ?_⟩
    · rw [h.reg _ (by decide) (by decide), State.measured_lastOffset]
    · have hne : Reg.linkDelay port ≠ Reg.timeState := fun e => linkDelay_not_bearing hp (e ▸ by decide)
      rw [h.reg _ hne (linkDelay_not_fatal hp), State.measured_linkDelay _ _ _ _ _ _ hp]
    · rw [h.hallTime]
      exact s.measured_hallTime port m _ delay _
  refine ⟨_, exec_timeExchange_own own takes port m delay b mb off, kept _ ?_⟩
  split
  · exact State.enterTimeHold_keeps _
  · exact State.timeNext_keeps _

theorem exec_timeExchange_locks {s : State} {dom : Nat} (own : s.ownDomain dom = true) (takes : s.takesTime = true)
    {port b mb : Nat} {off : Int} (acquiring : s.reg Reg.timeState = 1) (run : s.time.goodRun = 15)
    (bound : b + mb ≤ 10000) (small : (s.offsetNs port off).natAbs ≤ 100) (m delay : Nat) :
    ∃ t, exec (.timeExchange port dom m off delay b mb) s = .next t ∧ t.reg Reg.timeState = 2 := by
  have hbig : (s.exchangeEnds port delay).bigOffset (s.offsetNs port off) = false := by
    simp [State.bigOffset, Nat.not_lt.mpr small]
  refine ⟨_, exec_timeExchange_own own takes port m delay b mb off, ?_⟩
  rw [if_neg (by simp [hbig])]
  refine State.timeNext_locks ((State.measured_timeState ..).trans acquiring) ?_
  rw [State.measured_goodRun, if_pos bound, run]

theorem exec_timeExchange_holds {s : State} {dom : Nat} (own : s.ownDomain dom = true) (takes : s.takesTime = true)
    {port : Nat} {off : Int} (holdover : s.reg Reg.timeState = 3) (big : 100 < (s.offsetNs port off).natAbs)
    (m delay b mb : Nat) : ∃ t, exec (.timeExchange port dom m off delay b mb) s = .next t ∧
      t.reg Reg.timeState = 4 ∧ 1 ∈ t.manager.causes ∧ t.beat.holdNext = true := by
  have hst : (s.exchangeEnds port delay).reg Reg.timeState = 3 :=
    (s.exchangeEnds_reg delay fun hp h => linkDelay_not_bearing hp (h ▸ by decide)).trans holdover
  refine ⟨_, exec_timeExchange_own own takes port m delay b mb off, ?_⟩
  rw [if_pos (by simp [State.bigOffset, hst, big])]
  exact State.enterTimeHold_faults _

theorem exec_timeExchange_foreign {s : State} {dom : Nat} (foreign : s.ownDomain dom = false) (port m delay b mb : Nat)
    (off : Int) : exec (.timeExchange port dom m off delay b mb) s = .next s := by
  simp [execTimeExchange, foreign]

theorem State.enterHoldover_timeState (s : State) : s.enterHoldover.reg Reg.timeState = 3 :=
  (State.reg_count_other _ _ (by decide)).trans (State.reg_setReg_same _ _ _)

theorem State.enterHoldover_count (s : State) :
    s.enterHoldover.reg Reg.holdoverCount = (s.reg Reg.holdoverCount + 1) % 2 ^ 32 := by
  unfold State.enterHoldover
  rw [State.reg_count_same, State.reg_setReg_other _ _ (by decide)]
  rfl

theorem State.enterHoldover_hallTime (s : State) : s.enterHoldover.time.hallTime = s.time.hallTime := rfl

theorem exec_holdoverEntry_counts {s : State} (st : s.reg Reg.timeState = 1 ∨ s.reg Reg.timeState = 2) :
    ∃ t, exec .holdoverEntry s = .next t ∧ t.reg Reg.timeState = 3 ∧
      t.reg Reg.holdoverCount = (s.reg Reg.holdoverCount + 1) % 2 ^ 32 ∧
      t.time.hallTime = max (s.time.lastExchange + 4 * s.reg Reg.exchInterval) s.time.hallTime := by
  have run : exec .holdoverEntry s = .next
      (s.advanceTo (s.time.lastExchange + 4 * s.reg Reg.exchInterval)).enterHoldover := by
    simp [execHoldoverEntry, st]
  refine ⟨_, run, ?_, ?_, ?_⟩
  · exact State.enterHoldover_timeState _
  · rw [State.enterHoldover_count, State.advanceTo_reg _ _ (by decide)]
  · exact (State.enterHoldover_hallTime _).trans (s.advanceTo_hallTime _)

theorem exec_timeHoldEntry_faults {s : State} (holdover : s.reg Reg.timeState = 3) :
    ∃ t, exec .timeHoldEntry s = .next t ∧ t.reg Reg.timeState = 4 ∧ 1 ∈ t.manager.causes ∧
      t.beat.holdNext = true ∧ t.time.hallTime = max s.holdAt s.time.hallTime := by
  have run : exec .timeHoldEntry s = .next (s.advanceTo s.holdAt).enterTimeHold := by
    simp [execTimeHoldEntry, holdover]
  obtain ⟨hst, hcause, hhold⟩ := (s.advanceTo s.holdAt).enterTimeHold_faults
  exact ⟨_, run, hst, hcause, hhold, (State.enterTimeHold_keeps _).hallTime.trans (s.advanceTo_hallTime _)⟩

theorem exec_hallTimeSet_sets {s : State} {r : Role} (may : s.mayWrite r Reg.hallTimeSet)
    (worker : s.manager.roleLive = 0) (unset : s.time.hallTimeSet = false) (free : s.time.anchored = false) (m : Nat) :
    ∃ t, exec (.hallTimeSet r m) s = .next t ∧ t.time.hallTime = m % 2 ^ 64 ∧ t.time.hallTimeSet = true := by
  have run : exec (.hallTimeSet r m) s =
      .next { s with time := { s.time with hallTime := m % 2 ^ 64, hallTimeSet := true } } := by
    simp [execHallTimeSet, State.command_of_mayWrite may, State.writeHallTime, worker, unset, free, answer]
  exact ⟨_, run, rfl, rfl⟩

/-- Settles O58: an exchange measures, then hall time's state follows; each entry advances hall time first. -/
theorem hallTimeFollowsItsExchanges : Obligations.HallTimeFollowsItsExchanges := fun _ port _ m delay b mb off =>
  ⟨fun own takes => ⟨exec_timeExchange_keeps own takes port m delay b mb off,
      fun acquiring run bound small => exec_timeExchange_locks own takes acquiring run bound small m delay,
      fun holdover big => exec_timeExchange_holds own takes holdover big m delay b mb⟩,
    fun foreign => exec_timeExchange_foreign foreign port m delay b mb off,
    exec_holdoverEntry_counts, exec_timeHoldEntry_faults,
    fun _ may worker unset free => exec_hallTimeSet_sets may worker unset free m⟩

end Sys2Proof.Machine
end

section
/-! SUPPORT. The Interlock (R50 to R55): a commit that pends, one that applies or is rejected, cancel and discard. -/

namespace Sys2Proof.Machine

open Sys2Proof

/-! ### Numbers of a role's commit -/

/-- The numbers that tell a role how its commit went are no bearing. -/
theorem commitKeys_not_bearing (r : Role) : perRole Reg.commitState r ∉ bearingKeys ∧
    perRole Reg.commitAbort r ∉ bearingKeys ∧ perRole Reg.lastAppliedBeat r ∉ bearingKeys := by
  cases r <;> decide

/-- The numbers that a commit's end writes are different ones. -/
theorem commitKeys_differ (r : Role) : perRole Reg.commitState r ≠ perRole Reg.lastAppliedBeat r ∧
    perRole Reg.commitState r ≠ perRole Reg.commitAbort r ∧
    perRole Reg.commitState r ≠ Reg.lastAbort (roleNum r + 1) ∧
    perRole Reg.commitAbort r ≠ Reg.lastAbort (roleNum r + 1) := by
  cases r <;> decide

/-- A change of the period moves the anchor, and none of a commit's own numbers. -/
theorem anchorKeys_differ (r : Role) : ∀ k ∈ [perRole Reg.commitState r, perRole Reg.commitAbort r,
    perRole Reg.lastAppliedBeat r] ++ committedNumbers, k ≠ Reg.anchorBeat ∧ k ≠ Reg.anchorTime := by
  cases r <;> decide

theorem committed_bearing : ∀ k ∈ committedNumbers, k ∈ bearingKeys := by decide

/-! ### What a commit's effects leave alone -/

theorem State.shadow_of_shadows {s t : State} (h : t.shadows = s.shadows) (r : Role) : t.shadow r = s.shadow r :=
  congrArg (mapGetD _ (roleNum r)) h

@[simp] theorem State.shadow_setShadow (s : State) (r : Role) (h : Shadow) : (s.setShadow r h).shadow r = h :=
  mapGetD_mapSet_same _ _ _ _

/-- What a commit's effects leave of the state that has the staged values live. -/
structure EffectsKept (s t : State) : Prop where
  shadows : t.shadows = s.shadows
  commits : t.commits = s.commits
  reg : ∀ k ∈ bearingKeys, t.reg k = s.reg k
  dom : ∀ k ∈ committedTables, t.dom k = s.dom k

theorem EffectsKept.of_bearings {s t : State} (h : t.bearings = s.bearings) : EffectsKept s t :=
  ⟨State.shadows_of_bearings h, State.commits_of_bearings h, fun _ hk => State.reg_of_bearings h hk,
    fun _ hk => State.dom_of_bearings h hk⟩

theorem EffectsKept.trans {s t u : State} (h : EffectsKept s t) (g : EffectsKept t u) : EffectsKept s u :=
  ⟨g.shadows.trans h.shadows, g.commits.trans h.commits, fun k hk => (g.reg k hk).trans (h.reg k hk),
    fun k hk => (g.dom k hk).trans (h.dom k hk)⟩

theorem State.anchorSet_keeps (s : State) (running : Bool) : EffectsKept s (s.anchorSet running) := by
  dsimp only [State.anchorSet]
  split <;> exact ⟨rfl, rfl, fun _ _ => rfl, fun _ _ => rfl⟩

theorem State.commitEffects_keeps (o s : State) (h : Shadow) (r : Role) :
    EffectsKept s (State.commitEffects o s h r) := by
  refine .trans ?_ (.of_bearings (State.commitEffects_bearings o s h r))
  split
  · exact s.anchorSet_keeps _
  · exact .of_bearings rfl

/-! ### A commit that is applied or rejected -/

/-- A commit that its validation rejects. -/
theorem State.runCommit_rejected {s : State} {r : Role} {open' : Bool} (h : commitCode s (s.shadow r) open' ≠ 0)
    (beat : Nat) : s.runCommit r beat open' = (commitCode s (s.shadow r) open',
      ({ s with commits := mapDel (roleNum r) s.commits }.setReg (perRole Reg.commitState r) 3).setReg
        (perRole Reg.commitAbort r) (commitCode s (s.shadow r) open')) :=
  if_pos h

/-- What holds after a role's commit has applied. -/
structure CommitApplied (s t : State) (r : Role) (beat : Nat) : Prop where
  shadow : t.shadow r = ⟨[], []⟩
  commits : t.commits = mapDel (roleNum r) s.commits
  state : t.reg (perRole Reg.commitState r) = 2
  beat : t.reg (perRole Reg.lastAppliedBeat r) = beat
  numbers : ∀ k ∈ committedNumbers, t.reg k = (s.overlay (s.shadow r)).reg k
  tables : ∀ k ∈ committedTables, t.dom k = (s.overlay (s.shadow r)).dom k

theorem State.runCommit_applied {s : State} {r : Role} {open' : Bool} (h : commitCode s (s.shadow r) open' = 0)
    (beat : Nat) : (s.runCommit r beat open').1 = 0 ∧ CommitApplied s (s.runCommit r beat open').2 r beat := by
  obtain ⟨hs, -, hl⟩ := commitKeys_not_bearing r
  obtain ⟨hne, -⟩ := commitKeys_differ r
  let v : State := { s with commits := mapDel (roleNum r) s.commits }
  let n := (v.overlay (s.shadow r)).setShadow r ⟨[], []⟩
  have kept : EffectsKept n (State.commitEffects v n (s.shadow r) r) := State.commitEffects_keeps v n _ r
  have run : s.runCommit r beat open' = (0, ((State.commitEffects v n (s.shadow r) r).setReg
      (perRole Reg.commitState r) 2).setReg (perRole Reg.lastAppliedBeat r) beat) := if_neg (not_not_intro h)
  rw [run]
  refine ⟨rfl, ?_, ?_, ?_, State.reg_setReg_same _ _ _, fun k hk => ?_, fun k hk => ?_⟩
  · exact (State.shadow_of_shadows kept.shadows r).trans (State.shadow_setShadow _ r _)
  · exact kept.commits
  · exact (State.reg_setReg_other _ _ hne).trans (State.reg_setReg_same _ _ _)
  · have hb := committed_bearing k hk
    rw [State.reg_setReg_other _ _ (ne_of_mem_of_not_mem hb hl), State.reg_setReg_other _ _ (ne_of_mem_of_not_mem hb hs),
      kept.reg k hb]
    rfl
  · rw [State.dom_setReg, State.dom_setReg, kept.dom k hk]
    rfl

/-! ### Commits during the write -/

/-- What holds after a commit with no beat running. -/
theorem State.answer_runCommit {s : State} (r : Role) (beat : Nat) :
    (answer r (s.runCommit r beat true)).reg (perRole Reg.commitState r) =
        (if commitCode s (s.shadow r) true = 0 then 2 else 3) ∧
      (commitCode s (s.shadow r) true ≠ 0 → (answer r (s.runCommit r beat true)).shadow r = s.shadow r ∧
        (answer r (s.runCommit r beat true)).doms = s.doms ∧
        (answer r (s.runCommit r beat true)).reg (perRole Reg.commitAbort r) = commitCode s (s.shadow r) true) ∧
      (commitCode s (s.shadow r) true = 0 → (answer r (s.runCommit r beat true)).shadow r = ⟨[], []⟩ ∧
        (∀ k ∈ committedNumbers, (answer r (s.runCommit r beat true)).reg k = (s.overlay (s.shadow r)).reg k) ∧
        ∀ k ∈ committedTables, (answer r (s.runCommit r beat true)).dom k = (s.overlay (s.shadow r)).dom k) := by
  obtain ⟨-, hsa, hsl, hal⟩ := commitKeys_differ r
  by_cases h : commitCode s (s.shadow r) true = 0
  · obtain ⟨hcode, done⟩ := State.runCommit_applied h beat
    rw [answer, if_pos hcode, if_pos h]
    exact ⟨done.state, fun hn => absurd h hn, fun _ => ⟨done.shadow, done.numbers, done.tables⟩⟩
  · rw [State.runCommit_rejected h, answer, if_neg h, if_neg h]
    refine ⟨?_, fun _ => ⟨rfl, rfl, ?_⟩, fun h0 => absurd h0 h⟩
    · rw [State.reg_setReg_other _ _ hsl, State.reg_setReg_other _ _ hsa, State.reg_setReg_same]
    · rw [State.reg_setReg_other _ _ hal, State.reg_setReg_same]

section Writes

variable {s : State} {r : Role} (may : s.mayWrite r Reg.commitCmd)

include may

theorem exec_commitNextTick_write : exec (.commitNextTick r) s = .next (answer r (s.writeCommit r 1)) := by
  simp [execCommitNextTick, State.command_of_mayWrite may]

theorem exec_commitAtBeat_write : exec (.commitAtBeat r) s = .next (answer r (s.writeCommit r 2)) := by
  simp [execCommitAtBeat, State.command_of_mayWrite may]

theorem exec_commitNextTick_pends (free : mapGet (roleNum r) s.commits = none) (running : s.noBeat = false) :
    exec (.commitNextTick r) s = .next (s.pend r s.tickAhead false) := by
  simp [exec_commitNextTick_write may, State.writeCommit, free, running, answer]

theorem exec_commitAtBeat_pends (free : mapGet (roleNum r) s.commits = none) (running : s.noBeat = false)
    (ok : s.namedOk (s.reg (perRole Reg.commitBeat r)) = true) :
    exec (.commitAtBeat r) s = .next (s.pend r (s.reg (perRole Reg.commitBeat r)) true) := by
  simp [exec_commitAtBeat_write may, State.writeCommit, free, running, ok, answer]

theorem exec_commitAtBeat_refused (free : mapGet (roleNum r) s.commits = none) (running : s.noBeat = false)
    (bad : s.namedOk (s.reg (perRole Reg.commitBeat r)) = false) :
    exec (.commitAtBeat r) s = .next (s.setReg (Reg.lastAbort (roleNum r + 1)) (abortCode 7 1)) := by
  simp [exec_commitAtBeat_write may, State.writeCommit, free, running, bad, answer, abortCode]

theorem exec_commit_at_once (free : mapGet (roleNum r) s.commits = none) (still : s.noBeat = true) :
    ∀ i ∈ [Instr.commitNextTick r, Instr.commitAtBeat r],
      exec i s = .next (answer r (s.runCommit r s.beatNow true)) := by
  simp [exec_commitNextTick_write may, exec_commitAtBeat_write may, State.writeCommit, free, still]

theorem exec_commitCancel_cancels {c : Pending} (pending : mapGet (roleNum r) s.commits = some c) :
    exec (.commitCancel r) s = .next (s.cancelCommit r) := by
  simp [execCommitCancel, State.command_of_mayWrite may, State.writeCommit, pending, answer]

theorem exec_commitDiscard_discards (free : mapGet (roleNum r) s.commits = none) (staged : (s.shadow r).size ≠ 0) :
    exec (.commitDiscard r) s = .next (s.discardShadow r) := by
  simp [execCommitDiscard, State.command_of_mayWrite may, State.writeCommit, free, staged, answer]

end Writes

theorem State.pend_pends (s : State) (r : Role) (beat : Nat) (named : Bool) :
    (s.pend r beat named).reg (perRole Reg.commitState r) = 1 ∧ (s.pend r beat named).shadow r = s.shadow r ∧
      mapGet (roleNum r) (s.pend r beat named).commits = some ⟨beat, named⟩ :=
  ⟨State.reg_setReg_same _ _ _, rfl, mapGet_mapSet_same _ _ _⟩

theorem State.discardShadow_keeps (s : State) (r : Role) : (s.discardShadow r).shadow r = ⟨[], []⟩ ∧
    (s.discardShadow r).doms = s.doms ∧ (s.discardShadow r).commits = s.commits := by
  dsimp only [State.discardShadow]
  split <;> exact ⟨State.shadow_setShadow _ _ _, rfl, rfl⟩

/-! ### Commits at their tick -/

theorem State.closeAudit_manager (s : State) : s.closeAudit.manager = s.manager := by
  dsimp only [State.closeAudit]
  repeat' split
  all_goals rfl

theorem State.judgeClip_manager (s : State) (e : Nat × ClipCount) : (s.judgeClip e).manager = s.manager := by
  dsimp only [State.judgeClip]
  (repeat' split) <;> rfl

theorem State.closeClip_manager (s : State) : s.closeClip.manager = s.manager := by
  dsimp only [State.closeClip]
  split
  · rfl
  · exact foldl_keeps State.manager State.judgeClip_manager _ s

theorem State.judgeBefore_manager (s : State) : s.judgeBefore.manager = s.manager := by
  unfold State.judgeBefore
  rw [State.closeClip_manager, State.closeAudit_manager]
  split
  · dsimp only [State.windowBeats]
    split
    · rfl
    · exact (State.closeClip_manager _).trans (State.closeAudit_manager _)
  · rfl

/-- The end of a commit's application at a tick: what it replaced is kept, and a change of the period moves the anchor. -/
def State.afterApply (o : State) (r : Role) (k at' : Nat) (d : Result) : State :=
  let t := if d.1 = 0 ∧ !o.noBeat then State.keepPrior o d.2 k (o.shadow r) else d.2
  if t.reg Reg.beatPeriod ≠ o.reg Reg.beatPeriod then (t.setReg Reg.anchorBeat k).setReg Reg.anchorTime at' else t

theorem State.applyAt_due {s : State} {r : Role} {k : Nat} {c : Pending} (pending : mapGet (roleNum r) s.commits = some c)
    (due : c.beat ≤ k) : s.applyAt r k = s.judgeBefore.afterApply r k (s.judgeBefore.tickTime k)
      (s.judgeBefore.runCommit r k (c.named || s.manager.roleLive == 0)) := by
  rw [← s.judgeBefore_manager]
  unfold State.applyAt
  rw [pending]
  exact if_neg (Nat.not_lt.mpr due)

/-- What the end of a commit's application leaves as the commit made it. -/
structure AnchorMoved (s t : State) : Prop where
  shadows : t.shadows = s.shadows
  commits : t.commits = s.commits
  doms : t.doms = s.doms
  reg : ∀ j, j ≠ Reg.anchorBeat ∧ j ≠ Reg.anchorTime → t.reg j = s.reg j

theorem State.setAnchor_keeps (s : State) (k at' : Nat) :
    AnchorMoved s ((s.setReg Reg.anchorBeat k).setReg Reg.anchorTime at') where
  shadows := rfl
  commits := rfl
  doms := rfl
  reg _ hj := (State.reg_setReg_other _ _ hj.2).trans (State.reg_setReg_other _ _ hj.1)

theorem State.afterApply_keeps (o : State) (r : Role) (k at' : Nat) (d : Result) :
    AnchorMoved d.2 (o.afterApply r k at' d) := by
  dsimp only [State.afterApply]
  by_cases h : d.1 = 0 ∧ (!o.noBeat) = true
  · rw [if_pos h]
    split
    · have h := State.setAnchor_keeps (State.keepPrior o d.2 k (o.shadow r)) k at'
      exact ⟨h.shadows, h.commits, h.doms, h.reg⟩
    · exact ⟨rfl, rfl, rfl, fun _ _ => rfl⟩
  · rw [if_neg h]
    split
    · exact State.setAnchor_keeps d.2 k at'
    · exact ⟨rfl, rfl, rfl, fun _ _ => rfl⟩

theorem AnchorMoved.dom {s t : State} (h : AnchorMoved s t) (k : Nat) : t.dom k = s.dom k := State.dom_of_doms h.doms k

theorem AnchorMoved.shadow {s t : State} (h : AnchorMoved s t) (r : Role) : t.shadow r = s.shadow r :=
  State.shadow_of_shadows h.shadows r

/-- A due commit is applied or rejected whole at its tick, on the state that the tick's windows have been judged in. -/
theorem State.applyAt_judged {s : State} {r : Role} {k b : Nat} {named : Bool}
    (pending : mapGet (roleNum r) s.commits = some ⟨b, named⟩) (due : b ≤ k) :
    let o := s.judgeBefore
    let code := commitCode o (s.shadow r) (named || s.manager.roleLive == 0)
    (s.applyAt r k).commits = mapDel (roleNum r) s.commits ∧
      (s.applyAt r k).reg (perRole Reg.commitState r) = (if code = 0 then 2 else 3) ∧
      (code ≠ 0 → (s.applyAt r k).shadow r = s.shadow r ∧ (s.applyAt r k).doms = o.doms ∧
        (s.applyAt r k).reg (perRole Reg.commitAbort r) = code ∧
        ∀ j ∈ committedNumbers, (s.applyAt r k).reg j = s.reg j) ∧
      (code = 0 → (s.applyAt r k).shadow r = ⟨[], []⟩ ∧ (s.applyAt r k).reg (perRole Reg.lastAppliedBeat r) = k ∧
        (∀ j ∈ committedNumbers, (s.applyAt r k).reg j = (o.overlay (s.shadow r)).reg j) ∧
        ∀ j ∈ committedTables, (s.applyAt r k).dom j = (o.overlay (s.shadow r)).dom j) := by
  intro o code
  have hb : o.bearings = s.bearings := s.judgeBefore_bearings
  have hsh : o.shadow r = s.shadow r := State.shadow_of_shadows (State.shadows_of_bearings hb) r
  have hco : o.commits = s.commits := State.commits_of_bearings hb
  obtain ⟨hs, ha, hl⟩ : _ ∧ _ ∧ _ := ⟨anchorKeys_differ r (perRole Reg.commitState r) (by simp),
    anchorKeys_differ r (perRole Reg.commitAbort r) (by simp), anchorKeys_differ r (perRole Reg.lastAppliedBeat r) (by simp)⟩
  have hn : ∀ j ∈ committedNumbers, j ≠ Reg.anchorBeat ∧ j ≠ Reg.anchorTime := fun j hj =>
    anchorKeys_differ r j (List.mem_append_right _ hj)
  have kept := o.afterApply_keeps r k (o.tickTime k) (o.runCommit r k (named || s.manager.roleLive == 0))
  rw [← State.applyAt_due pending due] at kept
  by_cases h : code = 0
  · have hcode : commitCode o (o.shadow r) (named || s.manager.roleLive == 0) = 0 := hsh ▸ h
    obtain ⟨-, done⟩ := State.runCommit_applied hcode k
    rw [if_pos h, ← hsh, ← hco]
    exact ⟨kept.commits.trans done.commits, (kept.reg _ hs).trans done.state, fun hne => absurd h hne, fun _ =>
      ⟨(kept.shadow r).trans done.shadow, (kept.reg _ hl).trans done.beat,
        fun j hj => (kept.reg j (hn j hj)).trans (done.numbers j hj),
        fun j hj => (kept.dom j).trans (done.tables j hj)⟩⟩
  · have hcode : commitCode o (o.shadow r) (named || s.manager.roleLive == 0) ≠ 0 := hsh ▸ h
    rw [State.runCommit_rejected hcode] at kept
    obtain ⟨hsb, hab, -⟩ := commitKeys_not_bearing r
    obtain ⟨-, hsa, -⟩ := commitKeys_differ r
    rw [if_neg h]
    refine ⟨kept.commits.trans (congrArg _ hco), ?_, fun _ => ⟨(kept.shadow r).trans hsh, kept.doms, ?_, fun j hj => ?_⟩,
      fun h0 => absurd h0 h⟩
    · rw [kept.reg _ hs, State.reg_setReg_other _ _ hsa, State.reg_setReg_same]
    · rw [kept.reg _ ha, State.reg_setReg_same, hsh]
    · have hj' := committed_bearing j hj
      rw [kept.reg j (hn j hj), State.reg_setReg_other _ _ (ne_of_mem_of_not_mem hj' hab),
        State.reg_setReg_other _ _ (ne_of_mem_of_not_mem hj' hsb), ← State.reg_of_bearings hb hj']
      rfl

theorem exec_commitApply_running {s : State} (running : s.noBeat = false) (r : Role) :
    exec (.commitApply r) s = .next (s.applyAt r s.nextBeat) := by
  simp [execCommitApply, running]

theorem State.applyAt_early {s : State} {r : Role} {k : Nat} {c : Pending}
    (pending : mapGet (roleNum r) s.commits = some c) (early : k < c.beat) : s.applyAt r k = s := by
  simp [State.applyAt, pending, early]

/-- Settles O59: a commit pends or runs, and a run is the overlay of its shadow set or its rejection. -/
theorem commitsPendAndApply : Obligations.CommitsPendAndApply := by
  intro s r may
  refine ⟨fun free running => ⟨?_, ?_⟩, fun free still i hi => ?_, fun b named pending => ⟨?_, fun running due => ?_, ?_⟩, ?_⟩
  · exact ⟨_, exec_commitNextTick_pends may free running, s.pend_pends r _ false⟩
  · rintro b rfl
    refine ⟨fun ok => ?_, fun bad => ?_⟩
    · obtain ⟨hst, -, hpend⟩ := s.pend_pends r (s.reg (perRole Reg.commitBeat r)) true
      exact ⟨_, exec_commitAtBeat_pends may free running ok, hst, hpend⟩
    · exact ⟨_, exec_commitAtBeat_refused may free running bad, rfl, State.reg_setReg_same _ _ _⟩
  · exact ⟨_, exec_commit_at_once may free still i hi, State.answer_runCommit r s.beatNow⟩
  · exact ⟨_, exec_commitCancel_cancels may pending, rfl, rfl, State.reg_setReg_same _ _ _⟩
  · exact ⟨_, exec_commitApply_running running r, State.applyAt_judged pending due⟩
  · intro running early
    rw [exec_commitApply_running running, State.applyAt_early pending early]
  · intro free staged
    exact ⟨_, exec_commitDiscard_discards may free staged, s.discardShadow_keeps r⟩

end Sys2Proof.Machine
end

section
/-! SUPPORT. Memory errors (R286, R294, R432, R433) and the upkeep of the tiers (R57, R58, R256, R299, R302, R303). -/

namespace Sys2Proof.Machine

open Sys2Proof

/-! ### Uncorrectable words of a scratchpad -/

/-- A list cut to its latest 64 still ends with what was appended. -/
theorem getLast?_drop_append_singleton {l : List α} (x : α) :
    ((l ++ [x]).drop ((l ++ [x]).length - 64)).getLast? = some x := by
  rw [List.getLast?_drop, if_neg (by simp), List.getLast?_concat]

theorem State.report_logs (s : State) (kind mid cause : Nat) :
    (s.report kind mid cause).manager.faultLog.getLast? = some [kind, mid, cause, s.time.hallTime] ∧
      (s.report kind mid cause).reg Reg.faultReports = (s.reg Reg.faultReports + 1) % 2 ^ 32 := by
  have hl : (s.logReport kind mid cause).manager.faultLog.getLast? = some [kind, mid, cause, s.time.hallTime] :=
    getLast?_drop_append_singleton _
  have hr : (s.logReport kind mid cause).reg Reg.faultReports = (s.reg Reg.faultReports + 1) % 2 ^ 32 :=
    State.reg_count_same _ _ _
  dsimp only [State.report]
  split
  · exact ⟨hl, hr⟩
  · exact ⟨hl, hr⟩

theorem exec_scratchpadError_first {s : State} {c w : Nat} (on : s.coreOn c = true) (new : w ∉ (s.core c).scratchBad) :
    ∃ t, exec (.sramUeDetect (.scratchpad c w) false) s = .next t ∧
      (t.core c).scratchBad = (s.core c).scratchBad ++ [w] ∧ t.reg Reg.sramUe = (s.reg Reg.sramUe + 1) % 2 ^ 32 ∧
      t.reg Reg.faultReports = (s.reg Reg.faultReports + 1) % 2 ^ 32 ∧
      t.manager.faultLog.getLast? = some [4, c, 1, s.time.hallTime] := by
  let u := (s.updCore c (fun k => { k with scratchBad := k.scratchBad ++ [w] })).count Reg.sramUe 1
  have run : exec (.sramUeDetect (.scratchpad c w) false) s = .next (u.report 4 c 1) := by
    simp [execSramUeDetect, State.sramError, State.sramUe, State.tenantFault, on, new, u]
  obtain ⟨hlog, hreports⟩ := u.report_logs 4 c 1
  refine ⟨_, run, ?_, ?_, ?_, hlog⟩
  · rw [State.core_of_cores (State.report_cores u 4 c 1)]
    simp [u, State.core_updCore]
  · rw [State.report_reg u 4 c 1 (by decide)]
    exact State.reg_count_same _ _ _
  · rw [hreports]
    simp [u, State.reg_count_other _ _ (show Reg.faultReports ≠ Reg.sramUe by decide)]

theorem exec_scratchpadError_again {s : State} {c w : Nat} (old : w ∈ (s.core c).scratchBad) :
    exec (.sramUeDetect (.scratchpad c w) false) s = .next s := by
  simp [execSramUeDetect, State.sramError, old]

/-! ### Uncorrectable lines of the HBM -/

/-- What spoiling the choices of a replica leaves alone. -/
def State.besidesPlatforms (s : State) : Tiers × List (Nat × Nat) × Manager × BeatSt :=
  (s.tiers, s.regs, s.manager, s.beat)

@[simp] theorem State.abandon_tiers (s : State) (x : Session) : (s.abandon x).tiers = s.tiers := by
  dsimp only [State.abandon]
  (repeat' split) <;> simp

@[simp] theorem State.endTenantTransfer_tiers (s : State) : s.endTenantTransfer.tiers = s.tiers := by
  unfold State.endTenantTransfer State.failTransfer State.endTransfer State.setSession
  split
  · dsimp only
    split <;> simp
  · rfl

@[simp] theorem State.stopSwap_tiers (s : State) (cause : Nat) : (s.stopSwap cause).tiers = s.tiers := by
  dsimp only [State.stopSwap]
  (repeat' split) <;> simp

@[simp] theorem State.deviceFatal_tiers (s : State) (cause : Nat) : (s.deviceFatal cause).tiers = s.tiers := by
  simp [State.deviceFatal]

/-- A line that is found uncorrectable first: poisoned, counted, and fatal in the device's own frames. -/
def State.poisonLine (s : State) (line : Nat) (patrol : Bool) : State :=
  let s := { s with tiers := { s.tiers with hbmBad := s.tiers.hbmBad ++ [line] } }.count Reg.hbmUe 1
  let s := if patrol then s.count Reg.hbmPoisoned 1 else s
  if line < 16777216 then s.deviceFatal 5 else s

/-- What the first finding of a line leaves. -/
structure LinePoisoned (s : State) (line : Nat) (patrol : Bool) (t : State) : Prop where
  bad : t.tiers.hbmBad = s.tiers.hbmBad ++ [line]
  counted : t.reg Reg.hbmUe = (s.reg Reg.hbmUe + 1) % 2 ^ 32
  poisoned : t.reg Reg.hbmPoisoned = (if patrol then (s.reg Reg.hbmPoisoned + 1) % 2 ^ 32 else s.reg Reg.hbmPoisoned)
  fatal : line < 16777216 → 5 ∈ t.manager.causes ∧ t.beat.holdNext = true
  calm : 16777216 ≤ line → t.manager = s.manager

theorem State.poisonLine_poisons (s : State) (line : Nat) (patrol : Bool) :
    LinePoisoned s line patrol (s.poisonLine line patrol) := by
  let u := { s with tiers := { s.tiers with hbmBad := s.tiers.hbmBad ++ [line] } }.count Reg.hbmUe 1
  let v := if patrol then u.count Reg.hbmPoisoned 1 else u
  have hpv : s.poisonLine line patrol = if line < 16777216 then v.deviceFatal 5 else v := rfl
  have hu : u.reg Reg.hbmUe = (s.reg Reg.hbmUe + 1) % 2 ^ 32 ∧ u.reg Reg.hbmPoisoned = s.reg Reg.hbmPoisoned :=
    ⟨State.reg_count_same _ _ _, State.reg_count_other _ _ (by decide)⟩
  have htiers : v.tiers.hbmBad = s.tiers.hbmBad ++ [line] := by cases patrol <;> rfl
  have hue : v.reg Reg.hbmUe = (s.reg Reg.hbmUe + 1) % 2 ^ 32 := by
    cases patrol
    · exact hu.1
    · exact (State.reg_count_other _ _ (by decide)).trans hu.1
  have hpo : v.reg Reg.hbmPoisoned = (if patrol then (s.reg Reg.hbmPoisoned + 1) % 2 ^ 32 else s.reg Reg.hbmPoisoned) := by
    cases patrol
    · exact hu.2
    · exact (State.reg_count_same _ _ _).trans (congrArg (fun n => (n + 1) % 2 ^ 32) hu.2)
  have hm : v.manager = s.manager := by cases patrol <;> rfl
  rw [hpv]
  split
  next own =>
    exact ⟨by rw [State.deviceFatal_tiers, htiers], (State.deviceFatal_reg v 5 (by decide)).trans hue,
      (State.deviceFatal_reg v 5 (by decide)).trans hpo, fun _ => ⟨State.deviceFatal_cause v 5, rfl⟩, fun h => by omega⟩
  next other => exact ⟨htiers, hue, hpo, fun h => absurd h other, fun _ => hm⟩

theorem LinePoisoned.of_besidesPlatforms {s t u : State} {line : Nat} {patrol : Bool} (h : LinePoisoned s line patrol t)
    (e : u.besidesPlatforms = t.besidesPlatforms) : LinePoisoned s line patrol u := by
  simp only [State.besidesPlatforms, Prod.mk.injEq] at e
  obtain ⟨htiers, hregs, hmanager, hbeat⟩ := e
  refine ⟨htiers ▸ h.bad, ?_, ?_, ?_, ?_⟩
  · rw [State.reg_of_regs hregs]; exact h.counted
  · rw [State.reg_of_regs hregs]; exact h.poisoned
  · rw [hmanager, hbeat]; exact h.fatal
  · rw [hmanager]; exact h.calm

theorem exec_hbmUeDetect_first {s : State} {line : Nat} (inside : line < 6442450944) (new : line ∉ s.tiers.hbmBad)
    (patrol : Bool) : ∃ t, exec (.hbmUeDetect line patrol false none) s = .next t ∧ LinePoisoned s line patrol t := by
  obtain ⟨p, hp⟩ : ∃ p, s.poisonLine line patrol = p := ⟨_, rfl⟩
  have run : exec (.hbmUeDetect line patrol false none) s =
      .next (if patrol then p else (p.replicasOn line).foldl State.spoilSlot p) := by
    rw [← hp, exec_hbmUeDetect, execHbmUeDetect, if_neg (Nat.not_le.mpr inside), if_neg Bool.false_ne_true,
      List.contains_eq_mem, if_neg (by simpa using new)]
    rfl
  have h : LinePoisoned s line patrol p := hp ▸ s.poisonLine_poisons line patrol
  refine ⟨_, run, ?_⟩
  split
  · exact h
  · exact h.of_besidesPlatforms (foldl_keeps State.besidesPlatforms (f := State.spoilSlot) (fun _ _ => rfl) _ p)

/-! ### Flash blocks -/

/-- The block that wear levelling erases for a block (R299). -/
def Tiers.erased (t : Tiers) (b : Nat) : Nat :=
  if t.worn (t.leastWorn (b / stackBlocks)) + 500 ≤ t.worn b then t.leastWorn (b / stackBlocks) else b

theorem Tiers.erase_worn (t : Tiers) (b x : Nat) :
    (t.erase b).worn x = if x = t.erased b then t.worn (t.erased b) + 1 else t.worn x :=
  mapGetD_mapSet 0 _ _ _ _

/-- What a relocation leaves. -/
theorem State.relocated_keeps (s : State) (k b : Nat) :
    mapGet (k * stackBlocks + b) (s.relocated k b).tiers.reads = some 0 ∧
      (∀ x, (s.relocated k b).tiers.worn x = (s.tiers.erase (k * stackBlocks + b)).worn x) ∧
      mapGet k (s.relocated k b).tiers.deferred = some 0 ∧ (s.relocated k b).tiers.forced = s.tiers.forced ∧
      (s.relocated k b).reg Reg.flashReloc = (s.reg Reg.flashReloc + 1) % 2 ^ 32 ∧
      (s.relocated k b).reg Reg.flashForced = s.reg Reg.flashForced :=
  ⟨mapGet_mapSet_same _ _ _, fun _ => rfl, mapGet_mapSet_same _ _ _, rfl, State.reg_count_same _ _ _,
    State.reg_count_other _ _ (by decide)⟩

theorem exec_readDisturbRelocate_due {s : State} {k b : Nat} (hk : k < 4) (hb : b < stackBlocks)
    (due : s.reg Reg.readRelocate ≤ mapGetD 0 (k * stackBlocks + b) s.tiers.reads) :
    exec (.readDisturbRelocate k b) s = .next (s.relocated k b) := by
  have hb' : ¬ 131072 ≤ b := Nat.not_le.mpr hb
  simp [execReadDisturbRelocate, hk, hb', Nat.not_lt.mpr due]

theorem exec_forcedRelocation_due {s : State} {k ch b : Nat} (hk : k < 4) (hch : ch < 16)
    (late : 10000 ≤ mapGetD 0 k s.tiers.deferred) (due : (s.blocksDue k).find? (fun x => x / 8192 == ch) = some b) :
    exec (.forcedRelocation k ch) s = .next
      (({ s with tiers := { s.tiers with forced := mapSet k ch s.tiers.forced } }.count Reg.flashForced 1).relocated k b) := by
  simp [execForcedRelocation, Nat.not_le.mpr hk, Nat.not_le.mpr hch, Nat.not_lt.mpr late, due]

/-- A relocation erases its block, or by wear levelling the least worn one, and no other. -/
theorem exec_readDisturbRelocate_levels {s : State} {k b : Nat} (hk : k < 4) (hb : b < 131072)
    (due : s.reg Reg.readRelocate ≤ mapGetD 0 (k * 131072 + b) s.tiers.reads) :
    let e := if s.tiers.worn (s.tiers.leastWorn k) + 500 ≤ s.tiers.worn (k * 131072 + b) then s.tiers.leastWorn k
      else k * 131072 + b
    ∃ t, exec (.readDisturbRelocate k b) s = .next t ∧ mapGet (k * 131072 + b) t.tiers.reads = some 0 ∧
      t.tiers.worn e = s.tiers.worn e + 1 ∧ (∀ x, x ≠ e → t.tiers.worn x = s.tiers.worn x) ∧
      t.reg Reg.flashReloc = (s.reg Reg.flashReloc + 1) % 2 ^ 32 := by
  have hstack : (k * 131072 + b) / stackBlocks = k := by unfold stackBlocks; omega
  have he : s.tiers.erased (k * 131072 + b) =
      if s.tiers.worn (s.tiers.leastWorn k) + 500 ≤ s.tiers.worn (k * 131072 + b) then s.tiers.leastWorn k
      else k * 131072 + b := by
    unfold Tiers.erased
    rw [hstack]
  obtain ⟨hreads, hworn, -, -, hcount, -⟩ := s.relocated_keeps k b
  dsimp only
  rw [← he]
  exact ⟨_, exec_readDisturbRelocate_due hk hb due, hreads,
    (hworn _).trans ((Tiers.erase_worn _ _ _).trans (if_pos rfl)),
    fun x hx => (hworn x).trans ((Tiers.erase_worn _ _ _).trans (if_neg hx)), hcount⟩

theorem exec_forcedRelocation_moves {s : State} {k ch b : Nat} (hk : k < 4) (hch : ch < 16)
    (late : 10000 ≤ mapGetD 0 k s.tiers.deferred) (due : (s.blocksDue k).find? (fun x => x / 8192 == ch) = some b) :
    ∃ t, exec (.forcedRelocation k ch) s = .next t ∧ mapGet k t.tiers.forced = some ch ∧
      mapGet (k * 131072 + b) t.tiers.reads = some 0 ∧ mapGet k t.tiers.deferred = some 0 ∧
      t.reg Reg.flashForced = (s.reg Reg.flashForced + 1) % 2 ^ 32 ∧
      t.reg Reg.flashReloc = (s.reg Reg.flashReloc + 1) % 2 ^ 32 := by
  obtain ⟨hreads, -, hdeferred, hforced, hcount, hkept⟩ := State.relocated_keeps
    ({ s with tiers := { s.tiers with forced := mapSet k ch s.tiers.forced } }.count Reg.flashForced 1) k b
  refine ⟨_, exec_forcedRelocation_due hk hch late due, ?_, hreads, hdeferred, ?_, ?_⟩
  · rw [hforced]
    exact mapGet_mapSet_same _ _ _
  · rw [hkept]
    exact State.reg_count_same _ _ _
  · rw [hcount, State.reg_count_other _ _ (by decide)]
    rfl

/-! ### Far ports and channels -/

theorem exec_cxlPortRetrain_down {s : State} {p : Nat} (down : s.cxl p = 1) (full : Bool) :
    exec (.cxlPortRetrain p full) s =
      .next { s with tiers := { s.tiers with cxlState := mapSet p (if full then 2 else 3) s.tiers.cxlState } } := by
  simp [execCxlPortRetrain, down]

theorem exec_dramRefresh_inside {s : State} {ch : Nat} (h : ch < 256) (foreground : Bool) :
    exec (.dramRefresh ch foreground) s = .next { s with
      tiers := { s.tiers with refreshDue := mapSet ch (mapGetD 0 ch s.tiers.refreshDue + 1) s.tiers.refreshDue } } := by
  simp [execDramRefresh, Nat.not_le.mpr h]

theorem State.farDown_none {s : State} {p : Nat} (h : ∀ e ∈ s.cores, ∀ q ∈ e.2.rmOut, q.far ≠ some p) :
    s.farDown p = s := by
  have keep : ∀ l : List (Nat × Core), (∀ e ∈ l, ∀ q ∈ e.2.rmOut, q.far ≠ some p) →
      l.foldl (fun s (e : Nat × Core) =>
        (e.2.rmOut.filter (fun r => r.far == some p)).foldl (fun s r => s.failRm e.1 r 7) s) s = s := fun l => by
    induction l with
    | nil => exact fun _ => rfl
    | cons e l ih =>
      intro hl
      have he : e.2.rmOut.filter (fun r => r.far == some p) = [] :=
        List.filter_eq_nil_iff.mpr fun q hq => by simpa using hl e (.head _) q hq
      rw [List.foldl_cons, he]
      exact ih fun e he => hl e (.tail _ he)
  exact keep s.cores h

theorem State.pumpHomes_quiet {s : State} (h : s.homesQuiet) : s.pumpHomes = s := by
  obtain ⟨hcmds, hrunning, -⟩ := h
  simp [State.pumpHomes, State.pumpQueue, hcmds, hrunning, takeFirst]

theorem exec_cxlPortDown_quiet {s : State} {p : Nat} (up : 2 ≤ s.cxl p) (quiet : s.homesQuiet)
    (clear : ∀ e ∈ s.cores, ∀ q ∈ e.2.rmOut, q.far ≠ some p) :
    exec (.cxlPortDown p) s = .next { s with tiers := { s.tiers with cxlState := mapSet p 1 s.tiers.cxlState } } := by
  obtain ⟨hcmds, hrunning, hstill⟩ := quiet
  let t : State := { s with tiers := { s.tiers with cxlState := mapSet p 1 s.tiers.cxlState } }
  have hfar : t.farDown p = t := State.farDown_none clear
  have hpump : t.pumpHomes = t := State.pumpHomes_quiet ⟨hcmds, hrunning, hstill⟩
  rw [exec_cxlPortDown, execCxlPortDown, if_neg (Nat.not_lt.mpr up)]
  dsimp only
  rw [hfar, (List.filter_eq_nil_iff (l := t.tiers.homes)).mpr fun h hh => by simp [hstill h hh]]
  exact congrArg _ hpump

/-! ### Recalls -/

theorem exec_rmRecall_write {s : State} {r : Role} (may : s.mayWrite r Reg.rmRecall) (jpn : Nat) :
    exec (.rmRecall r jpn) s = .next (answer r (s.writeRecall jpn)) := by
  simp [execRmRecall, State.command_of_mayWrite may]

theorem State.writeRecall_unmapped {s : State} {jpn : Nat} (inside : jpn < 2 ^ 27) (free : s.reg Reg.recallState ≠ 1)
    (unmapped : s.xlateOf jpn = none) : ∃ t, s.writeRecall jpn = (0, t) ∧ t.reg Reg.recallState = 1 ∧
      t.rmem.recallJpn = jpn ∧ t.rmem.recallInv = [] := by
  unfold State.writeRecall
  rw [if_neg (Nat.not_le.mpr inside), if_neg free]
  dsimp only
  split
  next => exact ⟨_, rfl, State.reg_setReg_same _ _ _, rfl, rfl⟩
  next h => exact absurd (h.symm.trans unmapped) (by simp)

theorem State.writeRecall_busy {s : State} {jpn : Nat} (inside : jpn < 2 ^ 27) (busy : s.reg Reg.recallState = 1) :
    s.writeRecall jpn = (abortCode 7 0x31, s) := by
  unfold State.writeRecall
  rw [if_neg (Nat.not_le.mpr inside), if_pos busy]

/-- Settles O43: each command's own lemma. -/
theorem memoryErrorsAndUpkeep : Obligations.MemoryErrorsAndUpkeep := by
  refine ⟨fun s => ⟨fun _ => rfl, fun line patrol reader inside => ?_, fun _ _ on new => exec_scratchpadError_first on new,
      fun _ _ _ old => exec_scratchpadError_again old, fun line patrol inside new => ?_⟩,
    fun s => ⟨fun _ _ hk hb due => exec_readDisturbRelocate_levels hk hb due,
      fun _ _ _ hk hch late due => exec_forcedRelocation_moves hk hch late due, fun k b x hk hb => ?_,
      fun p up quiet clear => ?_, fun p b down => ?_, fun ch b hch => ?_, fun r jpn may inside free unmapped => ?_,
      fun r jpn may inside busy => ?_⟩⟩
  · simp [execHbmUeDetect, Nat.not_le.mpr inside]
  · obtain ⟨t, run, h⟩ := exec_hbmUeDetect_first inside new patrol
    exact ⟨t, run, h.bad, h.counted, h.poisoned, h.fatal, h.calm⟩
  · exact ⟨_, by simp [execBlockRetire, Nat.not_le.mpr hk, Nat.not_le.mpr hb, stackBlocks], rfl⟩
  · exact ⟨_, exec_cxlPortDown_quiet up quiet clear, mapGetD_mapSet_same _ _ _ _, rfl, rfl⟩
  · exact ⟨_, exec_cxlPortRetrain_down down b, mapGetD_mapSet_same _ _ _ _⟩
  · exact ⟨_, exec_dramRefresh_inside hch b, mapGetD_mapSet_same _ _ _ _⟩
  · obtain ⟨t, hw, hst, hjpn, hinv⟩ := State.writeRecall_unmapped inside free unmapped
    exact ⟨t, by simp [exec_rmRecall_write may, hw, answer], hst, hjpn, hinv⟩
  · have run : exec (.rmRecall r jpn) s = .next (s.setReg (Reg.lastAbort (roleNum r + 1)) (abortCode 7 0x31)) := by
      rw [exec_rmRecall_write may, State.writeRecall_busy inside busy]
      rfl
    exact ⟨_, run, rfl, State.reg_setReg_same _ _ _⟩

end Sys2Proof.Machine
end

section
/-! SUPPORT. The Platforms' own commands (R100, R101, R120, R124, R126). -/

namespace Sys2Proof.Machine

open Sys2Proof

/-! ### Segments -/

@[simp] theorem Core.seg_setSeg_same (k : Core) (n : Nat) (x : Segment) : (k.setSeg n x).seg n = x := by
  unfold Core.seg Core.setSeg
  split <;> rfl

/-- What closing the intake and sealing segments leave alone. -/
def State.besidesCores (s : State) : BeatSt × Junction × Platforms := (s.beat, s.fabric, s.platforms)

theorem State.closeSlot_besidesCores (s : State) (p : Nat) : (s.closeSlot p).besidesCores = s.besidesCores := by
  dsimp only [State.closeSlot]
  (repeat' split) <;> rfl

theorem State.arrive_besidesCores (s : State) (key n : Nat) : (s.arrive key n).besidesCores = s.besidesCores := by
  rw [State.arrive_rest]
  rfl

theorem State.sealSegment_besidesCores (s : State) (c b : Nat) : (s.sealSegment c b).besidesCores = s.besidesCores :=
  State.arrive_besidesCores ((s.countSkipped c b).updCore c (fun k => k.setSeg b ⟨2, s.segmentWords c b⟩)) _ _

theorem exec_intakeClose_closes {s : State} (running : s.noBeat = false) (isOpen : s.beat.intakeClosed = false) :
    ∃ t, exec .intakeClose s = .next t ∧ t.beat.intakeClosed = true ∧ t.fabric = s.fabric ∧ t.platforms = s.platforms := by
  let v : State := { s with beat := { s.beat with intakeClosed := true } }
  let u := ((List.range 256).filter (fun p => (v.plat p).en)).foldl State.closeSlot v
  let empty := (List.range 128).filter (fun c => u.runs c && ((u.core c).seg u.beatNow).state == 1 &&
    (u.slotsOn c).all (fun p => u.arrivals p == 0))
  have run : exec .intakeClose s = .next (empty.foldl (fun t c => t.sealSegment c t.beatNow) u) := by
    rw [exec_intakeClose, execIntakeClose, running, isOpen]
    exact congrArg _ (if_neg (by decide))
  have kept : (empty.foldl (fun t c => t.sealSegment c t.beatNow) u).besidesCores = v.besidesCores :=
    (foldl_keeps State.besidesCores (fun t c => t.sealSegment_besidesCores c _) empty u).trans
      (foldl_keeps State.besidesCores State.closeSlot_besidesCores _ v)
  simp only [State.besidesCores, Prod.mk.injEq] at kept
  obtain ⟨hbeat, hfabric, hplatforms⟩ := kept
  exact ⟨_, run, congrArg BeatSt.intakeClosed hbeat, hfabric, hplatforms⟩

theorem State.sealSegment_core (s : State) (c b : Nat) :
    ((s.sealSegment c b).core c).seg b = ⟨2, s.segmentWords c b⟩ := by
  dsimp only [State.sealSegment]
  rw [State.core_setReg, State.core_count, State.arrive_core]
  simp [State.core_updCore]

theorem State.sealSegment_counts (s : State) (c b : Nat) :
    (s.sealSegment c b).reg Reg.segmentsSealed = (s.reg Reg.segmentsSealed + 1) % 2 ^ 32 := by
  dsimp only [State.sealSegment]
  rw [State.reg_setReg_other _ _ (by decide), State.reg_count_same, State.arrive_reg _ _ _ _ (by decide) (by decide)]
  rfl

/-- The seal line takes one arrival, and its N is 1. -/
theorem State.sealSegment_fires {s : State} {c b : Nat}
    (fresh : (s.line (lineKey c (.cluster (248 + c % 8)) b)).arrivals = 0)
    (unfired : (s.line (lineKey c (.cluster (248 + c % 8)) b)).fired = false) :
    ((s.sealSegment c b).line (lineKey c (.cluster (248 + c % 8)) b)).fired = true := by
  let u := (s.countSkipped c b).updCore c (fun k => k.setSeg b ⟨2, s.segmentWords c b⟩)
  have hu : ∀ j, u.line j = s.line j := fun _ => rfl
  have h := u.arrive_line (lineKey c (.cluster (248 + c % 8)) b) 1 (lineKey c (.cluster (248 + c % 8)) b)
  rw [hu, if_pos ⟨rfl, unfired⟩, fresh] at h
  exact congrArg Line.fired h

theorem exec_segmentSeal_seals {s : State} {c : Nat} (runs : s.runs c = true)
    (ready : ((s.core c).seg (s.sealBeat c)).state = 1) (closed : s.beat.intakeClosed = true)
    (predicted : s.predicted c (s.sealBeat c) = true) :
    exec (.segmentSeal c) s = .next (s.sealSegment c (s.sealBeat c)) := by
  simp [execSegmentSeal, runs, ready, closed, predicted]

/-! ### Choices of a queue -/

/-- A choice of a queue replaced by another. -/
def replaceChoice (q r x : QueuedChoice) : QueuedChoice := if x == q then r else x

theorem not_mem_replace {q a r : QueuedChoice} {l : List QueuedChoice} (hr : r ≠ q) (h : a = q ∨ q ∉ l) :
    q ∉ l.map (replaceChoice a r) := by
  intro hq
  obtain ⟨x, hx, he⟩ := List.mem_map.mp hq
  unfold replaceChoice at he
  split at he
  next => exact hr he
  next hne =>
    subst he
    rcases h with rfl | hl
    · simp at hne
    · exact hl hx

theorem mem_replace {q r : QueuedChoice} {l : List QueuedChoice} (h : q ∈ l) : r ∈ l.map (replaceChoice q r) :=
  List.mem_map.mpr ⟨q, h, by simp [replaceChoice]⟩

theorem State.findChoice_some {s : State} {p : Nat} {tok : TokenId} {ch : Nat} {q : QueuedChoice}
    (h : s.findChoice p tok ch = some q) : q ∈ s.queueOf p ∧ q.answered = false := by
  refine ⟨List.mem_of_find?_eq_some h, ?_⟩
  have hp := List.find?_some h
  simp only [Bool.and_eq_true, Bool.not_eq_true'] at hp
  exact hp.2

@[simp] theorem State.queueOf_updChoice (s : State) (p : Nat) (q r : QueuedChoice) :
    (s.updChoice p q r).queueOf p = (s.queueOf p).map (replaceChoice q r) :=
  mapGetD_mapSet_same _ _ _ _

theorem State.queueOf_of_platforms {s t : State} (h : t.platforms = s.platforms) (p : Nat) : t.queueOf p = s.queueOf p :=
  congrArg (fun x : Platforms => mapGetD [] p x.queues) h

/-- What the release of a Consist's chain leaves alone. -/
def State.besidesPools (s : State) : Junction × Platforms := (s.fabric, s.platforms)

theorem State.releaseConsist_besidesPools (s : State) (k : Nat) (p : BeatPacket) :
    (s.releaseConsist k p).besidesPools = s.besidesPools := by
  unfold State.releaseConsist
  split
  · rfl
  · exact foldl_keeps State.besidesPools (f := State.freeChain) (fun _ _ => rfl) _ s

theorem State.releaseConsist_reg (s : State) (k : Nat) (p : BeatPacket) {j : Nat} (hj : j ≠ Reg.cellsReleased) :
    (s.releaseConsist k p).reg j = s.reg j := by
  unfold State.releaseConsist
  split
  · rfl
  · exact State.freeChains_reg _ s hj

/-- The steps of serving a choice in its queue: answered, then released. -/
def servedQueue (q : QueuedChoice) (l : List QueuedChoice) : List QueuedChoice :=
  (l.map (replaceChoice q { q with answered := true })).map
    (replaceChoice { q with answered := true } { q with answered := true, released := true })

theorem State.dropChoice_besidesPools (s : State) (p : Nat) (q : QueuedChoice) :
    (s.dropChoice p q).fabric = s.fabric ∧ (s.dropChoice p q).queueOf p = servedQueue q (s.queueOf p) := by
  let u := (s.updChoice p q { q with answered := true }).updChoice p { q with answered := true }
    { q with answered := true, released := true }
  have h : (s.dropChoice p q).besidesPools = u.besidesPools :=
    foldl_keeps State.besidesPools (fun t x => t.releaseConsist_besidesPools _ x) _ u
  simp only [State.besidesPools, Prod.mk.injEq] at h
  obtain ⟨hfabric, hplatforms⟩ := h
  refine ⟨hfabric, (State.queueOf_of_platforms hplatforms p).trans ?_⟩
  simp [u, servedQueue]

theorem State.dropChoice_reg (s : State) (p : Nat) (q : QueuedChoice) {j : Nat} (hj : j ≠ Reg.cellsReleased) :
    (s.dropChoice p q).reg j = s.reg j :=
  foldl_keeps (fun t : State => t.reg j) (fun t x => t.releaseConsist_reg _ x hj) _ _

@[simp] theorem servedQueue_length (q : QueuedChoice) (l : List QueuedChoice) : (servedQueue q l).length = l.length := by
  simp [servedQueue]

/-- A choice that has not been answered is gone from its queue once it is served. -/
theorem not_mem_served {q a : QueuedChoice} {l : List QueuedChoice} (open' : q.answered = false) (h : a = q ∨ q ∉ l) :
    q ∉ servedQueue a l := by
  have hne : ∀ x : QueuedChoice, x.answered = true → x ≠ q := fun x hx e => by simp [e, open'] at hx
  exact not_mem_replace (hne _ rfl) (.inr (not_mem_replace (hne _ rfl) h))

/-! ### Answers -/

theorem State.rankDev_of_tables {s t : State} (hd : t.doms = s.doms) (hc : t.reg Reg.rankCount = s.reg Reg.rankCount)
    (rank : Nat) : t.rankDev rank = s.rankDev rank := by
  unfold State.rankDev State.standInOf State.rankRecord State.dom
  rw [hd, hc]

/-- The answer of a choice, with the fields that name its token. -/
theorem State.sendAnswer_injects {s : State} {q : QueuedChoice} {d : Nat} (h : s.rankDev q.nextRank = some d)
    (overrun : Bool) (vec : List BF16) : ∃ x a, s.sendAnswer q overrun vec = s.inject x ∧ x.body = .beat a ∧
      a.hdr.kind = 2 ∧ a.vec = vec ∧ a.hdr.batchTag = q.tok.tag ∧ a.hdr.lane = q.tok.lane := by
  unfold State.sendAnswer State.sendRank
  rw [h]
  exact ⟨_, _, rfl, rfl, rfl, rfl, rfl, rfl⟩

@[simp] theorem State.sendAnswer_platforms (s : State) (q : QueuedChoice) (overrun : Bool) (vec : List BF16) :
    (s.sendAnswer q overrun vec).platforms = s.platforms := by
  simp [State.sendAnswer]

theorem State.sendAnswer_reg (s : State) (q : QueuedChoice) (overrun : Bool) (vec : List BF16) {k : Nat}
    (hk : k ≠ Reg.badRank) : (s.sendAnswer q overrun vec).reg k = s.reg k := by
  unfold State.sendAnswer State.sendRank
  dsimp only
  split
  · exact State.reg_count_other _ _ hk
  · rfl

theorem exec_expertAnswerSend_answers {s : State} {ps ch src d : Nat} {tok : TokenId} {q : QueuedChoice} (ov : Bool)
    (found : s.findChoice ps tok ch = some q) (sound : q.spoiled = false) (hd : s.rankDev q.nextRank = some d) :
    ∃ t x, exec (.expertAnswerSend ps tok ch ov src) s = .next t ∧ q ∉ t.queueOf ps ∧
      (t.queueOf ps).length = (s.queueOf ps).length ∧
      t.fabric.inject = s.fabric.inject ++ [x] ∧ ∃ a, x.body = .beat a ∧ a.hdr.kind = 2 ∧
        a.vec = (s.core (s.plat ps).core).spB16 src (s.reg Reg.hiddenWidth) ∧
        a.hdr.batchTag = q.tok.tag ∧ a.hdr.lane = q.tok.lane := by
  obtain ⟨-, open'⟩ := State.findChoice_some found
  obtain ⟨x, a, hsend, hx, hkind, hvec, htag, hlane⟩ := State.sendAnswer_injects hd ov
    ((s.core (s.plat ps).core).spB16 src (s.reg Reg.hiddenWidth))
  have run : exec (.expertAnswerSend ps tok ch ov src) s = .next ((s.inject x).dropChoice ps q) := by
    simp [execExpertAnswerSend, found, sound, hsend]
  obtain ⟨hfabric, hqueue⟩ := (s.inject x).dropChoice_besidesPools ps q
  refine ⟨_, x, run, ?_, ?_, ?_, a, hx, hkind, hvec, htag, hlane⟩
  · rw [hqueue]
    exact not_mem_served open' (.inl rfl)
  · rw [hqueue, servedQueue_length]
    rfl
  · rw [hfabric]
    rfl

/-! ### Predictions -/

theorem State.choiceCounters_keeps (s : State) (q : QueuedChoice) :
    (s.choiceCounters q).platforms = s.platforms ∧ (s.choiceCounters q).fabric = s.fabric ∧
      (s.choiceCounters q).regs = s.regs := by
  have h := foldl_keeps (fun t : State => (t.platforms, t.fabric, t.regs))
    (f := fun t i => (t.updCore (s.plat q.entry.pslot).core
      (fun k => k.setCtr i t.beatNow (Config.runtimeCount t.free i))).draws 1) (fun _ _ => rfl)
    ((((s.templates (s.plat q.entry.pslot).core).find? (fun t => t.pslot == q.entry.pslot)).map (fun t => t.writes)).getD [])
    s
  simp only [Prod.mk.injEq] at h
  exact h

theorem exec_predictionComplete_keeps {s : State} {ps ch : Nat} {tok : TokenId} {q : QueuedChoice}
    (found : s.findChoice ps tok ch = some q) (pred : q.pred = true) (first : q.kept = none)
    (granules : s.predictChoice ps q ≠ []) : ∃ t, exec (.predictionComplete ps tok ch) s = .next t ∧
      t.reg Reg.predTokens = (s.reg Reg.predTokens + 1) % 2 ^ 32 ∧
      { q with kept := some (s.predictChoice ps q) } ∈ t.queueOf ps ∧ t.fabric = s.fabric := by
  obtain ⟨mem, -⟩ := State.findChoice_some found
  let done : QueuedChoice := { q with kept := some (s.predictChoice ps q) }
  let u := (s.updChoice ps q done).count Reg.predTokens 1
  have hq : done ∈ u.queueOf ps := by
    have h := mem_replace (r := done) mem
    rw [← State.queueOf_updChoice] at h
    exact h
  have hn : u.reg Reg.predTokens = (s.reg Reg.predTokens + 1) % 2 ^ 32 := State.reg_count_same _ _ _
  have run : exec (.predictionComplete ps tok ch) s = .next
      (if ((u.core (u.plat ps).core).seg u.beatNow).state = 1 ∨ u.age q.beat ≠ 0 then u.choiceCounters done
        else u.count Reg.segRefused 1) := by
    rw [exec_predictionComplete, execPredictionComplete, found]
    dsimp only
    rw [if_neg (by simp [pred, first]), if_neg granules]
  refine ⟨_, run, ?_⟩
  split
  · obtain ⟨hplatforms, hfabric, hregs⟩ := u.choiceCounters_keeps done
    refine ⟨(State.reg_of_regs hregs _).trans hn, ?_, hfabric⟩
    rw [State.queueOf_of_platforms hplatforms]
    exact hq
  · exact ⟨(State.reg_count_other _ _ (by decide)).trans hn, hq, rfl⟩

theorem exec_predictionComplete_empty {s : State} {ps ch : Nat} {tok : TokenId} {q : QueuedChoice}
    (found : s.findChoice ps tok ch = some q) (pred : q.pred = true) (first : q.kept = none)
    (noGranules : s.predictChoice ps q = []) : ∃ t, exec (.predictionComplete ps tok ch) s = .next t ∧
      t.reg Reg.predTokens = (s.reg Reg.predTokens + 1) % 2 ^ 32 ∧ q ∉ t.queueOf ps ∧
      t.reg Reg.predEmpty = (s.reg Reg.predEmpty + 1) % 2 ^ 32 ∧
      ∀ d, q.spoiled = false → s.rankDev q.nextRank = some d → ∃ x a, t.fabric.inject = s.fabric.inject ++ [x] ∧
        x.body = .beat a ∧ a.hdr.kind = 2 ∧ a.vec = List.replicate (s.reg Reg.hiddenWidth) 0 := by
  obtain ⟨-, open'⟩ := State.findChoice_some found
  let done : QueuedChoice := { q with kept := some [] }
  have hdone : done ≠ q := fun h => Option.some_ne_none _ ((congrArg QueuedChoice.kept h).trans first)
  let u := ((s.updChoice ps q done).count Reg.predTokens 1).count Reg.predEmpty 1
  have hq : q ∉ u.queueOf ps := by
    have h := not_mem_replace (l := s.queueOf ps) hdone (.inl rfl)
    rw [← State.queueOf_updChoice] at h
    exact h
  have hn : u.reg Reg.predTokens = (s.reg Reg.predTokens + 1) % 2 ^ 32 :=
    (State.reg_count_other _ _ (by decide)).trans (State.reg_count_same _ _ _)
  have he : u.reg Reg.predEmpty = (s.reg Reg.predEmpty + 1) % 2 ^ 32 :=
    (State.reg_count_same _ _ _).trans (by rw [State.reg_count_other _ _ (by decide)]; rfl)
  have hw : ∀ k, k ≠ Reg.predTokens → k ≠ Reg.predEmpty → u.reg k = s.reg k := fun k ht hk =>
    (State.reg_count_other _ _ hk).trans ((State.reg_count_other _ _ ht).trans rfl)
  let w := if q.spoiled then u else u.sendAnswer done false (List.replicate (u.reg Reg.hiddenWidth) 0)
  have hwq : w.queueOf ps = u.queueOf ps := State.queueOf_of_platforms (by simp only [w]; split <;> simp) ps
  have hwr : ∀ k, k ≠ Reg.badRank → w.reg k = u.reg k := fun k hk => by
    simp only [w]
    split
    · rfl
    · exact u.sendAnswer_reg done false _ hk
  have run : exec (.predictionComplete ps tok ch) s = .next (w.dropChoice ps done) := by
    rw [exec_predictionComplete, execPredictionComplete, found]
    dsimp only
    rw [if_neg (by simp [pred, first]), noGranules, if_pos rfl]
  obtain ⟨hfabric, hqueue⟩ := w.dropChoice_besidesPools ps done
  refine ⟨_, run, ?_, ?_, ?_, fun d sound hd => ?_⟩
  · rw [State.dropChoice_reg _ _ _ (by decide), hwr _ (by decide), hn]
  · rw [hqueue, hwq]
    exact not_mem_served open' (.inr hq)
  · rw [State.dropChoice_reg _ _ _ (by decide), hwr _ (by decide), he]
  · have hud : u.rankDev done.nextRank = some d :=
      (State.rankDev_of_tables (s := s) (t := u) rfl (hw Reg.rankCount (by decide) (by decide)) q.nextRank).trans hd
    obtain ⟨x, a, hsend, hx, hkind, hvec, -, -⟩ :=
      State.sendAnswer_injects hud false (List.replicate (u.reg Reg.hiddenWidth) 0)
    have hwi : w = u.inject x := by simp only [w, sound]; exact hsend
    refine ⟨x, a, ?_, hx, hkind, ?_⟩
    · rw [hfabric, hwi]
      rfl
    · rw [hvec, hw _ (by decide) (by decide)]

theorem exec_auditWindowClose_judges {s : State} {n : Nat} (ended : s.platforms.auditEnded = some n) :
    ∃ t, exec .auditWindowClose s = .next t ∧ t.platforms.auditEnded = none ∧
      t.reg Reg.auditAlarm = if s.reg Reg.auditLimit < n then 1 else s.reg Reg.auditAlarm := by
  let t : State := { s with platforms := { s.platforms with auditEnded := none } }
  have run : exec .auditWindowClose s = .next
      (if s.reg Reg.auditLimit < n then (t.setReg Reg.auditAlarm 1).count Reg.auditAlarms 1 else t) := by
    rw [exec_auditWindowClose, execAuditWindowClose, State.closeAudit, ended]
    rfl
  refine ⟨_, run, ?_⟩
  split
  · exact ⟨rfl, (State.reg_count_other _ _ (by decide)).trans (State.reg_setReg_same _ _ _)⟩
  · exact ⟨rfl, rfl⟩

/-- Settles O23: each command's own lemma; a prediction keeps granules or is answered at once. -/
theorem platformCommandsComplete : Obligations.PlatformCommandsComplete := by
  refine fun s => ⟨exec_intakeClose_closes, fun c runs ready closed predicted => ?_,
    fun ps tok ch ov src q d found sound hd => exec_expertAnswerSend_answers ov found sound hd,
    fun ps tok ch q found pred first => ?_, fun n ended => exec_auditWindowClose_judges ended⟩
  · exact ⟨_, exec_segmentSeal_seals runs ready closed predicted, s.sealSegment_core c _, s.sealSegment_counts c _,
      State.sealSegment_fires⟩
  · by_cases h : s.predictChoice ps q = []
    · obtain ⟨t, run, hcount, hq, hempty, hanswer⟩ := exec_predictionComplete_empty found pred first h
      exact ⟨t, run, hcount, fun hne => absurd h hne, fun _ => ⟨hq, hempty, hanswer⟩⟩
    · obtain ⟨t, run, hcount, hq, hfabric⟩ := exec_predictionComplete_keeps found pred first h
      exact ⟨t, run, hcount, fun _ => ⟨hq, hfabric⟩, fun h0 => absurd h0 h⟩

end Sys2Proof.Machine
end

section
/-! SUPPORT and O13. Contributions to an accumulator entry (R147, R149) and its read-out (R71, R152). -/

namespace Sys2Proof.Machine

open Sys2Proof

/-! ### Contributions -/

/-- One contribution added to an entry, without what is counted. -/
def AccEntry.addOne (e : AccEntry) : Option Dy → AccEntry
  | none => e.nanned
  | some v => (e.addInt (e.quot v).1).1

theorem AccEntry.addAll_eq_foldl (e : AccEntry) (cs : List (Option Dy)) :
    (e.addAll cs).1 = cs.foldl AccEntry.addOne e := by
  unfold AccEntry.addAll
  refine (List.foldl_hom Prod.fst (fun st c => ?_)).symm
  cases c <;> rfl

theorem AccEntry.addInt_above {e : AccEntry} {q : Int} (h : accTop < e.acc + q) :
    e.addInt q = ({ e with acc := accTop, sat := true, satNeg := false }, true) := by
  simp [AccEntry.addInt, accClamp, h]

theorem AccEntry.addInt_below {e : AccEntry} {q : Int} (h : e.acc + q < accBottom) :
    e.addInt q = ({ e with acc := accBottom, sat := true, satNeg := true }, true) := by
  have htop : ¬ accTop < e.acc + q := by
    unfold accTop; unfold accBottom at h; omega
  simp [AccEntry.addInt, accClamp, htop, h]

theorem AccEntry.addInt_inside {e : AccEntry} {q : Int} (low : accBottom ≤ e.acc + q) (high : e.acc + q ≤ accTop) :
    e.addInt q = ({ e with acc := e.acc + q }, false) := by
  simp [AccEntry.addInt, accClamp, Int.not_lt.mpr low, Int.not_lt.mpr high]

/-- The three ways in which an integer is added: clamped above, clamped below, or exact. -/
theorem AccEntry.addInt_cases (e : AccEntry) (q : Int) :
    e.addInt q = ({ e with acc := accTop, sat := true, satNeg := false }, true) ∨
    e.addInt q = ({ e with acc := accBottom, sat := true, satNeg := true }, true) ∨
    accBottom ≤ e.acc + q ∧ e.acc + q ≤ accTop ∧ e.addInt q = ({ e with acc := e.acc + q }, false) := by
  by_cases high : accTop < e.acc + q
  · exact .inl (addInt_above high)
  · by_cases low : e.acc + q < accBottom
    · exact .inr (.inl (addInt_below low))
    · have high := Int.not_lt.mp high
      have low := Int.not_lt.mp low
      exact .inr (.inr ⟨low, high, addInt_inside low high⟩)

/-- An entry that holds an 80-bit value (R147). -/
def AccEntry.in80 (e : AccEntry) : Prop := accBottom ≤ e.acc ∧ e.acc ≤ accTop

/-- What one contribution does: the entry stays in 80 bits, NAN is set by a NaN alone, SAT is never cleared, BASE stays. -/
theorem AccEntry.addOne_keeps {e : AccEntry} (h : e.in80) (c : Option Dy) :
    (e.addOne c).in80 ∧ (e.addOne c).nan = (e.nan || c.isNone) ∧ (e.sat = true → (e.addOne c).sat = true) ∧
      (e.addOne c).base = e.base := by
  cases c with
  | none => exact ⟨h, by simp [addOne, nanned], id, rfl⟩
  | some v =>
    obtain hq | hq | ⟨low, high, hq⟩ := e.addInt_cases (e.quot v).1
    · simp [addOne, hq, in80, accTop, accBottom]
    · simp [addOne, hq, in80, accTop, accBottom]
    · simp [addOne, hq, in80, low, high]

theorem AccEntry.addAll_keeps {e : AccEntry} (h : e.in80) (cs : List (Option Dy)) :
    (e.addAll cs).1.in80 ∧ (e.addAll cs).1.nan = (e.nan || cs.any (·.isNone)) ∧
      (e.sat = true → (e.addAll cs).1.sat = true) ∧ (e.addAll cs).1.base = e.base := by
  rw [addAll_eq_foldl]
  induction cs generalizing e with
  | nil => simp [h]
  | cons c cs ih =>
    obtain ⟨hin, hnan, hsat, hbase⟩ := addOne_keeps h c
    obtain ⟨hin', hnan', hsat', hbase'⟩ := ih hin
    exact ⟨hin', by rw [List.foldl_cons, hnan', hnan, List.any_cons, Bool.or_assoc], fun hs => hsat' (hsat hs),
      hbase'.trans hbase⟩

/-! ### Read-out -/

theorem AccEntry.readOut_nan {e : AccEntry} (h : e.nan = true) (satRead : Nat) (f : FP32) :
    e.readOut false satRead f = (rNaN, false) := by
  simp [AccEntry.readOut, h]

theorem AccEntry.readOut_sat {e : AccEntry} (hn : e.nan = false) (hs : e.sat = true) (satRead : Nat) (f : FP32) :
    e.readOut false satRead f = (if satRead = 0 then ⟨3, e.satNeg, 0, 0⟩ else rNaN, true) := by
  simp [AccEntry.readOut, hn, hs]

/-- The bytes that a read-out makes of its entries, in their order. -/
def State.readOutBytes (s : State) (c : Nat) (d : ReadOut) : List Byte :=
  (List.range d.count).flatMap (fun j =>
    let v := (s.readEntry c (d.entry0 + j) (d.factor.map ((s.core c).addr .ae)) j).1
    match d.target with
    | .fp32 => leBytes 4 (v.toF32 (s.subnormMode c)).toNat
    | .bf16 => leBytes 2 (v.toB16 (s.subnormMode c)).toNat
    | .e4m3 => leBytes 1 v.toE4m3.1)

/-- The state in which a read-out has put its bytes. -/
def State.readOutTo (s : State) (c : Nat) (d : ReadOut) : State :=
  match d.dst with
  | .scratch a => s.setCore c ((s.core c).spWrite ((s.core c).addr .ae a) (s.readOutBytes c d))
  | .yard cluster lslot tok first => s.yardShare tok lslot (cluster % 16) (s.syncBeat c) first (s.readOutBytes c d)

/-- A read-out puts its bytes and counts, and all else is the end of the engine's repeat. -/
theorem exec_readout_puts {s : State} {c : Nat} (on : s.coreOn c = true) (d : ReadOut) :
    ∃ t clamps, exec (.readout c d) s = .next t ∧
      SeqOnly c (((s.readOutTo c d).count Reg.satColumns ((List.range d.count).countP
        (fun j => (s.readEntry c (d.entry0 + j) (d.factor.map ((s.core c).addr .ae)) j).2))).count
          Reg.stage1Clamp clamps) t := by
  simp only [exec_readout, execReadout, State.onCore_on on, List.countP_map, List.flatMap_map]
  exact ⟨_, _, rfl, State.repeatDone_only _ c .ae⟩

theorem State.readOutTo_scratch {s : State} {c : Nat} {d : ReadOut} {a : Addr} (h : d.dst = .scratch a) :
    s.readOutTo c d = s.setCore c ((s.core c).spWrite ((s.core c).addr .ae a) (s.readOutBytes c d)) := by
  simp only [State.readOutTo, h]

theorem State.readOutTo_yard {s : State} {c cluster lslot first : Nat} {d : ReadOut} {tok : TokenId}
    (h : d.dst = .yard cluster lslot tok first) :
    s.readOutTo c d = s.yardShare tok lslot (cluster % 16) (s.syncBeat c) first (s.readOutBytes c d) := by
  simp only [State.readOutTo, h]

/-- A read-out leaves every accumulator entry as it was (R152). -/
theorem State.readOutTo_acc (s : State) (c : Nat) (d : ReadOut) : ((s.readOutTo c d).core c).acc = (s.core c).acc := by
  unfold State.readOutTo
  split
  · rw [State.core_setCore_same]
    rfl
  · rfl

theorem State.readOutTo_regs (s : State) (c : Nat) (d : ReadOut) : (s.readOutTo c d).regs = s.regs := by
  unfold State.readOutTo
  split <;> rfl

theorem SeqOnly.acc {c : Nat} {s t : State} (h : SeqOnly c s t) : (t.core c).acc = (s.core c).acc :=
  congrArg (·.2.2.1) h.store

theorem SeqOnly.yards {c : Nat} {s t : State} (h : SeqOnly c s t) : t.yards = s.yards := by rw [h.rest]

/-- Settles O13: an accumulator by the three ways an integer is added, a read-out by what it puts and its repeat's end. -/
theorem accumulatorAndReadOut : Obligations.AccumulatorAndReadOut := by
  refine ⟨⟨fun e cs low high => ?_, fun e q =>
      ⟨AccEntry.addInt_above, AccEntry.addInt_below, AccEntry.addInt_inside⟩⟩,
    fun s c d on => ?_,
    fun e satRead f => ⟨fun hn => AccEntry.readOut_nan hn satRead f, fun hn hs h0 => ?_, fun hn hs h0 => ?_⟩⟩
  · obtain ⟨⟨hlow, hhigh⟩, hnan, hsat, hbase⟩ := AccEntry.addAll_keeps ⟨low, high⟩ cs
    exact ⟨hlow, hhigh, hnan, hsat, hbase⟩
  · obtain ⟨t, clamps, run, only⟩ := exec_readout_puts on d
    refine ⟨t, run, fun a ha => ⟨?_, ?_⟩, fun cl l tok first hy => ⟨?_, ?_⟩, ?_, ?_⟩
    · rw [only.scratch, State.core_count, State.core_count, State.readOutTo_scratch ha]
      exact congrArg Core.scratch (State.core_setCore_same s c _)
    · rw [only.yards, State.count_yards, State.count_yards, State.readOutTo_scratch ha, State.setCore_yards]
    · rw [only.scratch, State.core_count, State.core_count, State.readOutTo_yard hy]
      rfl
    · rw [only.yards, State.count_yards, State.count_yards, State.readOutTo_yard hy]
      exact rfl
    · rw [only.acc, State.core_count, State.core_count, State.readOutTo_acc]
    · rw [only.reg _ (by decide) (by decide) (by decide), State.reg_count_other _ _ (by decide), State.reg_count_same,
        State.reg_of_regs (s.readOutTo_regs c d)]
  · rw [AccEntry.readOut_sat hn hs, if_pos h0]
  · rw [AccEntry.readOut_sat hn hs, if_neg h0]

end Sys2Proof.Machine
end

section
/-! SUPPORT and O26. The exit stage (R79 to R83, R96): requests, candidate sets, the merge and SAMPLE_END; what a packet
for a rank and freed chains change. -/

namespace Sys2Proof.Machine

open Sys2Proof

/-! ### Sending and landing -/

/-- A packet for a rank with a record is injected. -/
theorem State.sendRank_eq_inject {s : State} {rank d : Nat} (h : s.rankDev rank = some d) (cluster srcCluster func cls : Nat)
    (b : Body) : s.sendRank rank cluster srcCluster func cls b =
      s.inject ⟨s.routeHdr d cluster srcCluster func cls, 0, [], b⟩ := by
  unfold State.sendRank
  rw [h]

/-- A packet for a rank changes no number but the count of bad ranks. -/
theorem State.sendRank_reg (s : State) (rank cluster srcCluster func cls : Nat) (b : Body) {k : Nat}
    (hk : k ≠ Reg.badRank) :
    (s.sendRank rank cluster srcCluster func cls b).reg k = s.reg k := by
  unfold State.sendRank
  split
  · exact State.reg_count_other _ _ hk
  · rfl

/-- A delivered packet leaves the landing list, and what waits to be sent stays. -/
theorem State.takeLanding_inject (s : State) (x : Body) :
    ∃ f, s.takeLanding x = { s with fabric := f } ∧ f.inject = s.fabric.inject := by
  unfold State.takeLanding
  split
  · exact ⟨_, rfl, rfl⟩
  · exact ⟨s.fabric, rfl, rfl⟩

/-- The settings of a beat do not hang on the fabric. -/
theorem State.asOf_fabric (s : State) (f : Junction) (b : Nat) :
    { s with fabric := f }.asOf b = { s.asOf b with fabric := f } := by
  unfold State.asOf
  exact List.foldl_hom (fun t : State => { t with fabric := f }) (g₁ := State.under) (g₂ := State.under) (fun _ _ => rfl)

/-- What freeing chains leaves alone. -/
def State.besidesChains (s : State) : Junction × List ExitToken × List (Nat × Blob) := (s.fabric, s.exits, s.doms)

theorem State.freeChain_foldl_besidesChains (l : List Chain) (s : State) :
    (l.foldl State.freeChain s).besidesChains = s.besidesChains :=
  foldl_keeps State.besidesChains (f := State.freeChain) (fun _ _ => rfl) l s

theorem State.rankDev_count (s : State) {k : Nat} (hk : Reg.rankCount ≠ k) (n rank : Nat) :
    (s.count k n).rankDev rank = s.rankDev rank :=
  State.rankDev_of_tables (State.count_doms s k n) (State.reg_count_other s n hk) rank

theorem State.rankDev_freeChains (l : List Chain) (s : State) (rank : Nat) :
    (l.foldl State.freeChain s).rankDev rank = s.rankDev rank :=
  State.rankDev_of_tables (congrArg (·.2.2) (s.freeChain_foldl_besidesChains l)) (s.freeChains_reg l (by decide)) rank

/-! ### Requests and candidate sets -/

/-- The candidate set that answers a request from this rank, under the settings of v (R80). -/
def State.candidateSet (v : State) (p : BeatPacket) (rank cl : Nat) (logits : List FP32) : BeatPacket :=
  let set := topK v.sampleK (v.scaledLogits logits)
  ⟨{ p.hdr with kind := 6, flags := BitVec.ofNat 16 set.length, srcRank := rank, dstRank := p.hdr.nextRank,
                nextRank := 0, homeCluster := cl }, [], [], set, 0, 0⟩

theorem exec_vocabularyRequestArrival_answers {s : State} {p : BeatPacket} {d : Nat} (logits : List FP32) (cl : Nat)
    (kind : p.hdr.kind = 5) (landed : s.landed p) (fresh : s.stale p.hdr.batchTag p.hdr.gen = false)
    (share : (s.asOf p.hdr.beat).reg Reg.vocabLen ≠ 0) (hd : s.rankDev p.hdr.nextRank = some d) :
    ∃ t x rank, exec (.vocabularyRequestArrival p logits cl) s = .next t ∧ t.fabric.inject = s.fabric.inject ++ [x] ∧
      x.body = .beat ((s.asOf p.hdr.beat).candidateSet p rank cl logits) := by
  obtain ⟨f, hf, hi⟩ := s.takeLanding_inject (.beat p)
  let u : State := { s with fabric := f }
  have hu : u.decideChains p = u := State.decideChains_of_landed landed
  have hg : u.landingFailed 16 p = false := State.landingFailed_of_landed landed _
  have hs : u.stale p.hdr.batchTag p.hdr.gen = false := fresh
  have hv : u.asOf p.hdr.beat = { s.asOf p.hdr.beat with fabric := f } := s.asOf_fabric f _
  let n := badKeys ((u.asOf p.hdr.beat).scaledLogits logits)
  let w := (u.freeChains p).count Reg.nanScores n
  have hw : w.rankDev p.hdr.nextRank = some d :=
    (State.rankDev_count _ (by decide) n _).trans ((State.rankDev_freeChains _ u _).trans hd)
  have hwf : w.fabric = f := congrArg (·.1) (State.freeChain_foldl_besidesChains (u.chainsOf p) u)
  have run : exec (.vocabularyRequestArrival p logits cl) s = .next (w.sendRank p.hdr.nextRank cl (p.hdr.lane % 16) 0 1
      (.beat ((u.asOf p.hdr.beat).candidateSet p w.myRank cl logits))) := by
    have hlen : ¬ (u.asOf p.hdr.beat).reg Reg.vocabLen = 0 := by rw [hv]; exact share
    rw [exec_vocabularyRequestArrival, execVocabularyRequestArrival, if_neg (not_not.mpr kind), hf]
    simp only [u, hu, hg, hs, if_neg hlen]
    rfl
  rw [State.sendRank_eq_inject hw, hv] at run
  exact ⟨_, _, _, run, by rw [← hi, ← hwf]; rfl, rfl⟩

theorem State.exitToken_setExit (s : State) (x : ExitToken) : (s.setExit x).exitToken x.tok x.beat = some x := by
  unfold State.exitToken State.setExit
  rw [List.find?_append, List.find?_eq_none.mpr fun y hy => by simpa [imp_iff_not_or] using (List.mem_filter.mp hy).2]
  simp

theorem exec_candidateSetArrival_keeps {s : State} {p : BeatPacket} {x : ExitToken} (kind : p.hdr.kind = 6)
    (landed : s.landed p) (fresh : s.stale p.hdr.batchTag p.hdr.gen = false) (now : s.age p.hdr.beat = 0)
    (found : s.exitToken (idOf p.hdr) p.hdr.beat = some x) (open' : x.merged = false)
    (new : x.sets.any (fun e => e.1 == p.hdr.srcRank) = false) :
    ∃ f, exec (.candidateSetArrival p) s =
      .next ({ s with fabric := f }.setExit { x with sets := x.sets ++ [(p.hdr.srcRank, p.cands)] }) := by
  obtain ⟨f, hf⟩ := s.takeLanding_fabric (.beat p)
  have hu : { s with fabric := f }.decideChains p = { s with fabric := f } := State.decideChains_of_landed landed
  have hg : { s with fabric := f }.landingFailed (p.hdr.homeCluster % 16) p = false :=
    State.landingFailed_of_landed landed _
  have hs : { s with fabric := f }.stale p.hdr.batchTag p.hdr.gen = false := fresh
  have ht : { s with fabric := f }.exitToken (idOf p.hdr) p.hdr.beat = some x := found
  have ha : { s with fabric := f }.age p.hdr.beat = 0 := now
  refine ⟨f, ?_⟩
  simp [execCandidateSetArrival, kind, hf, hu, hg, hs, ht, ha, open', new]

theorem State.exitToken_found {s : State} {t : TokenId} {b : Nat} {x : ExitToken} (h : s.exitToken t b = some x) :
    x.tok = t ∧ x.beat = b := by
  simpa using List.find?_some h

/-! ### The merge -/

/-- The merged candidates of an exit token (R80). -/
def State.mergedCands (s : State) (x : ExitToken) : List (Nat × FP32) :=
  topK (s.asOf x.beat).sampleK (x.sets.flatMap (fun e => e.2))

/-- The token drawn from the merged candidates (R81, R82). -/
def State.drawnToken (s : State) (x : ExitToken) : Nat :=
  let v := s.asOf x.beat
  sampleOf (BitVec.ofNat 32 (v.reg Reg.sampleTemp)) (BitVec.ofNat 32 (v.reg Reg.sampleTopp)) (s.mergedCands x)
    (draw (v.reg Reg.sampleSeed) x.tok.tag (drawIndex x.tok))

/-- A merge first frees the chains of the token's sets, keeps the token as merged and counts it; then it counts an empty list,
or sends the drawn token. -/
theorem State.mergeExit_eq (s : State) (x : ExitToken) (part : Bool) (cl : Nat) : ∃ (cells : List Chain) (fl : BitVec 16),
    let u := ((cells.foldl State.freeChain s).setExit { x with merged := true, flags := fl }).count Reg.vocabMerges 1
    s.mergeExit x part cl =
      if s.mergedCands x = [] then u.count Reg.vocabEmpty 1
      else u.sendRank x.tok.entryRank cl x.cluster 0 1
        (.beat (sampledPacket x.tok x.beat u.myRank cl (s.drawnToken x) fl)) :=
  ⟨_, _, rfl⟩

theorem State.mergeExit_reg (s : State) (x : ExitToken) (part : Bool) (cl : Nat) {k : Nat} (hcells : k ≠ Reg.cellsReleased)
    (hempty : k ≠ Reg.vocabEmpty) (hrank : k ≠ Reg.badRank) :
    (s.mergeExit x part cl).reg k = (s.count Reg.vocabMerges 1).reg k := by
  obtain ⟨cells, fl, he⟩ := s.mergeExit_eq x part cl
  let w := (cells.foldl State.freeChain s).setExit { x with merged := true, flags := fl }
  have hw : ∀ j, j ≠ Reg.cellsReleased → w.reg j = s.reg j := fun j hj => s.freeChains_reg cells hj
  have hu : (w.count Reg.vocabMerges 1).reg k = (s.count Reg.vocabMerges 1).reg k := by
    rw [State.reg_count, State.reg_count, hw k hcells, hw _ (by decide)]
  rw [he]
  split
  · exact (State.reg_count_other _ _ hempty).trans hu
  · exact (State.sendRank_reg _ _ _ _ _ _ _ hrank).trans hu

theorem State.mergeExit_empty {s : State} {x : ExitToken} (h : s.mergedCands x = []) (part : Bool) (cl : Nat) :
    (s.mergeExit x part cl).reg Reg.vocabEmpty = (s.reg Reg.vocabEmpty + 1) % 2 ^ 32 ∧
      (s.mergeExit x part cl).fabric = s.fabric := by
  obtain ⟨cells, fl, he⟩ := s.mergeExit_eq x part cl
  rw [he, if_pos h]
  constructor
  · rw [State.reg_count_same, State.reg_count_other _ _ (by decide)]
    exact congrArg (fun n => (n + 1) % 2 ^ 32) (s.freeChains_reg cells (by decide))
  · exact congrArg (·.1) (s.freeChain_foldl_besidesChains cells)

theorem State.mergeExit_sends {s : State} {x : ExitToken} {d : Nat} (h : s.mergedCands x ≠ [])
    (hd : s.rankDev x.tok.entryRank = some d) (part : Bool) (cl : Nat) :
    ∃ y q, (s.mergeExit x part cl).fabric.inject = s.fabric.inject ++ [y] ∧ y.body = .beat q ∧ q.hdr.kind = 7 ∧
      q.token = s.drawnToken x := by
  obtain ⟨cells, fl, he⟩ := s.mergeExit_eq x part cl
  let w := (cells.foldl State.freeChain s).setExit { x with merged := true, flags := fl }
  have hw : (w.count Reg.vocabMerges 1).rankDev x.tok.entryRank = some d :=
    (w.rankDev_count (by decide) 1 _).trans ((s.rankDev_freeChains cells _).trans hd)
  have hf : w.fabric = s.fabric := congrArg (·.1) (s.freeChain_foldl_besidesChains cells)
  rw [he, if_neg h, State.sendRank_eq_inject hw, ← hf]
  exact ⟨_, _, rfl, rfl, rfl, rfl⟩

/-! ### SAMPLE_END -/

theorem State.overrun_reg (s : State) {unit cause k : Nat} (hcount : k ≠ Reg.overrunCount (unit * 8 + cause))
    (htotal : k ≠ Reg.overrunTotal) (hlast : k ≠ Reg.lastOverrunBeat) (hunits : k ≠ Reg.overrunUnits) :
    (s.overrun unit cause).reg k = s.reg k := by
  unfold State.overrun
  split
  · rfl
  · rw [State.reg_setReg_other _ _ hunits, State.reg_setReg_other _ _ hlast, State.reg_count_other _ _ htotal,
      State.reg_count_other _ _ hcount]

/-- A counter that each step of a walk raises by one is raised by the walk's length. -/
theorem State.foldl_counts {α : Type} {f : State → α → State} {k : Nat}
    (h : ∀ s a, (f s a).reg k = (s.reg k + 1) % 2 ^ 32) {l : List α} (nonempty : 0 < l.length) (s : State) :
    (l.foldl f s).reg k = (s.reg k + l.length) % 2 ^ 32 := by
  induction l generalizing s with
  | nil => simp at nonempty
  | cons a l ih =>
    cases l with
    | nil => exact h s a
    | cons b l =>
      rw [List.foldl_cons, ih (by simp), h]
      simp only [List.length_cons]
      omega

/-- A token with a share missing at SAMPLE_END: counted, and merged without it (R80). -/
def State.mergePartial (cl : Nat) (s : State) (x : ExitToken) : State :=
  ((s.count Reg.vocabPartial 1).overrun 11 7).mergeExit x true cl

theorem State.mergePartial_partials (cl : Nat) (s : State) (x : ExitToken) :
    (s.mergePartial cl x).reg Reg.vocabPartial = (s.reg Reg.vocabPartial + 1) % 2 ^ 32 := by
  unfold State.mergePartial
  rw [State.mergeExit_reg _ _ _ _ (by decide) (by decide) (by decide), State.reg_count_other _ _ (by decide),
    State.overrun_reg _ (by decide) (by decide) (by decide) (by decide), State.reg_count_same]

theorem State.mergePartial_merges (cl : Nat) (s : State) (x : ExitToken) :
    (s.mergePartial cl x).reg Reg.vocabMerges = (s.reg Reg.vocabMerges + 1) % 2 ^ 32 := by
  unfold State.mergePartial
  rw [State.mergeExit_reg _ _ _ _ (by decide) (by decide) (by decide), State.reg_count_same,
    State.overrun_reg _ (by decide) (by decide) (by decide) (by decide), State.reg_count_other _ _ (by decide)]

/-- The tokens that SAMPLE_END merges: those of the running beat with a share missing (R80). -/
def State.partialTokens (s : State) : List ExitToken :=
  s.exits.filter (fun x => !x.merged && s.age x.beat == 0 &&
    decide (x.sets.length < (s.asOf x.beat).reg Reg.vocabShares) && !s.stale x.tok.tag x.tok.gen)

theorem exec_sampleEndExpiry_merges (s : State) (cl : Nat) :
    exec (.sampleEndExpiry cl) s = .next (s.partialTokens.foldl (State.mergePartial cl) s) := rfl

/-- Settles O26: each command's own lemma. -/
theorem exitStageCompletes : Obligations.ExitStageCompletes := by
  intro s
  refine ⟨fun p logits cl d kind landed fresh share hd => ?_, fun p x kind landed fresh now found open' new => ?_,
    fun tag lane cl x due fresh => ?_, fun cl => ⟨_, exec_sampleEndExpiry_merges s cl, fun nobody => ?_, fun due => ?_⟩⟩
  · obtain ⟨t, x, rank, run, hinject, hbody⟩ :=
      exec_vocabularyRequestArrival_answers logits cl kind landed fresh share hd
    exact ⟨t, x, run, hinject, _, hbody, rfl, rfl, rfl⟩
  · obtain ⟨f, run⟩ := exec_candidateSetArrival_keeps kind landed fresh now found open' new
    obtain ⟨htok, hbeat⟩ := State.exitToken_found found
    refine ⟨_, run, ?_, rfl⟩
    rw [← htok, ← hbeat]
    exact State.exitToken_setExit _ { x with sets := x.sets ++ [(p.hdr.srcRank, p.cands)] }
  · have run : exec (.vocabMerge tag lane cl) s = .next (s.mergeExit x false cl) := by
      simp [execVocabMerge, due, fresh]
    refine ⟨_, run, ?_, fun empty => State.mergeExit_empty empty false cl,
      fun d sends hd => State.mergeExit_sends sends hd false cl⟩
    rw [State.mergeExit_reg _ _ _ _ (by decide) (by decide) (by decide), State.reg_count_same]
  · rw [List.eq_nil_of_length_eq_zero (l := s.partialTokens) nobody, List.foldl_nil]
  · exact ⟨State.foldl_counts (State.mergePartial_partials cl) due s,
      State.foldl_counts (State.mergePartial_merges cl) due s⟩

end Sys2Proof.Machine
end

section
/-! SUPPORT and O20. The Yard (R63 to R78, R129) and dispatch (R90, R91): credits, the Manifest, stage 2, striped groups and
KV blocks. -/

namespace Sys2Proof.Machine

open Sys2Proof

/-! ### Numbers of 64 bits -/

theorem State.reg_count64_same (s : State) (k n : Nat) : (s.count64 k n).reg k = (s.reg k + n) % 2 ^ 64 := by
  rw [State.reg_count64, if_pos rfl]

theorem State.reg_count64_other (s : State) {k j : Nat} (n : Nat) (h : j ≠ k) : (s.count64 k n).reg j = s.reg j := by
  rw [State.reg_count64, if_neg h]

theorem State.rankDev_count64 (s : State) {k : Nat} (hk : Reg.rankCount ≠ k) (n rank : Nat) :
    (s.count64 k n).rankDev rank = s.rankDev rank :=
  State.rankDev_of_tables (State.count64_doms s k n) (State.reg_count64_other s n hk) rank

/-! ### Credits (R91) -/

theorem creditKey_inj {lslot e f : Nat} : creditKey lslot e = creditKey lslot f ↔ e = f := by
  unfold creditKey; omega

/-- One credit of an expert, spent and counted. -/
def State.spendCredit (s : State) (lslot e : Nat) : State :=
  let left := mapSet (creditKey lslot e) (mapGetD 0 (creditKey lslot e) s.platforms.credits - 1) s.platforms.credits
  ({ s with platforms := { s.platforms with credits := left } }).count64 Reg.creditsSpent 1

/-- The entry of a checked choice keeps its place, expert and weight, and says whether the expert is unavailable. -/
theorem State.creditCheck_entry (s : State) (lslot i e : Nat) (w : FP32) :
    let x := (s.creditCheck lslot i e w).1
    x.choice = i ∧ x.expert = e ∧ x.gate = w ∧
      x.unavail = (mapRecOf (s.dom (slotKey Reg.expertMap lslot)) e).unavail := by
  dsimp only [State.creditCheck]
  split
  next hu => exact ⟨rfl, rfl, rfl, hu.symm⟩
  next hu =>
    have hu := (Bool.not_eq_true _).mp hu
    split
    · exact ⟨rfl, rfl, rfl, hu.symm⟩
    · exact ⟨rfl, rfl, rfl, hu.symm⟩

/-- A check drops its choice and leaves the state, or spends one credit that the expert has. -/
theorem State.creditCheck_state (s : State) (lslot i e : Nat) (w : FP32) :
    let r := s.creditCheck lslot i e w
    r.1.dropped = true ∧ r.2 = s ∨
      r.1.dropped = false ∧ mapGetD 0 (creditKey lslot e) s.platforms.credits ≠ 0 ∧ r.2 = s.spendCredit lslot e := by
  dsimp only [State.creditCheck]
  split
  · exact .inl ⟨rfl, rfl⟩
  · split
    next => exact .inl ⟨rfl, rfl⟩
    next hc => exact .inr ⟨rfl, hc, rfl⟩

/-- What spending credits leaves alone: all but the Platforms' counters and the count of credits spent. -/
structure CreditsOnly (s t : State) : Prop where
  rest : t = { s with platforms := t.platforms, regs := t.regs }
  reg : ∀ k, k ≠ Reg.creditsSpent → t.reg k = s.reg k

theorem CreditsOnly.refl (s : State) : CreditsOnly s s := ⟨rfl, fun _ _ => rfl⟩

theorem CreditsOnly.trans {s t u : State} (h : CreditsOnly s t) (g : CreditsOnly t u) : CreditsOnly s u :=
  ⟨by rw [g.rest, h.rest], fun k hk => (g.reg k hk).trans (h.reg k hk)⟩

theorem State.spendCredit_only (s : State) (lslot e : Nat) : CreditsOnly s (s.spendCredit lslot e) :=
  ⟨rfl, fun _ hk => State.reg_count64_other _ 1 hk⟩

theorem State.creditCheck_only (s : State) (lslot i e : Nat) (w : FP32) : CreditsOnly s (s.creditCheck lslot i e w).2 := by
  obtain ⟨-, hs⟩ | ⟨-, -, hs⟩ := s.creditCheck_state lslot i e w
  · rw [hs]
    exact .refl s
  · rw [hs]
    exact s.spendCredit_only lslot e

theorem State.creditChecks_only (s : State) (lslot i : Nat) (l : List (Nat × FP32)) :
    CreditsOnly s (s.creditChecks lslot i l).2 := by
  induction l generalizing s i with
  | nil => exact .refl s
  | cons c l ih => exact (s.creditCheck_only lslot i c.1 c.2).trans (ih _ (i + 1))

theorem State.creditChecks_weights (s : State) (lslot i : Nat) (l : List (Nat × FP32)) :
    (s.creditChecks lslot i l).1.map (fun e => (e.expert, e.gate)) = l := by
  induction l generalizing s i with
  | nil => rfl
  | cons c l ih =>
    obtain ⟨-, he, hw, -⟩ := s.creditCheck_entry lslot i c.1 c.2
    simp [State.creditChecks, he, hw, ih]

theorem State.creditChecks_places (s : State) (lslot i : Nat) (l : List (Nat × FP32)) :
    (s.creditChecks lslot i l).1.map (fun e => e.choice) = List.range' i l.length := by
  induction l generalizing s i with
  | nil => rfl
  | cons c l ih =>
    obtain ⟨hi, -, -, -⟩ := s.creditCheck_entry lslot i c.1 c.2
    simp [State.creditChecks, hi, ih, List.range'_succ]

theorem State.creditChecks_unavail (s : State) (lslot i : Nat) (l : List (Nat × FP32)) :
    ∀ x ∈ (s.creditChecks lslot i l).1, x.unavail = (mapRecOf (s.dom (slotKey Reg.expertMap lslot)) x.expert).unavail := by
  induction l generalizing s i with
  | nil => exact fun x hx => absurd hx List.not_mem_nil
  | cons c l ih =>
    obtain ⟨-, he, -, hu⟩ := s.creditCheck_entry lslot i c.1 c.2
    refine List.forall_mem_cons.mpr ⟨by rw [he]; exact hu, fun x hx => ?_⟩
    rw [ih _ _ x hx, (s.creditCheck_only lslot i c.1 c.2).rest]
    rfl

/-- What one check leaves of an expert's credits and the credit of it that it spent add up to what there was. -/
theorem State.creditCheck_spends (s : State) (lslot i e f : Nat) (w : FP32) :
    let r := s.creditCheck lslot i e w
    mapGetD 0 (creditKey lslot f) r.2.platforms.credits + (if !r.1.dropped && r.1.expert == f then 1 else 0) =
      mapGetD 0 (creditKey lslot f) s.platforms.credits := by
  obtain ⟨-, he, -, -⟩ := s.creditCheck_entry lslot i e w
  obtain ⟨hd, hs⟩ | ⟨hd, hc, hs⟩ := s.creditCheck_state lslot i e w
  · simp [hs, hd]
  · simp only [hs, hd, he, State.spendCredit, State.count64_platforms, mapGetD_mapSet, creditKey_inj]
    by_cases hf : f = e
    · subst hf
      simp only [if_true, Bool.not_false, beq_self_eq_true, Bool.and_self]
      omega
    · simp [hf, Ne.symm hf]

theorem State.creditChecks_spend (s : State) (lslot i f : Nat) (l : List (Nat × FP32)) :
    mapGetD 0 (creditKey lslot f) (s.creditChecks lslot i l).2.platforms.credits +
      (s.creditChecks lslot i l).1.countP (fun x => !x.dropped && x.expert == f) =
        mapGetD 0 (creditKey lslot f) s.platforms.credits := by
  induction l generalizing s i with
  | nil => rfl
  | cons c l ih =>
    rw [← s.creditCheck_spends lslot i c.1 f c.2, ← ih (s.creditCheck lslot i c.1 c.2).2 (i + 1)]
    simp only [State.creditChecks, List.countP_cons]
    omega

theorem State.creditChecks_others (s : State) (lslot i : Nat) (l : List (Nat × FP32)) {k : Nat}
    (hk : ∀ e, k ≠ creditKey lslot e) :
    mapGetD 0 k (s.creditChecks lslot i l).2.platforms.credits = mapGetD 0 k s.platforms.credits := by
  induction l generalizing s i with
  | nil => rfl
  | cons c l ih =>
    refine (ih _ (i + 1)).trans ?_
    obtain ⟨-, hs⟩ | ⟨-, -, hs⟩ := s.creditCheck_state lslot i c.1 c.2
    · rw [hs]
    · simp [hs, State.spendCredit, mapGetD_mapSet, hk]

/-! ### Dispatch (R91) -/

/-- What sending packets for ranks does: it adds packets to those that wait, and counts ranks without a record. -/
structure Sends (s t : State) : Prop where
  rest : t = { s with fabric := t.fabric, regs := t.regs }
  reg : ∀ k, k ≠ Reg.badRank → t.reg k = s.reg k
  inject : ∃ more, t.fabric.inject = s.fabric.inject ++ more

theorem Sends.refl (s : State) : Sends s s := ⟨rfl, fun _ _ => rfl, [], (List.append_nil _).symm⟩

theorem Sends.trans {s t u : State} (h : Sends s t) (g : Sends t u) : Sends s u := by
  obtain ⟨l, hl⟩ := h.inject
  obtain ⟨m, hm⟩ := g.inject
  exact ⟨by rw [g.rest, h.rest], fun k hk => (g.reg k hk).trans (h.reg k hk), l ++ m,
    by rw [hm, hl, List.append_assoc]⟩

theorem State.sendRank_sends (s : State) (rank cluster srcCluster func cls : Nat) (b : Body) :
    Sends s (s.sendRank rank cluster srcCluster func cls b) := by
  refine ⟨?_, fun k hk => s.sendRank_reg rank cluster srcCluster func cls b hk, ?_⟩
  · unfold State.sendRank
    split <;> rfl
  · unfold State.sendRank
    split
    · exact ⟨[], (List.append_nil _).symm⟩
    · exact ⟨_, rfl⟩

theorem Sends.foldl {α : Type} {f : State → α → State} (h : ∀ s a, Sends s (f s a)) (l : List α) (s : State) :
    Sends s (l.foldl f s) := by
  induction l generalizing s with
  | nil => exact .refl s
  | cons a l ih => exact (h s a).trans (ih _)

theorem renormEntries_experts (es : List ChoiceEntry) :
    (renormEntries es).map (fun e => e.expert) = es.map (fun e => e.expert) := by
  unfold renormEntries
  rw [List.map_map]
  refine List.map_congr_left fun e _ => ?_
  dsimp only [Function.comp]
  split <;> rfl

/-- The state in which a list's credits have been checked. -/
def State.checkedList (s : State) (lslot : Nat) (list : List (Nat × FP32)) : State :=
  ((s.count64 Reg.choicesEmitted list.length).creditChecks lslot 0 list).2

/-- The Manifest of a token's list (R91), whatever its flags came to. -/
def State.manifestOf (s : State) (tok : TokenId) (beat lslot nr nc : Nat) (flags : BitVec 16) (es : List ChoiceEntry)
    (res : List BF16) : BeatPacket :=
  ⟨{ headerFor tok 3 lslot beat s.myRank nr flags with homeCluster := nc }, es, res, [], 0, 0⟩

/-- A dispatch checks the list, sends the Manifest with the list's experts, and then sends the Consists. -/
theorem State.dispatch_sends (s : State) (tok : TokenId) (beat lslot cluster nr nc : Nat) (flags : BitVec 16)
    (hid res : List BF16) (list : List (Nat × FP32)) :
    let c := s.checkedList lslot list
    ∃ fl es, es.map (fun e => e.expert) = list.map (fun e => e.1) ∧
      Sends (c.sendRank nr nc cluster 0 1 (.beat (c.manifestOf tok beat lslot nr nc fl es res)))
        (s.dispatch tok beat lslot cluster nr nc flags hid res list) := by
  have experts : ((s.count64 Reg.choicesEmitted list.length).creditChecks lslot 0 list).1.map (fun e => e.expert) =
      list.map (fun e => e.1) := by
    conv_rhs => rw [← (s.count64 Reg.choicesEmitted list.length).creditChecks_weights lslot 0 list, List.map_map]
    rfl
  unfold State.dispatch
  refine ⟨_, _, ?_, Sends.foldl (fun _ _ => State.sendRank_sends _ _ _ _ _ _ _) _ _⟩
  split
  · rw [renormEntries_experts, experts]
  · exact experts

/-- The dispatch of an empty list sends a Manifest with no entry, and nothing else. -/
theorem State.dispatch_nil (s : State) (tok : TokenId) (beat lslot cluster nr nc : Nat) (flags : BitVec 16)
    (hid res : List BF16) :
    let c := s.count64 Reg.choicesEmitted 0
    ∃ fl, s.dispatch tok beat lslot cluster nr nc flags hid res [] =
      c.sendRank nr nc cluster 0 1 (.beat (c.manifestOf tok beat lslot nr nc fl [] res)) := by
  simp only [State.dispatch, State.creditChecks, State.destRanks, List.length_nil, List.filter_nil, Nat.lt_irrefl,
    decide_false, Bool.and_false, Bool.false_eq_true, if_false, List.map_nil, List.foldl_nil]
  exact ⟨_, rfl⟩

theorem State.checkedList_only (s : State) (lslot : Nat) (list : List (Nat × FP32)) :
    CreditsOnly (s.count64 Reg.choicesEmitted list.length) (s.checkedList lslot list) :=
  State.creditChecks_only _ lslot 0 list

theorem State.dispatch_combine (s : State) (tok : TokenId) (beat lslot cluster nr nc : Nat) (flags : BitVec 16)
    (hid res : List BF16) (list : List (Nat × FP32)) :
    (s.dispatch tok beat lslot cluster nr nc flags hid res list).combine = s.combine := by
  obtain ⟨fl, es, -, sent⟩ := s.dispatch_sends tok beat lslot cluster nr nc flags hid res list
  rw [sent.rest]
  dsimp only
  rw [State.sendRank_combine, (s.checkedList_only lslot list).rest]
  rfl

theorem State.dispatch_reg (s : State) (tok : TokenId) (beat lslot cluster nr nc : Nat) (flags : BitVec 16)
    (hid res : List BF16) (list : List (Nat × FP32)) {k : Nat} (hspent : k ≠ Reg.creditsSpent) (hrank : k ≠ Reg.badRank) :
    (s.dispatch tok beat lslot cluster nr nc flags hid res list).reg k =
      (s.count64 Reg.choicesEmitted list.length).reg k := by
  obtain ⟨fl, es, -, sent⟩ := s.dispatch_sends tok beat lslot cluster nr nc flags hid res list
  rw [sent.reg k hrank, State.sendRank_reg _ _ _ _ _ _ _ hrank, (s.checkedList_only lslot list).reg k hspent]

/-- The Manifest is the first packet that a dispatch sends. -/
theorem State.dispatch_manifest {s : State} {nr d : Nat} (hd : s.rankDev nr = some d) (tok : TokenId)
    (beat lslot cluster nc : Nat) (flags : BitVec 16) (hid res : List BF16) (list : List (Nat × FP32)) :
    ∃ (y : Packet) (q : BeatPacket),
      (s.dispatch tok beat lslot cluster nr nc flags hid res list).fabric.inject[s.fabric.inject.length]? = some y ∧
      y.body = .beat q ∧ q.hdr.kind = 3 ∧ q.hdr.dstRank = nr ∧
      q.entries.map (fun e => e.expert) = list.map (fun e => e.1) ∧ q.vec = res := by
  obtain ⟨fl, es, experts, sent⟩ := s.dispatch_sends tok beat lslot cluster nr nc flags hid res list
  have only := s.checkedList_only lslot list
  have hc : (s.checkedList lslot list).rankDev nr = some d :=
    (State.rankDev_of_tables (by rw [only.rest]) (only.reg _ (by decide)) nr).trans
      ((s.rankDev_count64 (by decide) _ nr).trans hd)
  have hf : (s.checkedList lslot list).fabric = s.fabric := by rw [only.rest]; rfl
  rw [State.sendRank_eq_inject hc] at sent
  obtain ⟨more, hmore⟩ := sent.inject
  have first : (s.dispatch tok beat lslot cluster nr nc flags hid res list).fabric.inject[s.fabric.inject.length]? =
      some ⟨(s.checkedList lslot list).routeHdr d nc cluster 0 1, 0, [],
        .beat ((s.checkedList lslot list).manifestOf tok beat lslot nr nc fl es res)⟩ := by
    rw [hmore]
    simp [State.inject, hf]
  exact ⟨_, _, first, rfl, rfl, rfl, experts, rfl⟩

/-! ### Stage 2 -/

theorem State.leaveStage_residualOf (s : State) (tok : TokenId) : (s.leaveStage tok).residualOf tok = none := by
  unfold State.residualOf State.leaveStage
  rw [List.find?_eq_none]
  intro r hr
  simpa using (List.mem_filter.mp hr).2

theorem State.residualOf_of_combine {s t : State} (h : t.combine = s.combine) (tok : TokenId) :
    t.residualOf tok = s.residualOf tok := by
  unfold State.residualOf; rw [h]

theorem State.countStage2_combine (s : State) (n : Nat) (g : Stage2) : (s.countStage2 n g).combine = s.combine := by
  dsimp only [State.countStage2, State.yardBusy]
  split <;> rfl

theorem State.countStage2_fabric (s : State) (n : Nat) (g : Stage2) : (s.countStage2 n g).fabric = s.fabric := by
  dsimp only [State.countStage2, State.yardBusy]
  split <;> rfl

theorem State.countStage2_doms (s : State) (n : Nat) (g : Stage2) : (s.countStage2 n g).doms = s.doms := by
  dsimp only [State.countStage2, State.yardBusy]
  split <;> rfl

theorem State.countStage2_reg (s : State) (n : Nat) (g : Stage2) {k : Nat} (hk : k ≠ Reg.shortLists) :
    (s.countStage2 n g).reg k = (((s.count Reg.stage1Clamp n).count Reg.nanScores g.nan).count Reg.scoredTokens 1).reg k := by
  dsimp only [State.countStage2, State.yardBusy]
  split
  · exact State.reg_count_other _ _ hk
  · rfl

theorem State.countStage2_rankDev (s : State) (n : Nat) (g : Stage2) (rank : Nat) :
    (s.countStage2 n g).rankDev rank = s.rankDev rank :=
  State.rankDev_of_tables (s.countStage2_doms n g) (by
    rw [State.countStage2_reg _ _ _ (by decide), State.reg_count_other _ _ (by decide),
      State.reg_count_other _ _ (by decide), State.reg_count_other _ _ (by decide)]) rank

theorem exec_stage2Result_stale {s : State} {tok : TokenId} {r : Residual} (held : s.residualOf tok = some r)
    (stale : s.stale tok.tag tok.gen = true) (lslot nr nc : Nat) (hid res : List BF16) :
    exec (.stage2Result tok lslot nr nc hid res) s = .next (s.leaveStage tok) := by
  simp [execStage2Result, held, stale]

/-- A token of an inactive slot is counted, and its Manifest has no entry (R90). -/
theorem exec_stage2Result_inactive {s : State} {tok : TokenId} {lslot nr d : Nat} (nc : Nat) (hid res : List BF16)
    {r : Residual} (held : s.residualOf tok = some r) (fresh : s.stale tok.tag tok.gen = false)
    (inactive : ((s.stageView tok).layerSlot lslot).experts = 0) (hd : s.rankDev nr = some d) :
    ∃ (t : State) (x : Packet), exec (.stage2Result tok lslot nr nc hid res) s = .next t ∧
      t.reg Reg.inactiveSlot = (s.reg Reg.inactiveSlot + 1) % 2 ^ 32 ∧ t.fabric.inject = s.fabric.inject ++ [x] ∧
      ∃ q : BeatPacket, x.body = .beat q ∧ q.hdr.kind = 3 ∧ q.entries = [] ∧ q.vec = res ∧ q.hdr.batchTag = tok.tag ∧
        q.hdr.lane = tok.lane := by
  let u := (s.leaveStage tok).count Reg.inactiveSlot 1
  have run : exec (.stage2Result tok lslot nr nc hid res) s =
      .next (u.dispatch tok r.beat lslot r.cluster nr nc r.flags hid res []) := by
    simp [execStage2Result, held, fresh, inactive, u]
  obtain ⟨fl, hdispatch⟩ := u.dispatch_nil tok r.beat lslot r.cluster nr nc r.flags hid res
  let c := u.count64 Reg.choicesEmitted 0
  have hc : c.rankDev nr = some d :=
    (u.rankDev_count64 (by decide) 0 nr).trans (((s.leaveStage tok).rankDev_count (by decide) 1 nr).trans hd)
  rw [hdispatch, State.sendRank_eq_inject hc] at run
  refine ⟨_, _, run, ?_, rfl, c.manifestOf tok r.beat lslot nr nc fl [] res, rfl, rfl, rfl, rfl, rfl, rfl⟩
  exact (State.reg_count64_other u 0 (by decide)).trans (State.reg_count_same _ _ _)

/-- What a token's stage leaves when its input has been scored, and its list dispatched (R63, R91). -/
def State.scoreToken (s : State) (tok : TokenId) (lslot nr nc : Nat) (hid res : List BF16) (r : Residual)
    (x : List (Option Dy) × Nat) : State :=
  let g := (s.stageView tok).stage2 tok lslot r.cluster x.1
  ((s.leaveStage tok).countStage2 x.2 g).dispatch tok r.beat lslot r.cluster nr nc r.flags hid res g.list

theorem exec_stage2Result_scores {s : State} {tok : TokenId} {lslot : Nat} (nr nc : Nat) {hid : List BF16} (res : List BF16)
    {r : Residual} {x : List (Option Dy) × Nat} (held : s.residualOf tok = some r) (fresh : s.stale tok.tag tok.gen = false)
    (active : ((s.stageView tok).layerSlot lslot).experts ≠ 0)
    (whole : (s.stageView tok).scorerInput ((s.stageView tok).layerSlot lslot) tok lslot r.cluster hid = some x) :
    exec (.stage2Result tok lslot nr nc hid res) s = .next (s.scoreToken tok lslot nr nc hid res r x) := by
  simp [execStage2Result, held, fresh, active, whole, State.scoreToken]

section Scored
variable (s : State) (tok : TokenId) (lslot nr nc : Nat) (hid res : List BF16) (r : Residual) (x : List (Option Dy) × Nat)

theorem State.scoreToken_residualOf : (s.scoreToken tok lslot nr nc hid res r x).residualOf tok = none := by
  unfold State.scoreToken
  rw [State.residualOf_of_combine (State.dispatch_combine _ _ _ _ _ _ _ _ _ _ _),
    State.residualOf_of_combine (State.countStage2_combine _ _ _)]
  exact s.leaveStage_residualOf tok

theorem State.scoreToken_reg {k : Nat} (hshort : k ≠ Reg.shortLists) (hspent : k ≠ Reg.creditsSpent)
    (hrank : k ≠ Reg.badRank) :
    let g := (s.stageView tok).stage2 tok lslot r.cluster x.1
    (s.scoreToken tok lslot nr nc hid res r x).reg k =
      ((((s.count Reg.stage1Clamp x.2).count Reg.nanScores g.nan).count Reg.scoredTokens 1).count64
        Reg.choicesEmitted g.list.length).reg k := by
  intro g
  unfold State.scoreToken
  dsimp only
  rw [State.dispatch_reg _ _ _ _ _ _ _ _ _ _ _ hspent hrank, State.reg_count64, State.reg_count64,
    State.countStage2_reg _ _ _ hshort, State.countStage2_reg _ _ _ (by decide)]
  rfl

theorem State.scoreToken_counts :
    let g := (s.stageView tok).stage2 tok lslot r.cluster x.1
    let t := s.scoreToken tok lslot nr nc hid res r x
    t.reg Reg.scoredTokens = (s.reg Reg.scoredTokens + 1) % 2 ^ 32 ∧
      t.reg Reg.nanScores = (s.reg Reg.nanScores + g.nan) % 2 ^ 32 ∧
      t.reg Reg.choicesEmitted = (s.reg Reg.choicesEmitted + g.list.length) % 2 ^ 64 ∧
      t.reg Reg.inactiveSlot = s.reg Reg.inactiveSlot := by
  intro g t
  refine ⟨?_, ?_, ?_, ?_⟩ <;>
    rw [s.scoreToken_reg tok lslot nr nc hid res r x (by decide) (by decide) (by decide)] <;>
    simp +decide [State.reg_count64, State.reg_count, g]

theorem State.scoreToken_manifest {d : Nat} (hd : s.rankDev nr = some d) :
    let g := (s.stageView tok).stage2 tok lslot r.cluster x.1
    ∃ (y : Packet) (q : BeatPacket),
      (s.scoreToken tok lslot nr nc hid res r x).fabric.inject[s.fabric.inject.length]? = some y ∧ y.body = .beat q ∧
      q.hdr.kind = 3 ∧ q.hdr.dstRank = nr ∧ q.entries.map (fun e => e.expert) = g.list.map (fun e => e.1) ∧
      q.vec = res := by
  intro g
  have scored : (State.countStage2 (s.leaveStage tok) x.2 g).rankDev nr = some d :=
    (State.countStage2_rankDev _ x.2 g nr).trans hd
  have sent := State.dispatch_manifest scored tok r.beat lslot r.cluster nc r.flags hid res g.list
  have left : (s.leaveStage tok).fabric = s.fabric := rfl
  rw [State.countStage2_fabric, left] at sent
  rwa [show s.scoreToken tok lslot nr nc hid res r x =
    ((s.leaveStage tok).countStage2 x.2 g).dispatch tok r.beat lslot r.cluster nr nc r.flags hid res g.list from rfl]

end Scored

/-! ### A striped group's owning Yard (R72) -/

theorem exec_stripedGroupRequest_replies {s : State} {lslot g : Nat} {tok : TokenId} {hid : List BF16} {q : Residual}
    {x : List (Option Dy) × Nat} (held : s.residualOf tok = some q) (active : ((s.stageView tok).layerSlot lslot).experts ≠ 0)
    (striped : ((s.stageView tok).layerSlot lslot).striped = true) (inside : g < ((s.stageView tok).layerSlot lslot).groups)
    (fresh : s.stale tok.tag tok.gen = false) (open' : s.replyFor tok q.cluster lslot g = none)
    (whole : (s.stageView tok).scorerInput ((s.stageView tok).layerSlot lslot) tok lslot q.cluster hid = some x) :
    let l := (s.stageView tok).layerSlot lslot
    let r : GroupReply := ⟨tok, q.cluster, lslot, g, q.beat,
      keepExperts (min l.topK l.perGroup) ((s.stageView tok).groupScores l lslot (g % 16) g x.1)⟩
    ∃ t, exec (.stripedGroupRequest lslot g tok hid) s = .next t ∧ t.yards.replies = s.yards.replies ++ [r] := by
  have asks : ¬ (((s.stageView tok).layerSlot lslot).experts = 0 ∨ !((s.stageView tok).layerSlot lslot).striped ∨
      ((s.stageView tok).layerSlot lslot).groups ≤ g ∨ s.stale tok.tag tok.gen ∨
        (s.replyFor tok q.cluster lslot g).isSome) := by
    simp [active, striped, Nat.not_le.mpr inside, fresh, open']
  simp only [exec_stripedGroupRequest, execStripedGroupRequest, held, if_neg asks, whole]
  exact ⟨_, rfl, rfl⟩

/-! ### KV blocks (R78, R129) -/

/-- What storing a KV entry changes: the tiers, and the model's count of free values. -/
def TiersOnly (s t : State) : Prop := t = { s with free := t.free, tiers := t.tiers }

theorem TiersOnly.refl (s : State) : TiersOnly s s := rfl

theorem TiersOnly.trans {s t u : State} (h : TiersOnly s t) (g : TiersOnly t u) : TiersOnly s u := by
  unfold TiersOnly at *
  rw [g, h]

theorem State.takeKvFrame_only {s t : State} {u : KvUser} (h : s.takeKvFrame u = some t) : TiersOnly s t := by
  unfold State.takeKvFrame at h
  split at h
  next => cases h
  next =>
    obtain ⟨r, hr, rfl⟩ := Option.map_eq_some_iff.mp h
    obtain ⟨e, -, rfl⟩ := Option.map_eq_some_iff.mp hr
    rfl

theorem State.freshFrame_only {s : State} {u : KvUser} {r : Nat × Nat × KvUser × State} (h : s.freshFrame u = some r) :
    TiersOnly s r.2.2.2 := by
  obtain ⟨t, ht, rfl⟩ := Option.map_eq_some_iff.mp h
  exact State.takeKvFrame_only ht

theorem State.kvPlace_only {s : State} {u : KvUser} {p : Option (Nat × Nat)} {r : Nat × Nat × KvUser × State}
    (h : s.kvPlace u p = some r) : TiersOnly s r.2.2.2 := by
  unfold State.kvPlace at h
  split at h
  next =>
    split at h
    next => cases h; exact .refl s
    next => exact State.freshFrame_only h
  next => exact State.freshFrame_only h

theorem State.kvBlockFor_only {s : State} {u : KvUser} {lslot n : Nat} {r : KvSpan × KvUser × State}
    (h : s.kvBlockFor u lslot n = some r) : TiersOnly s r.2.2 := by
  dsimp only [State.kvBlockFor] at h
  split at h
  next =>
    split at h
    next => cases h; exact .refl s
    next =>
      obtain ⟨x, hx, rfl⟩ := Option.map_eq_some_iff.mp h
      exact State.kvPlace_only hx
  next =>
    obtain ⟨x, hx, rfl⟩ := Option.map_eq_some_iff.mp h
    exact State.kvPlace_only hx

theorem State.kvSumFor_only {s : State} {u : KvUser} {b : KvSpan} {n : Nat} {r : KvSpan × KvUser × State}
    (h : s.kvSumFor u b n = some r) : TiersOnly s r.2.2 := by
  unfold State.kvSumFor at h
  split at h
  next => cases h; exact .refl s
  next =>
    obtain ⟨x, hx, rfl⟩ := Option.map_eq_some_iff.mp h
    exact State.kvPlace_only hx

theorem State.homeWrite_only (s : State) (a off : Nat) (bs : List Byte) : TiersOnly s (s.homeWrite a off bs) := by
  unfold State.homeWrite
  split <;> rfl

theorem State.storeKv_only {s t : State} {u : KvUser} {lslot : Nat} {entry summary : List Byte}
    (h : s.storeKv u lslot entry summary = some t) : TiersOnly s t := by
  dsimp only [State.storeKv] at h
  split at h
  next => cases h
  next hb =>
    split at h
    next => cases h
    next hx =>
      cases h
      have placed := (State.kvBlockFor_only hb).trans (State.kvSumFor_only hx)
      exact ((placed.trans (State.homeWrite_only _ _ _ _)).trans (State.homeWrite_only _ _ _ _)).trans rfl

theorem kvKept_all {l : LayerSlot} {scores : List FP32} (h : scores.length ≤ l.kvTopk) (current : Nat) :
    kvKept l current scores = List.range scores.length := by
  simp [kvKept, h]

theorem Core.ctr_setCtr_same (k : Core) (i n v : Nat) : (k.setCtr i n v).ctr i n = v % 2 ^ 32 :=
  mapGetD_mapSet_same 0 (k.ctrKey i n) _ k.ctrs

/-- What a selection leaves of the core's counter, the Yard's kept blocks and the count of selections (R73, R78). -/
theorem State.selectKv_keeps (s : State) (c ctr lslot : Nat) (tok : TokenId) (scores : List FP32) :
    let kept := kvKept (s.layerSlot lslot) (scores.length - 1) scores
    let t := s.selectKv c ctr lslot tok scores
    (t.core c).ctr ctr (s.syncBeat c) = kept.length % 2 ^ 32 ∧ (tok, lslot, kept) ∈ t.yards.kept ∧
      t.reg Reg.kvSelections = (s.reg Reg.kvSelections + 1) % 2 ^ 32 := by
  intro kept t
  refine ⟨?_, ?_, ?_⟩
  · have hc : t.core c = (s.core c).setCtr ctr (s.syncBeat c) kept.length :=
      (s.core_updCore c c (fun k => k.setCtr ctr (s.syncBeat c) kept.length)).trans (if_pos rfl)
    rw [hc, Core.ctr_setCtr_same]
  · exact List.mem_append_right _ (List.mem_singleton_self _)
  · exact (State.reg_count_same _ _ _).trans (by rw [State.reg_count_other _ _ (by decide)]; rfl)

theorem exec_kvBlockSelection_selects {s w : State} {c ctr lslot : Nat} {tok : TokenId} {e m : List Byte}
    {scores : List FP32} {r : Residual} {u : KvUser} (held : s.residualOf tok = some r)
    (user : s.kvUser s.tenantNow tok.tag tok.lane = some u)
    (active : (s.layerSlot lslot).experts ≠ 0) (selects : (s.layerSlot lslot).kvSel = true) (on : s.coreOn c = true)
    (home : c / 8 = r.cluster) (sound : s.sumsBad u lslot = false) (stored : s.storeKv u lslot e m = some w)
    (blocks : scores ≠ [])
    (each : ((w.kvUser s.tenantNow tok.tag tok.lane).map (fun u => (u.blocksOf lslot).length)).getD 0 = scores.length) :
    exec (.kvBlockSelection c ctr lslot tok e m scores) s = .next (w.selectKv c ctr lslot tok scores) := by
  simp [execKvBlockSelection, held, user, active, selects, on, home, sound, stored, each, blocks]

theorem exec_gateCopyDone_frees {s : State} (copying : s.yards.copying = true) (done : s.readsFormer = false) :
    exec .gateCopyDone s = .next (({ s with yards := { s.yards with copying := false } }).setReg Reg.gateCopyBusy 0) := by
  simp [execGateCopyDone, copying, done]

/-- Settles O20: the credit checks choice by choice, stage 2 by its dispatch, and the Yard's other commands. -/
theorem yardSpendsCreditsOnce : Obligations.YardSpendsCreditsOnce := by
  refine ⟨fun s lslot l => ⟨s.creditChecks_weights lslot 0 l, ?_, fun e => s.creditChecks_spend lslot 0 e l,
      s.creditChecks_unavail lslot 0 l, fun k hk => s.creditChecks_others lslot 0 l hk⟩,
    fun s => ⟨fun tok lslot nr nc hid res => ⟨fun absent => ?_, fun r held => ⟨fun stale =>
        ⟨_, exec_stage2Result_stale held stale lslot nr nc hid res, rfl, rfl, rfl, s.leaveStage_residualOf tok⟩,
      fun d fresh inactive hd => exec_stage2Result_inactive nc hid res held fresh inactive hd,
      fun x fresh active whole => ?_⟩⟩,
      fun lslot g tok hid q x held active striped inside fresh open' whole =>
        exec_stripedGroupRequest_replies held active striped inside fresh open' whole,
      fun c ctr lslot tok e m scores r u w held user active selects on home sound stored blocks each =>
        ⟨_, exec_kvBlockSelection_selects held user active selects on home sound stored blocks each, ?_⟩,
      fun copying done => ⟨_, exec_gateCopyDone_frees copying done, rfl, State.reg_setReg_same _ _ _⟩⟩⟩
  · rw [s.creditChecks_places lslot 0 l, List.range_eq_range']
  · rw [exec_stage2Result, execStage2Result, absent]
  · obtain ⟨hscored, hnan, hemitted, hinactive⟩ := s.scoreToken_counts tok lslot nr nc hid res r x
    exact ⟨_, exec_stage2Result_scores nr nc res held fresh active whole,
      s.scoreToken_residualOf tok lslot nr nc hid res r x, hscored, hnan, hemitted, hinactive,
      fun d hd => s.scoreToken_manifest tok lslot nr nc hid res r x hd⟩
  · have only := State.storeKv_only stored
    obtain ⟨hctr, hkept, hcount⟩ := w.selectKv_keeps c ctr lslot tok scores
    have hl : w.layerSlot lslot = s.layerSlot lslot := by rw [only]; rfl
    have hb : w.syncBeat c = s.syncBeat c := by rw [only]; rfl
    have hr : w.reg = s.reg := by rw [only]; rfl
    rw [hl] at hctr hkept
    exact ⟨hb ▸ hctr, hkept, fun few => kvKept_all few _, by rw [hcount, hr]⟩

end Sys2Proof.Machine
end

section
/-! SUPPORT and O22. The intake of a Consist (R98 to R100): what a choice that is accepted or refused changes, and a Consist
of one choice that has landed. -/

namespace Sys2Proof.Machine

open Sys2Proof

/-! ### One choice -/

/-- With its chain standing, a choice is accepted or refused by one of four causes (R99). -/
theorem State.intakeCause_mem (s : State) (p : BeatPacket) (e : ChoiceEntry) : s.intakeCause p 0 e ∈ [0, 3, 4, 5, 6] := by
  unfold State.intakeCause
  simp only [bne_self_eq_false, Bool.and_false, Bool.false_eq_true, if_false]
  repeat' split
  all_goals decide

/-- From INTAKE_CLOSE on every choice is late (R100). -/
theorem State.intakeCause_closed {s : State} (closed : s.beat.intakeClosed = true) (p : BeatPacket) (chain : Nat)
    (e : ChoiceEntry) : s.intakeCause p chain e = 6 := by
  simp [State.intakeCause, closed]

/-- An accepted choice joins its Platform's queue and is counted; nothing is sent (R98). -/
theorem State.acceptChoice_joins (s : State) (p : BeatPacket) (e : ChoiceEntry) (bad : Bool) :
    ∃ q, (s.acceptChoice p e bad).queueOf e.pslot = s.queueOf e.pslot ++ [q] ∧ q.tok = idOf p.hdr ∧ q.entry = e ∧
      q.vec = p.vec ∧ (s.acceptChoice p e bad).fabric = s.fabric ∧
      (s.acceptChoice p e bad).reg Reg.choicesReceived = (s.reg Reg.choicesReceived + 1) % 2 ^ 64 ∧
      (s.acceptChoice p e bad).reg Reg.choicesAccepted = (s.reg Reg.choicesAccepted + 1) % 2 ^ 64 := by
  unfold State.acceptChoice
  extract_lets rk pred q pf u v
  obtain ⟨hplatforms, hfabric, hregs⟩ : v.platforms = u.platforms ∧ v.fabric = u.fabric ∧ v.regs = u.regs := by
    by_cases h : pred = true
    · simp [v, h]
    · simpa [v, h] using u.choiceCounters_keeps q
  have hv : ∀ k, v.reg k = s.reg k := State.reg_of_regs hregs
  have hq : (v.queueOf e.pslot) = s.queueOf e.pslot ++ [q] :=
    (State.queueOf_of_platforms hplatforms e.pslot).trans (mapGetD_mapSet_same _ _ _ _)
  refine ⟨q, hq, rfl, rfl, rfl, hfabric, ?_, ?_⟩
  · rw [State.reg_count64_other _ _ (by decide), State.reg_count64_same, hv]
  · rw [State.reg_count64_same, State.reg_count64_other _ _ (by decide), hv]

/-- A refused choice returns its credit and sends a refusal that names its token to NEXT_RANK (R89, R98). -/
theorem State.refuse_sends {s : State} {p : BeatPacket} {d c : Nat} (hd : s.rankDev p.hdr.nextRank = some d)
    (hc : c ∈ [0, 3, 4, 5, 6]) (e : ChoiceEntry) :
    ∃ x q, (s.refuse p e c).fabric.inject = s.fabric.inject ++ [x] ∧ x.body = .beat q ∧ q.hdr.kind = 4 ∧
      q.hdr.batchTag = p.hdr.batchTag ∧ q.hdr.lane = p.hdr.lane ∧ (s.refuse p e c).platforms = s.platforms ∧
      (s.refuse p e c).reg Reg.choicesReceived = (s.reg Reg.choicesReceived + 1) % 2 ^ 64 ∧
      (s.refuse p e c).reg Reg.creditsReturned = (s.reg Reg.creditsReturned + 1) % 2 ^ 64 := by
  obtain ⟨hreceived, hreturned, hranks⟩ : Reg.choicesReceived ≠ Reg.refuseCause (7 + c) ∧
      Reg.creditsReturned ≠ Reg.refuseCause (7 + c) ∧ Reg.rankCount ≠ Reg.refuseCause (7 + c) :=
    (by decide : ∀ c ∈ [0, 3, 4, 5, 6], Reg.choicesReceived ≠ Reg.refuseCause (7 + c) ∧
      Reg.creditsReturned ≠ Reg.refuseCause (7 + c) ∧ Reg.rankCount ≠ Reg.refuseCause (7 + c)) c hc
  unfold State.refuse
  extract_lets u h
  have hu : u.rankDev p.hdr.nextRank = some d := by
    rw [State.rankDev_count _ hranks, State.rankDev_count64 _ (by decide), State.rankDev_count64 _ (by decide), hd]
  rw [State.sendRank_eq_inject hu]
  refine ⟨_, _, rfl, rfl, rfl, rfl, rfl, rfl, ?_, ?_⟩
  · rw [State.reg_inject, State.reg_count_other _ _ hreceived, State.reg_count64_other _ _ (by decide),
      State.reg_count64_same]
  · rw [State.reg_inject, State.reg_count_other _ _ hreturned, State.reg_count64_same,
      State.reg_count64_other _ _ (by decide)]

/-! ### A Consist that has landed -/

/-- A packet that has landed requests no further chain. -/
theorem State.requestChains_of_landed {s : State} {p : BeatPacket} (h : s.landed p) : s.requestChains p = s := by
  obtain ⟨hk, -⟩ := h
  have hnone : (s.landingClusters p).filter (fun k => !s.requested k p) = [] := by
    simpa [List.filter_eq_nil_iff] using fun k h => (hk k h).1
  simp [State.requestChains, hnone]

/-- A Consist that has landed in one of its clusters, and whose choices all have one, has its choices decided there; its
delivery changes the fabric alone, and nothing that waits to be sent. -/
theorem exec_consistArrival_lands {s : State} {k : Nat} {p : BeatPacket} (kind : p.hdr.kind = 1) (mem : k ∈ s.receivers p)
    (fresh : s.stale p.hdr.batchTag p.hdr.gen = false) (landed : s.landed p) (housed : s.homeless p = []) :
    ∃ f, f.inject = s.fabric.inject ∧ exec (.consistArrival k p) s = .next ({ s with fabric := f }.consistLands k p) := by
  have decided : ∀ f n, serveUntil p n k ({ s with fabric := f }.requestChains p) = { s with fabric := f } := fun f n => by
    rw [State.requestChains_of_landed (s := { s with fabric := f }) landed]
    have waits := landed.1 k (by simpa [State.landingClusters, kind] using mem)
    exact serveUntil_none (s := { s with fabric := f }) waits.2 n
  have whole : ∀ f, { s with fabric := f }.landingFailed k p = false := fun f => State.landingFailed_of_landed landed k
  obtain ⟨f, hf, hi⟩ : ∃ f,
      (if s.receivers p == [] || (s.receivers p).head? == some k then s.takeLanding (.beat p) else s) =
        { s with fabric := f } ∧ f.inject = s.fabric.inject := by
    split
    · exact s.takeLanding_inject _
    · exact ⟨s.fabric, rfl, rfl⟩
  have still : { s with fabric := f }.homeless p = [] := housed
  refine ⟨f, hi, ?_⟩
  rw [exec_consistArrival, execConsistArrival, if_neg (not_not.mpr kind)]
  simp only [hf, List.contains_iff_mem.mpr mem, decided, whole, fresh, still, List.foldl_nil, ite_self,
    Bool.not_true, Bool.false_eq_true, if_false]

/-- The cluster of the one choice's Platform receives the Consist (R97). -/
theorem State.receivers_of_one {s : State} {p : BeatPacket} {e : ChoiceEntry} {k : Nat} (one : p.entries = [e])
    (home : s.platCluster e.pslot = some k) (hk : k < 16) : k ∈ s.receivers p := by
  simp [State.receivers, one, home, hk]

theorem State.homeless_of_one {s : State} {p : BeatPacket} {e : ChoiceEntry} {k : Nat} (one : p.entries = [e])
    (home : s.platCluster e.pslot = some k) : s.homeless p = [] := by
  simp [State.homeless, one, home, inChoiceOrder, sortBy]

/-- A Consist of one choice has it decided, and then its chain released where no choice holds it. -/
theorem State.consistLands_of_one {s : State} {p : BeatPacket} {e : ChoiceEntry} {k : Nat} (one : p.entries = [e])
    (home : s.platCluster e.pslot = some k) :
    ∃ bad, s.consistLands k p = (s.decideChoice p 0 bad e).releaseConsist k p :=
  ⟨s.pools.chains.any (fun c => c.cluster == k && c.pkt == p && c.bad), by
    simp [State.consistLands, one, home, inChoiceOrder, sortBy, insertBy]⟩

/-- Settles O22: the one choice is decided by its cause, and its chain's release changes no Platform and sends nothing. -/
theorem intakeDecidesAChoice : Obligations.IntakeDecidesAChoice := by
  intro s k p e kind one home hk fresh landed
  obtain ⟨f, hf, run⟩ := exec_consistArrival_lands kind (State.receivers_of_one one home hk) fresh landed
    (State.homeless_of_one one home)
  let u : State := { s with fabric := f }
  obtain ⟨bad, hlands⟩ := State.consistLands_of_one (s := u) one home
  let v := u.decideChoice p 0 bad e
  rw [hlands] at run
  have hrest := v.releaseConsist_besidesPools k p
  simp only [State.besidesPools, Prod.mk.injEq] at hrest
  obtain ⟨hfabric, hplatforms⟩ := hrest
  refine ⟨fun accepted => ?_, fun refused d hd => ?_, fun closed => State.intakeCause_closed closed p 0 e⟩
  · have hv : v = u.acceptChoice p e bad := if_pos accepted
    obtain ⟨q, hq, htok, hentry, hvec, hsame, hreceived, haccepted⟩ := u.acceptChoice_joins p e bad
    rw [← hv] at hq hsame hreceived haccepted
    refine ⟨_, q, run, ?_, htok, hentry, hvec, ?_, ?_, ?_⟩
    · exact (State.queueOf_of_platforms hplatforms _).trans hq
    · exact (v.releaseConsist_reg k p (by decide)).trans hreceived
    · exact (v.releaseConsist_reg k p (by decide)).trans haccepted
    · rw [hfabric, hsame, ← hf]
  · have hv : v = u.refuse p e (s.intakeCause p 0 e) := if_neg refused
    obtain ⟨x, q, hinject, hbody, hkind, htag, hlane, hsame, hreceived, hreturned⟩ :=
      State.refuse_sends (s := u) hd (s.intakeCause_mem p e) e
    rw [← hv] at hinject hsame hreceived hreturned
    refine ⟨_, x, run, hplatforms.trans hsame, ?_, ?_, ?_, q, hbody, hkind, htag, hlane⟩
    · exact (v.releaseConsist_reg k p (by decide)).trans hreceived
    · exact (v.releaseConsist_reg k p (by decide)).trans hreturned
    · rw [hfabric, hinject, ← hf]

end Sys2Proof.Machine
end

section
/-! SUPPORT and O24. The Siding (R108), the ledger (R110), and what an answer or a refusal meets at its combine device (R103,
R111). -/

namespace Sys2Proof.Machine

open Sys2Proof

/-! ### The Siding -/

@[simp] theorem State.freeChain_combine (s : State) (c : Chain) : (s.freeChain c).combine = s.combine := rfl

@[simp] theorem State.siding_combine (s : State) (p : BeatPacket) : (s.siding p).combine = s.combine :=
  foldl_keeps State.combine State.freeChain_combine (s.chainsOf p) s

/-- The numbers that the Siding changes (R108). -/
def sidingKeys : List Nat := [Reg.cellsReleased, Reg.sidingPackets, Reg.sidingCells]

theorem State.siding_reg (s : State) (p : BeatPacket) {k : Nat} (hk : k ∉ sidingKeys) : (s.siding p).reg k = s.reg k := by
  simp only [sidingKeys, List.mem_cons, List.not_mem_nil, or_false, not_or] at hk
  obtain ⟨hreleased, hpackets, hcells⟩ := hk
  exact (State.reg_count_other _ _ hcells).trans ((State.reg_count_other _ _ hpackets).trans
    (s.freeChains_reg _ hreleased))

theorem State.siding_counts (s : State) (p : BeatPacket) :
    (s.siding p).reg Reg.sidingPackets = (s.reg Reg.sidingPackets + 1) % 2 ^ 32 := by
  have hfree : (s.freeChains p).reg Reg.sidingPackets = s.reg Reg.sidingPackets := s.freeChains_reg _ (by decide)
  rw [← hfree]
  exact (State.reg_count_other _ _ (by decide)).trans (State.reg_count_same _ _ _)

/-! ### The ledger -/

/-- The outcomes that a choice can settle as (R110, R111). -/
def outcomes : List Nat :=
  [Reg.combined, Reg.droppedCapacity, Reg.refusedPool, Reg.lateDiscarded, Reg.cancelledDiscarded, Reg.lostFault]

@[simp] theorem State.settle_combine (s : State) (o : Nat) : (s.settle o).combine = s.combine := rfl

/-- A settled choice is dispatched, has its one outcome, and is open no longer (R110). -/
theorem State.settle_reg (s : State) {o : Nat} (ho : o ∈ outcomes) :
    (s.settle o).reg Reg.dispatched = (s.reg Reg.dispatched + 1) % 2 ^ 64 ∧
      (s.settle o).reg o = (s.reg o + 1) % 2 ^ 64 ∧ (s.settle o).reg Reg.openChoices = s.reg Reg.openChoices - 1 ∧
      ∀ k, k ≠ Reg.dispatched → k ≠ o → k ≠ Reg.openChoices → (s.settle o).reg k = s.reg k := by
  obtain ⟨hdispatched, hopen⟩ : o ≠ Reg.dispatched ∧ o ≠ Reg.openChoices :=
    (by decide : ∀ o ∈ outcomes, o ≠ Reg.dispatched ∧ o ≠ Reg.openChoices) o ho
  unfold State.settle
  refine ⟨?_, ?_, ?_, fun k hd hk hn => ?_⟩
  · rw [State.reg_setReg_other _ _ (by decide), State.reg_count64_other _ _ hdispatched.symm, State.reg_count64_same]
  · rw [State.reg_setReg_other _ _ hopen, State.reg_count64_same, State.reg_count64_other _ _ hdispatched]
  · rw [State.reg_setReg_same, State.reg_count64_other _ _ hopen.symm, State.reg_count64_other _ _ (by decide)]
  · rw [State.reg_setReg_other _ _ hn, State.reg_count64_other _ _ hk, State.reg_count64_other _ _ hd]

theorem outcomeOfCause_mem (c : Nat) : outcomeOfCause c ∈ outcomes := by
  unfold outcomeOfCause
  split <;> decide

/-! ### What a return meets -/

/-- An answer or a refusal as its packet brings it. -/
def returnOf (p : BeatPacket) (answer : Bool) : Return :=
  ⟨idOf p.hdr, p.hdr.beat, returnChoice p, answer, if answer then 0 else refusalCause p, some p⟩

/-- The choice that an answer or a refusal answers. -/
def pendingOf (p : BeatPacket) : PendingChoice := ⟨idOf p.hdr, returnChoice p, p.hdr.beat⟩

/-- The outcome of a return that comes after its combine (R111). -/
def lateOutcome (p : BeatPacket) (answer : Bool) : Nat :=
  if answer then Reg.lateDiscarded else outcomeOfCause (refusalCause p)

theorem lateOutcome_mem (p : BeatPacket) (answer : Bool) : lateOutcome p answer ∈ outcomes := by
  cases answer
  · exact outcomeOfCause_mem _
  · exact (by decide : Reg.lateDiscarded ∈ outcomes)

/-- An answer or a refusal that has landed meets its token; its delivery changes the fabric alone. -/
theorem State.returnLands_of_landed {s : State} {p : BeatPacket} (landed : s.landed p) (answer : Bool) :
    ∃ f, s.returnLands p answer = { s with fabric := f }.returnArrives (returnOf p answer) := by
  obtain ⟨f, hf⟩ := s.takeLanding_fabric (.beat p)
  have hd : { s with fabric := f }.decideChains p = { s with fabric := f } := State.decideChains_of_landed landed
  have hg : { s with fabric := f }.landingFailed 16 p = false := State.landingFailed_of_landed landed _
  refine ⟨f, ?_⟩
  simp only [State.returnLands, hf, hd, hg, Bool.false_eq_true, if_false]
  rfl

theorem exec_return_lands {s : State} {p : BeatPacket} {answer : Bool} (kind : p.hdr.kind = if answer then 2 else 4)
    (landed : s.landed p) :
    ∃ f, exec (if answer then .answerArrival p else .refusalArrival p) s =
      .next ({ s with fabric := f }.returnArrives (returnOf p answer)) := by
  obtain ⟨f, hf⟩ := State.returnLands_of_landed landed answer
  refine ⟨f, ?_⟩
  rw [← hf]
  cases answer
  · exact congrArg Host.Outcome.next (if_pos kind)
  · exact congrArg Host.Outcome.next (if_pos kind)

/-- The returns of packets, case by case (R103, R111). -/
theorem State.returnArrives_eq (s : State) (p : BeatPacket) (answer : Bool) :
    s.returnArrives (returnOf p answer) =
      if pendingOf p ∈ s.combine.pending then
        ({ s with combine := { s.combine with pending := s.combine.pending.erase (pendingOf p) } }.settle
          (lateOutcome p answer)).siding p
      else if s.combine.manifests.any (heldFor (idOf p.hdr) p.hdr.beat) then
        if s.holdsReturn (returnOf p answer) then s.siding p else s.holdReturn (returnOf p answer)
      else if s.knows (idOf p.hdr) p.hdr.beat then s.siding p
      else if s.pastAttn p.hdr.beat then (s.siding p).count Reg.orphans 1
      else if s.holdsReturn (returnOf p answer) then s.siding p else s.holdReturn (returnOf p answer) := by
  unfold State.returnArrives
  simp only [List.contains_iff_mem]
  cases answer
  · rfl
  · rfl

/-- A return that is held joins the answers or the refusals, and nothing else changes. -/
theorem State.holdReturn_eq (s : State) (p : BeatPacket) (answer : Bool) : ∃ h : Held, h.pkt = p ∧
    s.holdReturn (returnOf p answer) = { s with combine :=
      if answer then { s.combine with answers := s.combine.answers ++ [h] }
      else { s.combine with refusals := s.combine.refusals ++ [h] } } := by
  cases answer
  · exact ⟨_, rfl, rfl⟩
  · exact ⟨_, rfl, rfl⟩

/-- Settles O24: a return by what it meets, and a settled choice by the numbers of the ledger. -/
theorem returnsSettleOnce : Obligations.ReturnsSettleOnce := by
  refine ⟨fun s p answer kind landed => ?_, fun s o ho => s.settle_reg ho⟩
  obtain ⟨f, run⟩ := exec_return_lands kind landed
  let u : State := { s with fabric := f }
  rw [State.returnArrives_eq] at run
  refine ⟨fun pending => ?_, fun settled claimed first => ?_, fun settled unclaimed unknown past => ?_⟩
  · rw [if_pos (show pendingOf p ∈ u.combine.pending from pending)] at run
    let v : State := { u with combine := { u.combine with pending := u.combine.pending.erase (pendingOf p) } }
    have ho := lateOutcome_mem p answer
    obtain ⟨hdispatched, hout, hopen, -⟩ := v.settle_reg ho
    refine ⟨_, run, congrArg Combine.pending (State.siding_combine _ p), ?_, ?_, ?_⟩
    · exact (State.siding_reg _ p ((by decide : ∀ o ∈ outcomes, o ∉ sidingKeys) _ ho)).trans hout
    · exact (State.siding_reg _ p (by decide)).trans hdispatched
    · exact (State.siding_reg _ p (by decide)).trans hopen
  · obtain ⟨h, hpkt, hheld⟩ := u.holdReturn_eq p answer
    have single : ¬ u.holdsReturn (returnOf p answer) = true := Bool.eq_false_iff.mp first
    rw [if_neg (show pendingOf p ∉ u.combine.pending from settled), if_pos claimed, if_neg single, hheld] at run
    exact ⟨_, h, run, hpkt, fun ha => if_pos ha, fun ha => if_neg (Bool.eq_false_iff.mp ha), rfl, rfl⟩
  · have new : ¬ u.knows (idOf p.hdr) p.hdr.beat = true := Bool.eq_false_iff.mp unknown
    rw [if_neg (show pendingOf p ∉ u.combine.pending from settled), if_neg (Bool.eq_false_iff.mp unclaimed), if_neg new,
      if_pos (show u.pastAttn p.hdr.beat = true from past)] at run
    refine ⟨_, run, u.siding_combine p, ?_, ?_⟩
    · rw [State.reg_count_same, State.siding_reg u p (by decide)]
      rfl
    · rw [State.reg_count_other _ _ (by decide), State.siding_counts]
      rfl

end Sys2Proof.Machine
end

section
/-! SUPPORT and O25. Manifests at their combine device (R103, R110), ATTN_END, the expiry of pending choices (R111), and the
cancel list (R106). -/

namespace Sys2Proof.Machine

open Sys2Proof

/-! ### Manifests -/

/-- A generation is stale by the cancel list and the running beat alone. -/
theorem State.stale_of_cancels {s t : State} (hc : t.combine.cancels = s.combine.cancels) (hb : t.beatNow = s.beatNow)
    (tag gen : Nat) : t.stale tag gen = s.stale tag gen := by
  unfold State.stale State.governing
  rw [hc, hb]

/-- A Manifest enters the ledger (R103, R110): its token is known, and its choices are open. -/
def State.enterManifest (s : State) (p : BeatPacket) : State := (s.know p).enterLedger p.entries.length

theorem State.enterManifest_beatNow (s : State) (p : BeatPacket) : (s.enterManifest p).beatNow = s.beatNow :=
  State.reg_count_other _ _ (by decide)

/-- A repeated Manifest goes to the Siding (R103). -/
theorem State.manifestLands_known {s : State} {p : BeatPacket} (known : s.knows (idOf p.hdr) p.hdr.beat = true) :
    s.manifestLands p = s.siding p := if_pos known

/-- A Manifest in time enters the ledger and is held for its combine (R103). -/
theorem State.manifestLands_held {s : State} {p : BeatPacket} (new : s.knows (idOf p.hdr) p.hdr.beat = false)
    (fresh : s.stale p.hdr.batchTag p.hdr.gen = false) (now : s.age p.hdr.beat = 0) :
    ∃ h : Held, h.pkt = p ∧ h.late = false ∧
      s.manifestLands p = { s.enterManifest p with
        combine := { (s.enterManifest p).combine with manifests := s.combine.manifests ++ [h] } } := by
  have hs : ((s.know p).enterLedger p.entries.length).stale p.hdr.batchTag p.hdr.gen = false :=
    (State.stale_of_cancels (s := s) (t := s.enterManifest p) rfl (s.enterManifest_beatNow p) _ _).trans fresh
  have ha : ((s.know p).enterLedger p.entries.length).age p.hdr.beat = 0 := by
    have hb : ((s.know p).enterLedger p.entries.length).reg Reg.beatNumber = s.reg Reg.beatNumber :=
      s.enterManifest_beatNow p
    unfold State.age
    rw [hb]
    exact now
  refine ⟨⟨p, false, (s.enterManifest p).chainBad p⟩, rfl, rfl, ?_⟩
  simp only [State.manifestLands, new, hs, ha, Bool.false_eq_true, if_false, true_or, if_true]
  rfl

/-- A Manifest that has landed and combines nothing is done as it lands; its delivery changes the fabric alone. -/
theorem exec_manifestArrival_lands {s : State} {p : BeatPacket} (kind : p.hdr.kind = 3) (landed : s.landed p)
    (waits : ∀ f, ({ s with fabric := f }.manifestLands p).combine.residuals = s.combine.residuals) :
    ∃ f, exec (.manifestArrival p) s = .next ({ s with fabric := f }.manifestLands p) := by
  obtain ⟨f, hf⟩ := s.takeLanding_fabric (.beat p)
  have hd : { s with fabric := f }.decideChains p = { s with fabric := f } := State.decideChains_of_landed landed
  have hg : { s with fabric := f }.landingFailed 16 p = false := State.landingFailed_of_landed landed _
  refine ⟨f, ?_⟩
  simp only [exec_manifestArrival, execManifestArrival, kind, hf, hd, hg, waits, List.drop_length, List.foldl_nil, ite_self,
    Bool.false_eq_true, if_false, ne_eq, not_true_eq_false]

theorem exec_manifestArrival_holds {s : State} {p : BeatPacket} (kind : p.hdr.kind = 3) (landed : s.landed p)
    (new : s.knows (idOf p.hdr) p.hdr.beat = false) (fresh : s.stale p.hdr.batchTag p.hdr.gen = false)
    (now : s.age p.hdr.beat = 0) : ∃ t h, exec (.manifestArrival p) s = .next t ∧ h.pkt = p ∧ h.late = false ∧
      t.combine.manifests = s.combine.manifests ++ [h] ∧ t.knows (idOf p.hdr) p.hdr.beat = true ∧
      t.reg Reg.openChoices = (s.reg Reg.openChoices + p.entries.length) % 2 ^ 32 := by
  have held : ∀ f, _ := fun f => State.manifestLands_held (s := { s with fabric := f }) new fresh now
  obtain ⟨f, run⟩ := exec_manifestArrival_lands kind landed fun f => by
    obtain ⟨h, -, -, hlands⟩ := held f
    rw [hlands]
    rfl
  obtain ⟨h, hpkt, hlate, hlands⟩ := held f
  rw [hlands] at run
  refine ⟨_, h, run, hpkt, hlate, rfl, ?_, State.reg_count_same _ _ _⟩
  exact List.contains_iff_mem.mpr (List.mem_append_right _ (List.mem_singleton_self _))

theorem exec_manifestArrival_repeated {s : State} {p : BeatPacket} (kind : p.hdr.kind = 3) (landed : s.landed p)
    (known : s.knows (idOf p.hdr) p.hdr.beat = true) :
    ∃ f, exec (.manifestArrival p) s = .next ({ s with fabric := f }.siding p) := by
  have sided : ∀ f, { s with fabric := f }.manifestLands p = { s with fabric := f }.siding p :=
    fun f => State.manifestLands_known known
  obtain ⟨f, run⟩ := exec_manifestArrival_lands kind landed fun f => by rw [sided, State.siding_combine]
  exact ⟨f, run.trans (by rw [sided])⟩

/-! ### ATTN_END -/

/-- Whether a return of a token and beat is swept at ATTN_END: it is late and its Manifest has not come (R103). -/
def State.unclaimed (s : State) (t : TokenId) (b : Nat) : Bool :=
  decide (1 ≤ s.age b) && decide (s.age b < 2 ^ 31) && !s.knows t b

theorem State.unclaimed_eq_false {s : State} {t : TokenId} {b : Nat} :
    s.unclaimed t b = false ↔ s.age b = 0 ∨ 2 ^ 31 ≤ s.age b ∨ s.knows t b = true := by
  cases h : s.knows t b
  · simp only [State.unclaimed, h, Bool.not_false, Bool.and_true, Bool.and_eq_false_iff, decide_eq_false_iff_not,
      Bool.false_eq_true, or_false]
    omega
  · simp [State.unclaimed, h]

/-- A return swept: to the Siding, counted as an orphan (R103). -/
def State.sweepReturn (s : State) (h : Held) : State := (s.siding h.pkt).count Reg.orphans 1

@[simp] theorem State.sweepReturn_combine (s : State) (h : Held) : (s.sweepReturn h).combine = s.combine :=
  s.siding_combine h.pkt

/-- The sweep ends the attention window, keeps the returns that are not swept, and leaves the Manifests. -/
theorem exec_orphanSweep_sweeps {s : State} (running : s.noBeat = false) (isOpen : s.beat.attnEnded = false) :
    ∃ t, exec .orphanSweep s = .next t ∧ t.beat.attnEnded = true ∧ t.combine.manifests = s.combine.manifests ∧
      t.combine.answers = s.combine.answers.filter (fun h => !s.unclaimed (idOf h.pkt.hdr) h.pkt.hdr.beat) ∧
      t.combine.refusals = s.combine.refusals.filter (fun h => !s.unclaimed (idOf h.pkt.hdr) h.pkt.hdr.beat) := by
  let gone := (s.combine.answers ++ s.combine.refusals).filter (fun h => s.unclaimed (idOf h.pkt.hdr) h.pkt.hdr.beat)
  have kept : (gone.foldl State.sweepReturn s).combine = s.combine :=
    foldl_keeps State.combine State.sweepReturn_combine gone s
  rw [exec_orphanSweep, execOrphanSweep, if_neg (by simp [running, isOpen])]
  refine ⟨_, rfl, rfl, ?_, ?_, ?_⟩
  · exact (congrArg Combine.manifests kept :)
  · exact congrArg (fun c : Combine => c.answers.filter (fun h => !s.unclaimed (idOf h.pkt.hdr) h.pkt.hdr.beat)) kept
  · exact congrArg (fun c : Combine => c.refusals.filter (fun h => !s.unclaimed (idOf h.pkt.hdr) h.pkt.hdr.beat)) kept

/-! ### Pending choices -/

/-- A counter that each step of a walk raises by one modulo m is raised by the walk's length. -/
theorem State.foldl_counts_mod {α : Type} {f : State → α → State} {k m : Nat}
    (h : ∀ s a, (f s a).reg k = (s.reg k + 1) % m) {l : List α} (nonempty : l ≠ []) (s : State) :
    (l.foldl f s).reg k = (s.reg k + l.length) % m := by
  induction l generalizing s with
  | nil => exact absurd rfl nonempty
  | cons a l ih =>
    cases l with
    | nil => exact h s a
    | cons b l =>
      rw [List.foldl_cons, ih (by simp), h, Nat.mod_add_mod]
      congr 1
      simp only [List.length_cons]
      omega

/-- Choices that settle as one outcome are counted in it, and as dispatched (R110). -/
theorem State.foldl_settle_reg {α : Type} {l : List α} (nonempty : l ≠ []) (s : State) {o : Nat} (ho : o ∈ outcomes) :
    (l.foldl (fun s _ => s.settle o) s).reg o = (s.reg o + l.length) % 2 ^ 64 ∧
      (l.foldl (fun s _ => s.settle o) s).reg Reg.dispatched = (s.reg Reg.dispatched + l.length) % 2 ^ 64 :=
  ⟨State.foldl_counts_mod (fun s _ => (s.settle_reg ho).2.1) nonempty s,
    State.foldl_counts_mod (fun s _ => (s.settle_reg ho).1) nonempty s⟩

/-- Whether a pending choice's beat lies less than two beats back, or ahead. -/
def State.stillPending (s : State) (c : PendingChoice) : Bool := decide (s.age c.beat < 2 ∨ 2 ^ 31 ≤ s.age c.beat)

/-- The expiry at the coming tick settles the choices that are pending no longer as lost_fault, and keeps the others
(R111). -/
theorem exec_pendingExpiry_expires {s : State} (running : s.noBeat = false) :
    ∃ t, exec .pendingExpiry s = .next t ∧ t.combine.pending = s.combine.pending.filter s.stillPending ∧
      (s.combine.pending.all s.stillPending = false → t.reg Reg.lostFault =
        (s.reg Reg.lostFault + (s.combine.pending.filter (fun c => !s.stillPending c)).length) % 2 ^ 64) := by
  have due : ∀ c : PendingChoice,
      (decide (3 ≤ s.age c.beat + 1) && decide (s.age c.beat < 2 ^ 31)) = !s.stillPending c := fun c => by
    unfold State.stillPending
    simp only [← Bool.decide_and, ← decide_not, decide_eq_decide]
    omega
  let gone := s.combine.pending.filter (fun c => !s.stillPending c)
  let t := gone.foldl (fun s _ => s.settle Reg.lostFault) s
  have kept : t.combine = s.combine := foldl_keeps State.combine (fun s _ => s.settle_combine Reg.lostFault) gone s
  have run : exec .pendingExpiry s = .next { t with combine :=
      { t.combine with pending := t.combine.pending.filter s.stillPending } } := by
    simp only [exec_pendingExpiry, execPendingExpiry, running, State.expirePending, due, Bool.not_not, Bool.false_eq_true,
      if_false]
    rfl
  refine ⟨_, run, by rw [kept], fun some' => (State.foldl_settle_reg (l := gone) ?_ s (by decide)).1⟩
  simpa [gone, List.filter_eq_nil_iff] using some'

/-! ### The cancel list -/

/-- A new notice joins the cancel list; one whose CB has passed is counted (R106). -/
theorem exec_cancelNoticeArrival_joins {s : State} {tag gen cb : Nat}
    (new : (⟨tag, gen, cb⟩ : CancelNotice) ∉ s.combine.cancels) :
    ∃ t, exec (.cancelNoticeArrival tag gen cb) s = .next t ∧
      t.combine.cancels = s.combine.cancels ++ [⟨tag, gen, cb⟩] ∧
      t.reg Reg.cancelActive = (s.combine.cancels.length + 1) % 256 ∧
      t.reg Reg.cancelLate = if cb ≤ s.beatNow ∧ s.noBeat = false then (s.reg Reg.cancelLate + 1) % 2 ^ 32
        else s.reg Reg.cancelLate := by
  obtain ⟨f, hf⟩ := s.takeLanding_fabric (.mgmt (.cancel tag gen cb))
  let u : State :=
    { s with fabric := f, combine := { s.combine with cancels := s.combine.cancels ++ [⟨tag, gen, cb⟩] } }
  let v := if cb ≤ s.beatNow ∧ !s.noBeat then u.count Reg.cancelLate 1 else u
  have run : exec (.cancelNoticeArrival tag gen cb) s =
      .next (v.setReg Reg.cancelActive (v.combine.cancels.length % 256)) := by
    rw [exec_cancelNoticeArrival, execCancelNoticeArrival, hf]
    exact congrArg Host.Outcome.next (if_neg fun h => new (List.contains_iff_mem.mp h))
  have hv : v.combine = u.combine := by
    simp only [v]
    split <;> rfl
  refine ⟨_, run, ?_, ?_, ?_⟩
  · exact congrArg Combine.cancels hv
  · rw [State.reg_setReg_same, hv]
    exact congrArg (· % 256) List.length_append
  · rw [State.reg_setReg_other _ _ (by decide)]
    by_cases late : cb ≤ s.beatNow ∧ s.noBeat = false
    · rw [if_pos late]
      simp only [v, late, Bool.not_false, and_self, if_true, State.reg_count_same]
      rfl
    · rw [if_neg late]
      simp only [v, Bool.not_eq_true', if_neg late]
      rfl

/-- Settles O25: each command's own lemma. -/
theorem combineCommandsComplete : Obligations.CombineCommandsComplete := by
  refine fun s => ⟨fun p kind landed new fresh now => exec_manifestArrival_holds kind landed new fresh now,
    fun p kind landed known => ?_, fun running isOpen => ?_, exec_pendingExpiry_expires,
    fun tag gen cb new => exec_cancelNoticeArrival_joins new, fun tag gen running => ?_⟩
  · obtain ⟨f, run⟩ := exec_manifestArrival_repeated kind landed known
    exact ⟨_, run, State.siding_combine _ p, State.siding_counts _ p, State.siding_reg _ p (by decide)⟩
  · obtain ⟨t, run, hended, hmanifests, hanswers, hrefusals⟩ := exec_orphanSweep_sweeps running isOpen
    refine ⟨t, run, hended, fun h hh => State.unclaimed_eq_false.mp ?_, hmanifests⟩
    rw [hanswers, hrefusals, ← List.filter_append] at hh
    simpa using (List.mem_filter.mp hh).2
  · refine ⟨_, congrArg Host.Outcome.next (if_neg (by simp [running])), fun c => ?_⟩
    simp [State.dropNotices, imp_iff_not_or, or_assoc]

end Sys2Proof.Machine
end

section
/-! SUPPORT. What flits that leave a port, a drained port and a discarded packet change (R217, R234, R242). -/

namespace Sys2Proof.Machine

open Sys2Proof

/-! ### The ports -/

/-- What flits that leave change: the Junction's ports, and the flit counters of the ports, which have sub-index 0x10. -/
structure PortsOnly (s t : State) : Prop where
  rest : t = { s with regs := t.regs, fabric := { s.fabric with ports := t.fabric.ports } }
  reg : ∀ k, keySub k ≠ 0x10 → t.reg k = s.reg k

theorem PortsOnly.refl (s : State) : PortsOnly s s := ⟨rfl, fun _ _ => rfl⟩

theorem PortsOnly.trans {s t u : State} (h : PortsOnly s t) (g : PortsOnly t u) : PortsOnly s u :=
  ⟨by rw [g.rest, h.rest], fun k hk => (g.reg k hk).trans (h.reg k hk)⟩

theorem PortsOnly.foldl {α : Type} {f : State → α → State} (h : ∀ s a, PortsOnly s (f s a)) (l : List α)
    (s : State) : PortsOnly s (l.foldl f s) := by
  induction l generalizing s with
  | nil => exact .refl s
  | cons a l ih => exact (h s a).trans (ih _)

theorem PortsOnly.combines {s t : State} (h : PortsOnly s t) : t.fabric.combines = s.fabric.combines := by rw [h.rest]

theorem State.setPort_only (s : State) (x : Nat) (p : Port) : PortsOnly s (s.setPort x p) := ⟨rfl, fun _ _ => rfl⟩

/-! ### Flits that leave -/

theorem State.freeSlots_only (s : State) (x : Nat) : PortsOnly s (s.freeSlots x) := by
  dsimp only [State.freeSlots]
  split
  · exact .refl s
  · exact s.setPort_only x _

theorem State.freeAllSlots_only (s : State) : PortsOnly s s.freeAllSlots := PortsOnly.foldl State.freeSlots_only _ s

theorem State.putFlit_only (s : State) (x : Nat) (f : SentFlit) : PortsOnly s (s.putFlit x f) :=
  (s.setPort_only x _).trans ⟨rfl, fun _ hk => State.reg_count64_other _ 1 fun h => hk (h ▸ keySub_objKey _ _)⟩

theorem State.sendData_only (s : State) (x : Nat) (e : Nat × Packet) : PortsOnly s (s.sendData x e) := by
  unfold State.sendData
  extract_lets level vc n _ sent u p
  have hu : PortsOnly s u := (s.setPort_only x _).trans (State.putFlit_only _ x _)
  refine (hu.trans ?_).trans (State.freeAllSlots_only _)
  split
  · exact u.setPort_only x _
  · exact u.setPort_only x _

theorem State.sendOne_only (s : State) (x : Nat) : PortsOnly s (s.sendOne x) := by
  unfold State.sendOne
  extract_lets p
  split
  next => exact .refl s
  split
  next => exact s.setPort_only x _
  split
  next => exact s.setPort_only x _
  split
  next => exact (s.setPort_only x _).trans (State.putFlit_only _ x _)
  split
  next => exact s.sendData_only x _
  next => exact s.setPort_only x _

theorem sendSome_only (x n : Nat) (s : State) : PortsOnly s (sendSome x n s) := by
  induction n generalizing s with
  | zero => exact .refl s
  | succ n ih => exact (s.sendOne_only x).trans (ih _)

theorem State.sendSpan_only (s : State) (n x : Nat) : PortsOnly s (s.sendSpan n x) := by
  unfold State.sendSpan
  extract_lets p
  split
  next => exact .refl s
  split
  next =>
    split
    · exact .refl s
    · exact s.setPort_only x _
  next => exact sendSome_only x _ s

/-- While hall time moves on, the ports send. -/
theorem State.advanceTo_sends (s : State) (t : Nat) : ∃ (u : State) (time : Timebase), PortsOnly s u ∧
    s.advanceTo t = { u with time := time } :=
  ⟨_, _, PortsOnly.foldl (fun u x => u.sendSpan_only _ x) _ s, rfl⟩

theorem State.advanceTo_combines (s : State) (t : Nat) : (s.advanceTo t).fabric.combines = s.fabric.combines := by
  obtain ⟨u, time, only, h⟩ := s.advanceTo_sends t
  rw [h]
  exact only.combines

theorem State.advanceTo_reg_of_keySub (s : State) (t : Nat) {k : Nat} (hk : keySub k ≠ 0x10) :
    (s.advanceTo t).reg k = s.reg k := by
  obtain ⟨u, time, only, h⟩ := s.advanceTo_sends t
  rw [h]
  exact only.reg k hk

/-! ### Drains -/

theorem State.unqueue_only (s : State) (x : Nat) (e : Nat × Packet) : PortsOnly s (s.unqueue x e) := by
  dsimp only [State.unqueue]
  split <;> exact s.setPort_only x _

theorem State.drainPort_only (s : State) (x : Nat) : PortsOnly s (s.drainPort x) :=
  (PortsOnly.foldl (fun u e => u.unqueue_only x e) _ s).trans (State.setPort_only _ x _)

theorem State.discardPacket_reg (s : State) (p : Packet) (cause : Nat) {k : Nat} (hk : k ≠ Reg.undeliverable) :
    (s.discardPacket p cause).reg k = s.reg k :=
  (State.reg_inject _ _ k).trans (State.reg_count_other _ _ hk)

/-- Whether a drain runs, and whether it is the device's own. -/
def State.drainStatus (s : State) : Nat × Bool := (s.reg Reg.drainState, s.fabric.drainOwn)

theorem State.report_drainStatus (s : State) (kind mid cause : Nat) :
    (s.report kind mid cause).drainStatus = s.drainStatus := by
  have hown : (s.report kind mid cause).fabric.drainOwn = s.fabric.drainOwn := by
    dsimp only [State.report]
    split <;> rfl
  unfold State.drainStatus
  rw [hown, State.report_reg _ _ _ _ (by decide)]

/-- The audit of a drained port restores credits and reports; the drain goes on as it was. -/
theorem State.auditPort_drainStatus (s : State) (x : Nat) : (s.auditPort x).drainStatus = s.drainStatus := by
  unfold State.auditPort
  refine foldl_keeps State.drainStatus (fun t v => ?_) _ s
  extract_lets p sent
  rw [apply_ite State.drainStatus, State.report_drainStatus]
  exact ite_self _

end Sys2Proof.Machine
end

section
/-! SUPPORT and O31. Multicasts (R237, R239), notices and truncated packets at their source and destination (R112, R234, R257,
R474), and drains (R241, R242). -/

namespace Sys2Proof.Machine

open Sys2Proof

/-! ### Multicasts -/

/-- A number below 2^n has no bit from n on. -/
theorem lt_of_testBit {n m i : Nat} (hm : m < 2 ^ n) (bit : m.testBit i = true) : i < n :=
  (Nat.pow_lt_pow_iff_right (by decide)).mp ((Nat.ge_two_pow_of_testBit bit).trans_lt hm)

theorem mem_maskMembers_lt {n m i : Nat} (hm : m < 2 ^ n) (hi : i ∈ maskMembers 64 m) : i < n :=
  lt_of_testBit hm (List.mem_filter.mp hi).2

theorem maskMembers_ne_nil {n m : Nat} (hm : m < 2 ^ n) (hn : n ≤ 64) (nonzero : m ≠ 0) : maskMembers 64 m ≠ [] := by
  obtain ⟨i, bit⟩ := Nat.exists_testBit_of_ne_zero nonzero
  exact List.ne_nil_of_mem (List.mem_filter.mpr ⟨List.mem_range.mpr ((lt_of_testBit hm bit).trans_le hn), bit⟩)

/-- The members that a mask selects are devices where every rank has a record. -/
theorem State.members_of_valid {s : State} {mask : Nat} {ranks : List Nat} (inside : mask < 2 ^ ranks.length)
    (valid : ∀ r ∈ ranks, (s.rankDev r).isSome = true) :
    ((maskMembers 64 mask).map (fun i => (i, s.rankDev (ranks.getD i 0)))).filterMap
        (fun m => m.2.map (fun d => (m.1, d))) =
      (maskMembers 64 mask).map (fun i => (i, (s.rankDev (ranks.getD i 0)).getD 0)) := by
  rw [List.filterMap_map, ← List.filterMap_eq_map]
  refine List.filterMap_congr fun i hi => ?_
  have hlt : i < ranks.length := mem_maskMembers_lt inside hi
  obtain ⟨d, hd⟩ := Option.isSome_iff_exists.mp (valid (ranks.getD i 0) (by simp [hlt]))
  simp only [Function.comp_apply, hd]
  rfl

/-- A multicast to members that all have a rank record goes out as one packet. -/
theorem State.multicast_sends {s : State} {mask : Nat} {ranks : List Nat} (inside : mask < 2 ^ ranks.length)
    (nonzero : mask ≠ 0) (short : ranks.length ≤ 64) (valid : ∀ r ∈ ranks, (s.rankDev r).isSome = true)
    (cls group func cluster : Nat) (b : Body) :
    let t := s.multicast cls group func mask cluster ranks b
    ∃ x, t.fabric.inject = s.fabric.inject ++ [x] ∧ x.body = b ∧ x.route.mc = true ∧ x.route.cls = cls ∧
      t.reg Reg.mcastSent = (s.reg Reg.mcastSent + 1) % 2 ^ 32 ∧
      x.members = (maskMembers 64 mask).map (fun i => (s.rankDev (ranks.getD i 0)).getD 0) := by
  have some' : (maskMembers 64 mask).map (fun i => (i, (s.rankDev (ranks.getD i 0)).getD 0)) ≠ [] := by
    simpa using maskMembers_ne_nil inside short nonzero
  simp only [State.multicast, Nat.mod_eq_of_lt inside, ne_eq, not_true_eq_false, if_false, if_neg nonzero,
    State.members_of_valid inside valid, if_neg some']
  refine ⟨_, rfl, rfl, rfl, rfl, ?_, ?_⟩
  · rw [State.reg_count_same, State.reg_inject, State.reg_count_other _ _ (by decide)]
  · exact List.map_map

theorem State.mcastRanks_length_le (s : State) (g : Nat) : (s.mcastRanks g).length ≤ 64 := by
  simp [State.mcastRanks]

/-! ### Requests that end -/

/-- Nothing that ends a repeat or an invocation changes the requests of the core. -/
@[simp] theorem Core.setQueue_rmOut (k : Core) (e : Engine) (q : EngQueue) : (k.setQueue e q).rmOut = k.rmOut := by
  cases e <;> rfl

@[simp] theorem Core.bankReleased_rmOut (k : Core) (b : Nat) : (k.bankReleased b).rmOut = k.rmOut := by
  unfold Core.bankReleased Core.setBank
  (repeat' split) <;> rfl

theorem State.refill_rmOut (s : State) (c : Nat) (e : Engine) : ((s.refill c e).core c).rmOut = (s.core c).rmOut := by
  dsimp only [State.refill]
  split
  · rfl
  · simp

theorem State.startInvocation_rmOut (s : State) (c b : Nat) :
    ((s.startInvocation c b).core c).rmOut = (s.core c).rmOut := by
  dsimp only [State.startInvocation]
  split
  · rfl
  · simp

theorem State.endInvocation_rmOut (s : State) (c n : Nat) : ((s.endInvocation c n).core c).rmOut = (s.core c).rmOut := by
  dsimp only [State.endInvocation]
  split
  · rw [State.startInvocation_rmOut]
    simp
  · simp

theorem State.checkEnd_rmOut (s : State) (c : Nat) : ((s.checkEnd c).core c).rmOut = (s.core c).rmOut := by
  dsimp only [State.checkEnd]
  split
  · exact s.endInvocation_rmOut c _
  · rfl

theorem State.repeatDone_rmOut (s : State) (c : Nat) (e : Engine) :
    ((s.repeatDone c e).core c).rmOut = (s.core c).rmOut := by
  unfold State.repeatDone
  extract_lets k
  split
  next => rfl
  next a _ =>
    extract_lets l _ regs k' _
    have hl : l.rmOut = (s.core c).rmOut := by
      simp only [l]
      split <;> rfl
    split
    · simpa using hl
    · rw [State.checkEnd_rmOut, State.refill_rmOut]
      simpa using hl

theorem State.settleRepeat_rmOut (s : State) (c : Nat) (rep : Option Nat) :
    ((s.settleRepeat c rep).core c).rmOut = (s.core c).rmOut := by
  dsimp only [State.settleRepeat]
  split
  · exact s.repeatDone_rmOut c .mv
  · rfl

/-- With no request waiting, none issues. -/
theorem State.pumpRmAll_none {s : State} {c : Nat} (none' : (s.core c).rmWait = []) : s.pumpRmAll c = s := by
  unfold State.pumpRmAll
  rw [none']
  rfl

theorem State.rmError_requests (s : State) (c cause op rank jva : Nat) (e : Option Nat) :
    ((s.rmError c cause op rank jva e).core c).rmOut = (s.core c).rmOut ∧
      ((s.rmError c cause op rank jva e).core c).rmWait = (s.core c).rmWait := by
  cases e with
  | none => exact ⟨rfl, rfl⟩
  | some i => simp [State.rmError, State.core, State.updCore, State.setCore, Core.incCtr, Core.setCtr]

/-- A failed request of a core at which none waits is logged with its cause, and is outstanding no longer (R258). -/
theorem State.failRm_ends {s : State} {c : Nat} (none' : (s.core c).rmWait = []) (r : RmReq) (cause : Nat) :
    ((s.failRm c r cause).core c).rmOut = (s.core c).rmOut.filter (fun x => x.tag != r.tag) ∧
      (s.failRm c r cause).rmem.faults.getLast? = some [cause, r.opc, c, r.rank, r.jva, s.beatNow % 2 ^ 32] := by
  let u := s.rmError c cause r.opc r.rank r.jva r.errCtr
  obtain ⟨hout, hwait⟩ : (u.core c).rmOut = (s.core c).rmOut ∧ (u.core c).rmWait = (s.core c).rmWait :=
    s.rmError_requests c cause r.opc r.rank r.jva r.errCtr
  let v := u.updCore c (fun k => { k with rmOut := k.rmOut.filter (fun x => x.tag != r.tag) })
  have hv : v.core c = { u.core c with rmOut := (u.core c).rmOut.filter (fun x => x.tag != r.tag) } :=
    (u.core_updCore c c _).trans (if_pos rfl)
  have hpump : v.pumpRmAll c = v := State.pumpRmAll_none (by rw [hv, ← none', ← hwait])
  have hend : s.failRm c r cause = (v.settleRepeat c r.rep).checkEnd c :=
    congrArg (fun t : State => (t.settleRepeat c r.rep).checkEnd c) hpump
  have only : SeqOnly c v ((v.settleRepeat c r.rep).checkEnd c) :=
    (v.settleRepeat_only c r.rep).trans (State.checkEnd_only _ c)
  rw [hend]
  constructor
  · rw [State.checkEnd_rmOut, State.settleRepeat_rmOut, hv, ← hout]
  · rw [only.rest]
    exact s.rmError_log c cause r.opc r.rank r.jva r.errCtr

/-! ### Notices at the source -/

/-- A notice that comes back to its source does what the copy of its packet says; its delivery changes the fabric alone. -/
theorem exec_undeliverableNoticeArrival_eq (s : State) (cause : Nat) (copy : List Byte) :
    ∃ f, exec (.undeliverableNoticeArrival cause copy) s = .next ({ s with fabric := f }.undelivered copy) := by
  obtain ⟨f, hf⟩ := s.takeLanding_fabric (.mgmt (.undeliverable cause copy))
  exact ⟨f, by rw [exec_undeliverableNoticeArrival, execUndeliverableNoticeArrival, hf]⟩

/-- A lost Manifest's choices enter the ledger and settle as lost_fault (R112). -/
theorem State.undelivered_manifest {s : State} {copy : List Byte} (own : physDev (RouteHdr.ofBytes copy).src = s.here)
    (cls : (RouteHdr.ofBytes copy).cls ≤ 1) (kind : (BeatHdr.ofBytes (copiedBody copy)).kind = 3) :
    s.undelivered copy = (List.range (headerCount (copiedBody copy))).foldl (fun s _ => s.settle Reg.lostFault)
      (s.enterLedger (headerCount (copiedBody copy))) := by
  simp only [State.undelivered, own, cls, kind, ne_eq, not_true_eq_false, if_false, if_true]

/-- A lost request ends with cause 8 (R257). -/
theorem State.undelivered_request {s : State} {copy : List Byte} {r : RmReq}
    (own : physDev (RouteHdr.ofBytes copy).src = s.here) (cls : (RouteHdr.ofBytes copy).cls = 2)
    (low : 1 ≤ (RmPacket.ofBytes (copiedBody copy)).opc) (high : (RmPacket.ofBytes (copiedBody copy)).opc ≤ 3)
    (alone : (RmPacket.ofBytes (copiedBody copy)).combined = false)
    (found : s.rmReqOf (tagCore (RmPacket.ofBytes (copiedBody copy)).tag) (RmPacket.ofBytes (copiedBody copy)).tag = some r) :
    s.undelivered copy = s.failRm (tagCore (RmPacket.ofBytes (copiedBody copy)).tag) r 8 := by
  simp [State.undelivered, State.rmLost, own, cls, low, high, alone, found]

/-! ### Truncated packets -/

@[simp] theorem State.pool_setPool (s : State) (k j : Nat) (p : Pool) :
    (s.setPool k p).pool j = if j = k then p else s.pool j := mapGetD_mapSet _ _ _ _ _

/-- A freed chain leaves the requests that wait. -/
theorem State.freeChain_waiting (s : State) (c : Chain) (k : Nat) :
    ((s.freeChain c).pool k).waiting = (s.pool k).waiting := by
  have hp : (s.freeChain c).pool k = (s.setPool c.cluster ((s.pool c.cluster).giveBack c)).pool k := rfl
  rw [hp, State.pool_setPool]
  split
  next h =>
    subst h
    rfl
  next => rfl

theorem State.siding_waiting (s : State) (p : BeatPacket) (k : Nat) :
    ((s.siding p).pool k).waiting = (s.pool k).waiting :=
  foldl_keeps (fun t : State => (t.pool k).waiting) (fun t c => t.freeChain_waiting c k) (s.chainsOf p) s

/-- The requests of a packet taken off a cluster's allocator. -/
def State.withdraw (p : BeatPacket) (s : State) (k : Nat) : State :=
  s.setPool k { s.pool k with waiting := (s.pool k).waiting.filter (fun r => r.pkt != p) }

/-- No request of a packet waits at a cluster's allocator. -/
def State.noRequest (p : BeatPacket) (s : State) (k : Nat) : Prop := ∀ r ∈ (s.pool k).waiting, r.pkt ≠ p

theorem State.noRequest_withdraw {p : BeatPacket} {s : State} {j k : Nat} (h : k = j ∨ s.noRequest p k) :
    (State.withdraw p s j).noRequest p k := by
  unfold State.noRequest State.withdraw
  rw [State.pool_setPool]
  split
  next => simp
  next hne => exact h.resolve_left hne

/-- After a walk over some clusters no request of the packet waits there. -/
theorem State.noRequest_foldl_withdraw {p : BeatPacket} {l : List Nat} {s : State} {k : Nat}
    (h : k ∈ l ∨ s.noRequest p k) : (l.foldl (State.withdraw p) s).noRequest p k := by
  induction l generalizing s with
  | nil => exact h.resolve_left List.not_mem_nil
  | cons j l ih =>
    refine ih ?_
    rw [List.mem_cons, or_assoc] at h
    obtain rfl | hl | hs := h
    · exact .inr (State.noRequest_withdraw (.inl rfl))
    · exact .inl hl
    · exact .inr (State.noRequest_withdraw (.inr hs))

/-- The records of a packet's stripes and failed landings go. -/
def State.forgetLanding (p : BeatPacket) (s : State) : State :=
  { s with pools := { s.pools with stripes := s.pools.stripes.filter (fun x => x.pkt != p) } }.clearFailed p

/-- A truncated packet goes to the Siding, and the allocators forget its requests (R474). -/
theorem State.truncated_leaves (s : State) (p : BeatPacket) :
    (s.truncated p).reg Reg.sidingPackets = (s.reg Reg.sidingPackets + 1) % 2 ^ 32 ∧
      (s.truncated p).combine = s.combine ∧ ∀ k, k < 16 → (s.truncated p).noRequest p k := by
  have ht : s.truncated p = (((List.range 16).foldl (State.withdraw p) s).forgetLanding p).siding p := rfl
  have kept : ∀ l : List Nat, (l.foldl (State.withdraw p) s).regs = s.regs ∧
      (l.foldl (State.withdraw p) s).combine = s.combine := fun l =>
    ⟨foldl_keeps State.regs (f := State.withdraw p) (fun _ _ => rfl) l s,
      foldl_keeps State.combine (f := State.withdraw p) (fun _ _ => rfl) l s⟩
  have none' : ∀ k, k < 16 → ((List.range 16).foldl (State.withdraw p) s).noRequest p k := fun k hk =>
    State.noRequest_foldl_withdraw (.inl (List.mem_range.mpr hk))
  obtain ⟨hregs, hcombine⟩ := kept (List.range 16)
  generalize (List.range 16).foldl (State.withdraw p) s = u at ht none' hregs hcombine
  rw [ht]
  refine ⟨?_, ?_, fun k hk => ?_⟩
  · rw [State.siding_counts, State.reg_of_regs (t := u.forgetLanding p) hregs]
  · exact (State.siding_combine _ p).trans hcombine
  · unfold State.noRequest
    rw [State.siding_waiting]
    exact none' k hk

/-! ### Drain commands -/

theorem lastAbort_ne_drainState (r : Role) : Reg.drainState ≠ Reg.lastAbort (roleNum r + 1) := by
  cases r <;> decide

/-- A drain starts where none runs (R241). -/
theorem exec_drainStart_starts {s : State} {r : Role} (may : s.mayWrite r Reg.drainCmd) (idle : s.reg Reg.drainState = 0) :
    exec (.drainStart r) s = .next
      { s.setReg Reg.drainState 1 with fabric := { s.fabric with drainAt := s.time.hallTime, drainOwn := false } } := by
  rw [exec_drainStart, execDrainStart, State.command_of_mayWrite may, State.writeDrainCmd, if_pos rfl,
    if_neg (not_not.mpr idle)]
  rfl

/-- While a drain runs, a second one is refused. -/
theorem exec_drainStart_refused {s : State} {r : Role} (may : s.mayWrite r Reg.drainCmd) (runs : s.reg Reg.drainState ≠ 0) :
    exec (.drainStart r) s = .next (s.setReg (Reg.lastAbort (roleNum r + 1)) (abortCode 7 0x20)) := by
  rw [exec_drainStart, execDrainStart, State.command_of_mayWrite may, State.writeDrainCmd, if_pos rfl, if_pos runs]
  rfl

/-- A release with no packet held ends the drain (R241). -/
theorem exec_drainRelease_ends {s : State} {r : Role} (may : s.mayWrite r Reg.drainCmd) (none' : s.fabric.held = []) :
    exec (.drainRelease r) s = .next
      { s.setReg Reg.drainState 0 with fabric := { s.fabric with held := [], drainOwn := false } } := by
  rw [exec_drainRelease, execDrainRelease, State.command_of_mayWrite may, State.writeDrainCmd, if_neg (by decide),
    if_pos rfl, none']
  rfl

/-- A drain whose ports are empty is DRAINED, once its ports are audited (R241, R441). -/
theorem exec_drainDone_drains {s : State} (runs : s.reg Reg.drainState = 1) (empty : s.drainEmpty = true)
    (foreign : s.fabric.drainOwn = false) :
    ∃ t, exec .drainDone s = .next t ∧ t.reg Reg.drainState = 2 := by
  let t := (List.range 60).foldl State.auditPort (s.setReg Reg.drainState 2)
  have kept : t.drainStatus = (s.setReg Reg.drainState 2).drainStatus :=
    foldl_keeps State.drainStatus State.auditPort_drainStatus (List.range 60) _
  simp only [State.drainStatus, Prod.mk.injEq] at kept
  obtain ⟨hstate, hown⟩ := kept
  refine ⟨t, ?_, hstate.trans (State.reg_setReg_same _ _ _)⟩
  rw [exec_drainDone, execDrainDone, if_neg (by simp [runs, empty])]
  exact congrArg Host.Outcome.next (if_neg (by rw [hown]; simp [foreign]))

/-- A drain that is not empty at its bound is TIMED_OUT, counted (R242). -/
theorem exec_drainTimeout_counts {s : State} (runs : s.reg Reg.drainState = 1)
    (rest : (s.advanceTo (s.fabric.drainAt + s.reg Reg.drainTimeout)).drainEmpty = false) :
    ∃ t, exec .drainTimeout s = .next t ∧ t.reg Reg.drainState = 3 ∧
      t.reg Reg.drainTimeouts = (s.reg Reg.drainTimeouts + 1) % 2 ^ 32 := by
  let u := s.advanceTo (s.fabric.drainAt + s.reg Reg.drainTimeout)
  let gone := (List.range 60).flatMap u.drainRest
  let v := ((List.range 60).foldl State.drainPort u).setReg Reg.drainState 3
  let w := gone.foldl (fun t p => t.discardPacket p 3) v
  have run : exec .drainTimeout s = .next (w.count Reg.drainTimeouts 1) := by
    rw [exec_drainTimeout, execDrainTimeout, if_neg (not_not.mpr runs)]
    exact congrArg Host.Outcome.next (if_neg (Bool.eq_false_iff.mp rest))
  have hw : ∀ k, k ≠ Reg.undeliverable → w.reg k = v.reg k := fun k hk =>
    foldl_keeps (State.reg · k) (fun t p => t.discardPacket_reg p 3 hk) gone v
  refine ⟨_, run, ?_, ?_⟩
  · rw [State.reg_count_other _ _ (by decide), hw _ (by decide), State.reg_setReg_same]
  · have ports : PortsOnly u ((List.range 60).foldl State.drainPort u) := PortsOnly.foldl State.drainPort_only _ u
    rw [State.reg_count_same, hw _ (by decide), State.reg_setReg_other _ _ (by decide), ports.reg _ (by decide),
      State.advanceTo_reg_of_keySub _ _ (by decide)]

/-- A combine record whose response has not come within RM_TIMEOUT is freed (R265). -/
theorem exec_combineRecordTimeout_frees {s : State} {n : Nat} {c : CombineRec}
    (found : s.fabric.combines.find? (fun c => c.num == n) = some c) :
    ∃ t, exec (.combineRecordTimeout n) s = .next t ∧
      t.fabric.combines = s.fabric.combines.filter (fun c => c.num != n) ∧
      c.at' + s.reg Reg.rmTimeout ≤ t.time.hallTime := by
  have combines := s.advanceTo_combines (c.at' + s.reg Reg.rmTimeout)
  have time := s.advanceTo_hallTime (c.at' + s.reg Reg.rmTimeout)
  rw [exec_combineRecordTimeout, execCombineRecordTimeout, found]
  dsimp only
  generalize s.advanceTo (c.at' + s.reg Reg.rmTimeout) = u at combines time ⊢
  exact ⟨_, rfl, by rw [← combines], (le_max_left _ _).trans_eq time.symm⟩

/-! ### The statement -/

/-- Settles O31: each command's own lemma. -/
theorem multicastsAndDrains : Obligations.MulticastsAndDrains := by
  refine ⟨fun s => ⟨fun cls g mask cl b h4 h5 => ?_, fun cls g mask cl b hcls inside nonzero valid => ?_,
    fun c copy own => ⟨fun cls kind some' => ?_, fun q r cls hq low high alone found none' => ?_⟩,
    fun p q hq => ?_⟩,
    fun s => ⟨fun r may idle => ?_, fun r may runs => ?_, fun r may none' => ?_, exec_drainDone_drains,
      exec_drainTimeout_counts, fun n c found => ?_⟩⟩
  · exact ⟨_, by rw [exec_multicastInject, execMulticastInject, if_pos ⟨h4, h5⟩], rfl⟩
  · obtain ⟨x, hinject, hbody, hmc, hclass, hsent, hmembers⟩ := State.multicast_sends inside nonzero
      (s.mcastRanks_length_le g) valid cls g (if cls = 5 then 3 else 2) cl b
    refine ⟨_, x, ?_, hinject, hbody, hmc, hclass, hsent, hmembers⟩
    rw [exec_multicastInject, execMulticastInject, if_neg (by omega)]
  · obtain ⟨f, run⟩ := exec_undeliverableNoticeArrival_eq s c copy
    rw [State.undelivered_manifest (s := { s with fabric := f }) own cls kind] at run
    obtain ⟨hlost, hdispatched⟩ := State.foldl_settle_reg (l := List.range (headerCount (copiedBody copy)))
      (by simpa using some') ({ s with fabric := f }.enterLedger (headerCount (copiedBody copy)))
      (o := Reg.lostFault) (by decide)
    rw [List.length_range, State.enterLedger, State.reg_count_other _ _ (by decide)] at hlost hdispatched
    exact ⟨_, run, hlost, hdispatched⟩
  · subst hq
    obtain ⟨f, run⟩ := exec_undeliverableNoticeArrival_eq s c copy
    rw [State.undelivered_request (s := { s with fabric := f }) own cls low high alone found] at run
    obtain ⟨hout, hlog⟩ := State.failRm_ends (s := { s with fabric := f }) none' r 8
    exact ⟨_, run, hout, hlog⟩
  · obtain ⟨f, hf⟩ := s.takeLanding_fabric p.body
    obtain ⟨hsiding, hcombine, hrequests⟩ := { s with fabric := f }.truncated_leaves q
    refine ⟨_, ?_, hsiding, hcombine, hrequests⟩
    rw [hq] at hf
    simp only [exec_truncatedPacketArrival, execTruncatedPacketArrival, hq, hf]
  · exact ⟨_, exec_drainStart_starts may idle, State.reg_setReg_same s _ _, rfl⟩
  · exact ⟨_, exec_drainStart_refused may runs, State.reg_setReg_other _ _ (lastAbort_ne_drainState r),
      State.reg_setReg_same _ _ _⟩
  · exact ⟨_, exec_drainRelease_ends may none', State.reg_setReg_same s _ _⟩
  · obtain ⟨t, run, hcombines, htime⟩ := exec_combineRecordTimeout_frees found
    exact ⟨t, run, fun y => by simp [hcombines], htime⟩

end Sys2Proof.Machine
end

section
/-! SUPPORT. Sealed images (R119, R301, R315): how they are stored, deleted and loaded, and what reading and zeroing their
extents changes. -/

namespace Sys2Proof.Machine

open Sys2Proof

/-! ### Wear and zeroed extents -/

/-- What writing pages changes in the tiers: the erase cycles, and the pages written since the last block was erased. -/
def WearOnly (t u : Tiers) : Prop := u = { t with erases := u.erases, written := u.written }

theorem WearOnly.trans {t u v : Tiers} (h : WearOnly t u) (g : WearOnly u v) : WearOnly t v := by
  unfold WearOnly at *
  rw [g, h]

theorem WearOnly.foldl {f : Tiers → α → Tiers} (h : ∀ t a, WearOnly t (f t a)) (l : List α) (t : Tiers) :
    WearOnly t (l.foldl f t) := by
  induction l generalizing t with
  | nil => rfl
  | cons a l ih => exact (h t a).trans (ih _)

theorem Tiers.erase_wearOnly (t : Tiers) (b : Nat) : WearOnly t (t.erase b) := rfl

theorem Tiers.writeExtent_wearOnly (t : Tiers) (a : Nat) : WearOnly t (t.writeExtent a) := by
  unfold Tiers.writeExtent
  split
  · exact (WearOnly.foldl (fun t _ => t.erase_wearOnly _) _ t).trans rfl
  · rfl

/-- What the tiers hold for tenants, beside the bytes themselves. -/
def Tiers.holdings (t : Tiers) : List Home × List KvUser × List HomeCmd × List Image := (t.homes, t.kv, t.cmds, t.images)

theorem WearOnly.holdings {t u : Tiers} (h : WearOnly t u) : u.holdings = t.holdings := by
  rw [h]
  rfl

theorem Tiers.setStore_holdings (t : Tiers) (tier : Nat) (m : Memory) : (t.setStore tier m).holdings = t.holdings := by
  unfold Tiers.setStore
  (repeat' split) <;> rfl

theorem State.zeroExtent_holdings (s : State) (a : Nat) : (s.zeroExtent a).tiers.holdings = s.tiers.holdings :=
  (Tiers.setStore_holdings _ _ _).trans (s.tiers.writeExtent_wearOnly a).holdings

theorem TiersOnly.foldl {f : State → α → State} (h : ∀ s a, TiersOnly s (f s a)) (l : List α) (s : State) :
    TiersOnly s (l.foldl f s) := by
  induction l generalizing s with
  | nil => rfl
  | cons a l ih => exact (h s a).trans (ih _)

theorem State.zeroExtent_only (s : State) (a : Nat) : TiersOnly s (s.zeroExtent a) := rfl

theorem State.countReads_only (s : State) (a off n : Nat) : TiersOnly s (s.countReads a off n) := rfl

theorem TiersOnly.reg {s t : State} (h : TiersOnly s t) (k : Nat) : t.reg k = s.reg k := by rw [h]; rfl

/-! ### Storing -/

/-- A role acts for a tenant: its own, or as the manager for the one that runs. -/
theorem roleActs {s : State} {r : Role} (runs : r = .mgr → s.slotNow ≠ 0xFF) :
    (r == .mgr && s.slotNow == 0xFF) = false := by
  by_cases h : r = .mgr
  · simp [runs h]
  · simp [h]

/-- A transfer to IMAGE_STORE in the form of R301, its body sealed by its digest. -/
structure SealedImage (bs : List Byte) : Prop where
  body     : 64 < bs.length
  bound    : bs.length ≤ 1073741824
  magic    : natAt bs 0 4 = 0x494D4731
  flags    : natAt bs 6 2 = 0
  reserved : natAt bs 12 4 = 0
  rest     : allZero (bytesAt bs 48 16) = true
  length   : natAt bs 8 4 = (bs.drop 64).length
  digest   : bytesAt bs 16 32 = sha3 (bs.drop 64)

/-- The extents an image's body takes. -/
def imageNeed (bs : List Byte) : Nat := (bs.length - 64 + 2097151) / 2097152

/-- The image that a transfer to IMAGE_STORE leaves in n extents of the slow tier. -/
def State.sealedImage (s : State) (n : Nat) (bs : List Byte) : Image :=
  ⟨s.tenantNow, natAt bs 4 2, bytesAt bs 16 32, bs.drop 64,
    (s.imageExtents n (fullestStack (s.usedExts 2 0)) []).map (homeAddr 2 0)⟩

/-- The state with that image stored. -/
def State.addImage (s : State) (n : Nat) (bs : List Byte) : State :=
  let t := s.draws n
  let w := (s.sealedImage n bs).extents.foldl Tiers.writeExtent t.tiers
  { t with tiers := { w with images := w.images ++ [s.sealedImage n bs] } }

theorem State.imageExtents_length (s : State) (n k : Nat) (got : List Nat) :
    (s.imageExtents n k got).length = got.length + n := by
  induction n generalizing k got with
  | zero => rfl
  | succ n ih =>
    rw [State.imageExtents, ih, List.length_append, List.length_singleton]
    omega

theorem State.sealedImage_length (s : State) (n : Nat) (bs : List Byte) : (s.sealedImage n bs).extents.length = n := by
  rw [State.sealedImage, List.length_map, State.imageExtents_length, List.length_nil, Nat.zero_add]

theorem homeTier_homeAddr {tier : Nat} (h : tier < 4) (port ext : Nat) : homeTier (homeAddr tier port ext) = tier := by
  unfold homeTier homeAddr field
  split <;> omega

theorem State.sealedImage_slow (s : State) (n : Nat) (bs : List Byte) :
    ∀ a ∈ (s.sealedImage n bs).extents, homeTier a = 2 := fun a ha => by
  obtain ⟨e, -, rfl⟩ := List.mem_map.mp ha
  exact homeTier_homeAddr (by decide) 0 e

theorem reservedClear_imageStore (b : Blob) : reservedClear 0x2810 6 b = true :=
  List.all_eq_true.mpr fun c _ => by
    have none' : rsvdByte [] (c.1 % 1) = 0 := rfl
    simp [rsvdFields, none']

/-- A write of IMAGE_STORE that passes its checks on access and length stores its bytes. -/
theorem State.writeObject_imageStore {s : State} {r : Role} {bs : List Byte}
    (access : s.accessCode r 0x2810 6 true = 0) (whole : bs.length ≠ 0) (bound : bs.length ≤ 1073741824) :
    s.writeObject r 0x2810 6 bs = s.writeImage r bs := by
  have row : rowOf 0x2810 6 = some ⟨0x2810, 0x2810, 6, 6, .dom, .wo, [.mgr, .ten], 0, false, false, 1073741824, false, 1,
    false, .none, false⟩ := by decide +kernel
  unfold State.writeObject
  rw [if_neg (not_not.mpr access), row]
  simp [lengthCode, ObjRow.isBytes, whole, Nat.not_lt.mpr bound, Nat.mod_one, State.writeDom,
    reservedClear_imageStore, State.bytesCommand]

theorem State.writeImage_stores {s : State} {r : Role} {bs : List Byte} (form : SealedImage bs)
    (runs : r = .mgr → s.slotNow ≠ 0xFF) (new : s.imageOf s.tenantNow (natAt bs 4 2) = none)
    (room : imageNeed bs ≤ s.tierFree 2 0) :
    s.writeImage r bs = (0, s.addImage (imageNeed bs) bs) := by
  obtain ⟨body, -, magic, flags, reserved, rest, length, digest⟩ := form
  have hlen : (bs.drop 64).length = bs.length - 64 := List.length_drop
  have hneed : ((bs.drop 64).length + extentBytes - 1) / extentBytes = imageNeed bs := by
    unfold extentBytes imageNeed
    omega
  have mgr := roleActs runs
  have head : (natAt bs 0 4 != 0x494D4731 || natAt bs 6 2 != 0 || natAt bs 12 4 != 0 || !allZero (bytesAt bs 48 16) ||
      natAt bs 8 4 != (bs.drop 64).length || (bs.drop 64).length == 0 || decide (bs.length < 64)) = false := by
    rw [magic, flags, reserved, rest, length]
    simp
    omega
  have digested : (bytesAt bs 16 32 != sha3 (bs.drop 64)) = false := by simp [digest]
  unfold State.writeImage
  simp only [hneed, mgr, head, digested, new, Option.isSome_none, decide_eq_false (Nat.not_lt.mpr room), firstFail]
  rfl

theorem WearOnly.withImages {t u : Tiers} (h : WearOnly t u) (l : List Image) :
    ∃ e w, { u with images := u.images ++ l } = { t with erases := e, written := w, images := t.images ++ l } :=
  ⟨u.erases, u.written, by rw [h]⟩

/-- Storing an image draws free values, wears the flash, and adds the image to the others. -/
theorem State.addImage_adds (s : State) (n : Nat) (bs : List Byte) : ∃ f e w, s.addImage n bs =
    { s with free := f, tiers := { s.tiers with
      erases := e, written := w, images := s.tiers.images ++ [s.sealedImage n bs] } } := by
  have wear : WearOnly s.tiers ((s.sealedImage n bs).extents.foldl Tiers.writeExtent s.tiers) :=
    WearOnly.foldl Tiers.writeExtent_wearOnly _ _
  obtain ⟨e, w, h⟩ := wear.withImages [s.sealedImage n bs]
  exact ⟨_, e, w, congrArg (fun t => { s.draws n with tiers := t }) h⟩

theorem exec_imageStore_stores {s : State} {r : Role} {bs : List Byte} (may : s.mayWrite r Reg.imageStore)
    (form : SealedImage bs) (runs : r = .mgr → s.slotNow ≠ 0xFF)
    (new : s.imageOf s.tenantNow (natAt bs 4 2) = none) (room : imageNeed bs ≤ s.tierFree 2 0) :
    exec (.imageStore r bs) s = .next (s.addImage (imageNeed bs) bs) := by
  have access : s.accessCode r 0x2810 6 true = 0 := may.2
  rw [exec_imageStore, execImageStore, State.command_of_mayWrite may,
    State.writeObject_imageStore access (Nat.ne_of_gt (Nat.zero_lt_of_lt form.body)) form.bound,
    State.writeImage_stores form runs new room]
  rfl

/-! ### Deleting -/

/-- An image that leaves takes nothing with it but its own extents. -/
theorem State.dropImage_drops (s : State) (i : Image) : s.dropImage i = { s with tiers := (s.dropImage i).tiers } ∧
    (s.dropImage i).tiers.images = s.tiers.images.filter (fun x => !(x.tenant == i.tenant && x.id == i.id)) ∧
    (s.dropImage i).tiers.homes = s.tiers.homes ∧ (s.dropImage i).tiers.kv = s.tiers.kv ∧
    (s.dropImage i).tiers.cmds = s.tiers.cmds := by
  let z := i.extents.foldl State.zeroExtent s
  have only : TiersOnly s z := TiersOnly.foldl State.zeroExtent_only _ s
  have free : z.free = s.free := foldl_keeps State.free (f := State.zeroExtent) (fun _ _ => rfl) _ s
  have held : z.tiers.holdings = s.tiers.holdings :=
    foldl_keeps (fun u : State => u.tiers.holdings) State.zeroExtent_holdings _ s
  simp only [Tiers.holdings, Prod.mk.injEq] at held
  obtain ⟨homes, kv, cmds, images⟩ := held
  refine ⟨?_, congrArg (List.filter _) images, homes, kv, cmds⟩
  unfold TiersOnly at only
  rw [free] at only
  exact congrArg (fun u : State => { u with tiers := (s.dropImage i).tiers }) only

theorem exec_imageDelete_drops {s : State} {r : Role} {id : Nat} {i : Image} (small : id < 65536)
    (may : s.mayWrite r Reg.imageDelete) (runs : r = .mgr → s.slotNow ≠ 0xFF)
    (found : s.imageOf s.tenantNow id = some i)
    (idle : ∀ e ∈ s.platforms.images, e.2.state = 1 → e.2.imageId ≠ id) :
    exec (.imageDelete r id) s = .next (s.dropImage i) := by
  have mgr := roleActs runs
  have loading : s.platforms.images.any (fun e => e.2.state == 1 && e.2.imageId == id) = false := by
    simpa [List.any_eq_false] using fun a b hb => idle (a, b) hb
  have code : s.writeImageDelete r id = (0, s.dropImage i) := by
    simp [State.writeImageDelete, mgr, loading, found, firstFail]
  rw [exec_imageDelete, execImageDelete, Nat.mod_eq_of_lt small, State.command_of_mayWrite may, code]
  rfl

/-! ### Loading -/

theorem exec_imageLoad_starts {s : State} {r : Role} {p : Nat} (small : p < 256) (may : s.mayWrite r Reg.imageLoad)
    (off : (s.plat p).en = false) (free : (s.imageSlot p).state ≠ 1)
    (stored : (s.imageOf s.tenantNow (platResOf (s.dom Reg.platformRes) p).imageId).isSome = true) :
    exec (.imageLoad r p) s = .next (s.setImageSlot p ⟨1, (platResOf (s.dom Reg.platformRes) p).imageId,
      (platResOf (s.dom Reg.platformRes) p).cls, (platResOf (s.dom Reg.platformRes) p).place⟩) := by
  have code : s.writeImageLoad p = (0, s.setImageSlot p ⟨1, (platResOf (s.dom Reg.platformRes) p).imageId,
      (platResOf (s.dom Reg.platformRes) p).cls, (platResOf (s.dom Reg.platformRes) p).place⟩) := by
    have found := Option.isNone_eq_false_iff.mpr stored
    simp [State.writeImageLoad, off, free, found, firstFail]
  rw [exec_imageLoad, execImageLoad, Nat.mod_eq_of_lt small, State.command_of_mayWrite may, code]
  rfl

theorem State.imageSlot_setImageSlot_same (s : State) (p : Nat) (i : ImageSlot) : (s.setImageSlot p i).imageSlot p = i :=
  mapGetD_mapSet_same _ _ _ _

/-- What a read of a whole image finds, where no line or page of its extents is bad. -/
theorem State.readImage_sound {s : State} {i : Image} (sound : ∀ a ∈ i.extents, s.homeBad a 0 extentBytes = false)
    (ok : Bool) :
    ∃ t, TiersOnly s t ∧ s.readImage i ok = (ok, if ok then t else t.unreadable (i.extents.headD 0)) := by
  have bad : i.extents.any (fun a => s.homeBad a 0 extentBytes) = false := by simpa using sound
  refine ⟨i.extents.foldl (fun s a => s.countReads a 0 extentBytes) s,
    TiersOnly.foldl (fun s a => s.countReads_only a 0 extentBytes) _ s, ?_⟩
  cases ok <;> simp [State.readImage, bad]

/-- A read that failed is counted as the tier of its place asks, and no other number changes. -/
theorem State.unreadable_reg (s : State) (a : Nat) {k : Nat} (hk : k ∉ [Reg.hbmUe, Reg.flashUe, Reg.cxlPoison]) :
    (s.unreadable a).reg k = s.reg k := by
  simp only [List.mem_cons, List.not_mem_nil, or_false, not_or] at hk
  obtain ⟨hbm, flash, cxl⟩ := hk
  dsimp only [State.unreadable]
  split
  · split
    · rfl
    · exact State.reg_count_other _ _ hbm
  · split
    · exact (State.reg_count_other _ _ flash).trans (by split <;> rfl)
    · exact State.reg_count_other _ _ cxl

theorem State.unreadable_flashUe (s : State) {a : Nat} (slow : homeTier a = 2) :
    (s.unreadable a).reg Reg.flashUe = (s.reg Reg.flashUe + 1) % 2 ^ 32 := by
  dsimp only [State.unreadable]
  rw [if_neg (by simp [slow]), if_pos slow, State.reg_count_same]
  split <;> rfl

theorem exec_imageLoadDone_loads {s : State} {p : Nat} {i : Image} (loading : (s.imageSlot p).state = 1)
    (stored : s.imageOf s.tenantNow (s.imageSlot p).imageId = some i) (digest : sha3 i.body = i.digest)
    (sound : ∀ a ∈ i.extents, s.homeBad a 0 extentBytes = false) : ∃ t, TiersOnly s t ∧
    exec (.imageLoadDone p true) s = .next
      ((t.placeImage p (s.imageSlot p) i.body).setImageSlot p { s.imageSlot p with state := 2 }) := by
  obtain ⟨t, only, read⟩ := State.readImage_sound sound true
  refine ⟨t, only, ?_⟩
  simp [execImageLoadDone, loading, stored, read, digest]

theorem exec_imageLoadDone_fails {s : State} {p : Nat} {i : Image} (loading : (s.imageSlot p).state = 1)
    (stored : s.imageOf s.tenantNow (s.imageSlot p).imageId = some i)
    (sound : ∀ a ∈ i.extents, s.homeBad a 0 extentBytes = false) : ∃ t, TiersOnly s t ∧
    exec (.imageLoadDone p false) s = .next
      (((t.unreadable (i.extents.headD 0)).setImageSlot p { s.imageSlot p with state := 3 }).count Reg.loadFails 1) := by
  obtain ⟨t, only, read⟩ := State.readImage_sound sound false
  refine ⟨t, only, ?_⟩
  simp [execImageLoadDone, loading, stored, read]

/-- A body that fits stands whole in the scratchpad of the slot's core. -/
theorem State.placeImage_scratch {s : State} {p : Nat} {sl : ImageSlot} {body : List Byte} (inScratch : sl.cls = 0)
    (fits : sl.place + body.length ≤ scratchBytes) :
    ((s.placeImage p sl body).core (s.plat p).core).scratch =
      memWrite (s.core (s.plat p).core).scratch sl.place body := by
  have whole : body.take (scratchBytes - sl.place) = body := List.take_of_length_le (by omega)
  rw [State.placeImage, if_pos inScratch, State.core_updCore, if_pos rfl, whole, Core.spWrite]
  simp only [whole]

/-! ### The statement -/

/-- Settles O42: each command's own lemma. -/
theorem imagesAreStoredAndLoaded : Obligations.ImagesAreStoredAndLoaded := by
  refine fun s => ⟨fun r bs may runs body bound magic flags reserved rest length digest new room => ?_,
    fun r id small may runs stored idle => ?_, fun r p small may off free stored => ?_,
    fun p i sl hsl loading stored digest sound => ?_⟩
  · have run := exec_imageStore_stores may ⟨body, bound, magic, flags, reserved, rest, length, digest⟩ runs new room
    obtain ⟨f, e, w, h⟩ := s.addImage_adds (imageNeed bs) bs
    rw [h] at run
    exact ⟨_, (s.sealedImage (imageNeed bs) bs).extents, run, rfl, rfl, s.sealedImage_length _ bs,
      s.sealedImage_slow _ bs⟩
  · obtain ⟨i, found⟩ := Option.isSome_iff_exists.mp stored
    obtain ⟨only, images, homes, kv, cmds⟩ := s.dropImage_drops i
    have named := List.find?_some found
    simp only [Bool.and_eq_true, beq_iff_eq] at named
    obtain ⟨tenant, id⟩ := named
    rw [tenant, id] at images
    exact ⟨_, exec_imageDelete_drops small may runs found idle, only, images, homes, kv, cmds⟩
  · exact ⟨_, exec_imageLoad_starts small may off free stored, State.imageSlot_setImageSlot_same s p _⟩
  · subst hsl
    obtain ⟨t, only, loads⟩ := exec_imageLoadDone_loads loading stored digest sound
    obtain ⟨u, uonly, fails⟩ := exec_imageLoadDone_fails loading stored sound
    refine ⟨⟨_, loads, State.imageSlot_setImageSlot_same _ p _, fun inScratch fits => ?_⟩,
      ⟨_, fails, State.imageSlot_setImageSlot_same _ p _, ?_, fun slow => ?_⟩⟩
    · have plat : t.plat p = s.plat p := by rw [only]; rfl
      have core : t.core = s.core := by rw [only]; rfl
      have placed := State.placeImage_scratch (s := t) (p := p) inScratch fits
      rw [plat, core] at placed
      exact placed
    · rw [State.reg_count_same]
      exact congrArg (fun n => (n + 1) % 2 ^ 32)
        ((State.unreadable_reg u (i.extents.headD 0) (k := Reg.loadFails) (by decide)).trans (uonly.reg _))
    · rw [State.reg_count_other _ _ (by decide)]
      exact (State.unreadable_flashUe u slow).trans (by rw [uonly.reg])

end Sys2Proof.Machine
end

section
/-! SUPPORT. Partitions (R356 to R359): START, TEARDOWN and their beats; FAULT_HOLD and re-admission (R366); a stand-in
and its replica (R119, R364). -/

namespace Sys2Proof.Machine

open Sys2Proof

/-! ### START and TEARDOWN -/

/-- A partition command is kept for the tick of a beat. -/
def State.partAt (s : State) (b : Nat) (down : Bool) : State :=
  { s with manager := { s.manager with partDue := some (b, down) } }

theorem exec_start_keeps {s : State} {r : Role} (may : s.mayWrite r Reg.partCmd) (configured : s.part = 1)
    (cool : s.reg Reg.thermalState ≠ 2) (anchored : s.time.anchored = true)
    (named : s.namedOk (s.reg Reg.partBeat) = true) (untested : s.package.diagCmd ≠ 4)
    (hbm : s.reg Reg.bootStage ≠ 0xE2) (flash : s.reg Reg.bootStage ≠ 0xE3) :
    exec (.start r) s = .next (if s.reg Reg.startShared = 0 then s.partAt (s.reg Reg.partBeat) false
      else ((s.partAt (s.reg Reg.partBeat) false).setReg Reg.partState 2).count Reg.startHolds 1) := by
  have code : s.writePartCmd 1 = (0, if s.reg Reg.startShared = 0 then s.partAt (s.reg Reg.partBeat) false
      else ((s.partAt (s.reg Reg.partBeat) false).setReg Reg.partState 2).count Reg.startHolds 1) := by
    simp only [State.writePartCmd, configured, beq_false_of_ne cool, anchored, named, beq_false_of_ne untested,
      beq_false_of_ne hbm, beq_false_of_ne flash, firstFail]
    rfl
  rw [exec_start, execStart, State.command_of_mayWrite may, code]
  rfl

theorem exec_teardown_keeps {s : State} {r : Role} (may : s.mayWrite r Reg.partCmd) (held : s.part ≠ 0) :
    exec (.teardown r) s = .next (s.partAt (s.reg Reg.partBeat) true) := by
  have code : s.writePartCmd 2 = (0, s.partAt (s.reg Reg.partBeat) true) := if_neg held
  rw [exec_teardown, execTeardown, State.command_of_mayWrite may, code]
  rfl

theorem exec_readmit_keeps {s : State} {r : Role} {b : Nat} (may : s.mayWrite r Reg.readmitBeat) (small : b < 2 ^ 64) :
    exec (.readmit r b) s = .next { s with manager := { s.manager with admitBeat := some b } } := by
  rw [exec_readmit, execReadmit, State.command_of_mayWrite may, Nat.mod_eq_of_lt small]
  rfl

/-! ### The beats of a partition command -/

theorem exec_partitionRun_runs {s : State} {b : Nat} (anchored : s.time.anchored = true) (reached : b ≤ s.nextBeat)
    (due : s.manager.partDue = some (b, false)) (drained : s.sharedDrained = true) (waits : s.part = 1 ∨ s.part = 2) :
    exec .partitionRun s = .next ({ s with manager := { s.manager with partDue := none },
                                           time := { s.time with joined := true } }.setReg Reg.partState 3) := by
  rw [exec_partitionRun, execPartitionRun, if_pos anchored, State.startAt, due]
  exact congrArg Host.Outcome.next (if_pos ⟨reached, drained, waits⟩)

theorem State.updStatus_only (s : State) (tenant seq : Nat) (f : HomeStatus → HomeStatus) :
    TiersOnly s (s.updStatus tenant seq f) := by
  unfold State.updStatus
  (repeat' split) <;> rfl

theorem State.endCommand_only (s : State) (c : HomeCmd) (state cause : Nat) :
    TiersOnly s (s.endCommand c state cause) := by
  refine .trans ?_ (State.updStatus_only _ _ _ _)
  (repeat' split) <;> rfl

/-- Home commands that end ABANDONED change the tiers alone. -/
theorem State.abandonHomes_only (s : State) (tenant : Nat) : TiersOnly s (s.abandonHomes tenant) := by
  refine (TiersOnly.foldl (fun t h => ?_) _ s).trans (TiersOnly.foldl (fun t c => t.endCommand_only c 4 0) _ _)
  dsimp only
  split <;> rfl

@[simp] theorem State.setPhase_swap (s : State) (p : Nat) :
    (s.setPhase p).swap = { s.swap with phase := p, phaseAt := s.time.hallTime } := by
  dsimp only [State.setPhase]
  split <;> rfl

theorem State.setPhase_reg (s : State) (p : Nat) {k : Nat} (hk : k ≠ Reg.swapState) : (s.setPhase p).reg k = s.reg k := by
  dsimp only [State.setPhase]
  split
  · rfl
  · exact State.reg_setReg_other _ _ hk

theorem State.setPhase_open {s : State} (h : s.reg Reg.swapState ≠ 7) (p : Nat) : s.setPhase p =
    { s with swap := { s.swap with phase := p, phaseAt := s.time.hallTime } }.setReg Reg.swapState p := if_neg h

/-- A swap that starts goes to the scrub where no tenant runs, else to the drain, with the tenants it was armed with. -/
theorem State.startSwap_starts (s : State) :
    s.startSwap.swap = { s.swap with phase := if s.slotNow = 0xFF then 4 else 2, phaseAt := s.time.hallTime } ∧
      s.startSwap.reg Reg.partState = s.reg Reg.partState := by
  unfold State.startSwap
  split
  next => exact ⟨State.setPhase_swap _ _, State.setPhase_reg _ _ (by decide)⟩
  next =>
    let u := if (mapGet (roleNum .ten) s.commits).isSome then s.cancelCommit .ten else s
    have kept : u.swap = s.swap ∧ u.time = s.time ∧ u.reg Reg.partState = s.reg Reg.partState := by
      dsimp only [u]
      split
      · exact ⟨rfl, rfl, State.reg_setReg_other _ _ (by decide)⟩
      · exact ⟨rfl, rfl, rfl⟩
    obtain ⟨swap, time, part⟩ := kept
    let v := u.abandonHomes u.tenantNow
    have only : TiersOnly u v := u.abandonHomes_only _
    refine ⟨?_, ?_⟩
    · change (v.failLoads.setPhase 2).swap = _
      rw [State.setPhase_swap]
      change { v.swap with phase := 2, phaseAt := v.time.hallTime } = _
      rw [only, ← swap, ← time]
    · change (v.failLoads.setPhase 2).reg Reg.partState = _
      rw [State.setPhase_reg _ _ (by decide), ← part, ← only.reg]
      exact State.reg_count_other _ _ (by decide)

theorem State.armSwap_reg (s : State) (teardown : Bool) (epoch incoming : Nat) {k : Nat} (hs : k ≠ Reg.swapState)
    (hr : k ≠ Reg.swapResumeBeat) : (s.armSwap teardown epoch incoming).reg k = s.reg k := by
  dsimp only [State.armSwap]
  rw [State.reg_setReg_other _ _ hr, State.reg_setReg_other _ _ hs]
  rfl

theorem exec_teardownBeat_drains {s : State} {b : Nat} (anchored : s.time.anchored = true) (reached : b ≤ s.nextBeat)
    (due : s.manager.partDue = some (b, true)) (early : s.swap.phase ≤ 1) :
    ∃ t, exec .teardownBeat s = .next t ∧ t.reg Reg.partState = 4 ∧ t.swap.teardown = true ∧ t.swap.incoming = 0xFF ∧
      t.swap.phase = if s.slotNow = 0xFF then 4 else 2 := by
  let m : State := { s with manager := { s.manager with partDue := none, teardownT := some s.nextBeat } }
  let u := (m.setReg Reg.partState 4).armSwap true s.nextBeat 0xFF
  have run : exec .teardownBeat s = .next u.startSwap := by
    rw [exec_teardownBeat, execTeardownBeat, if_pos anchored, State.teardownAt, due]
    exact congrArg Host.Outcome.next (if_pos ⟨reached, early⟩)
  obtain ⟨swap, part⟩ := u.startSwap_starts
  have slot : u.slotNow = s.slotNow :=
    (State.armSwap_reg _ _ _ _ (by decide) (by decide)).trans (State.reg_setReg_other m _ (by decide))
  refine ⟨_, run, ?_, ?_, ?_, ?_⟩
  · rw [part, State.armSwap_reg _ _ _ _ (by decide) (by decide), State.reg_setReg_same]
  · rw [swap]
    rfl
  · rw [swap]
    rfl
  · rw [swap, slot]

/-! ### Re-admission -/

/-- The state that rejoins: it holds no cause, its next beat runs, and a partition in FAULT_HOLD RUNS again. -/
def State.readmitted (s : State) : State :=
  let t : State := { s with manager := { s.manager with causes := [], admitBeat := none },
                            beat := { s.beat with holdNext := false } }
  if s.part = 5 then t.setReg Reg.partState 3 else t

theorem State.readmitted_runs (s : State) : s.readmitted.manager.causes = [] ∧ s.readmitted.beat.holdNext = false ∧
    s.readmitted.reg Reg.partState = (if s.part = 5 then 3 else s.part) ∧
    s.readmitted.reg Reg.swapState = s.reg Reg.swapState := by
  unfold State.readmitted
  split
  · exact ⟨rfl, rfl, State.reg_setReg_same _ _ _, State.reg_setReg_other _ _ (by decide)⟩
  · exact ⟨rfl, rfl, rfl, rfl⟩

theorem exec_rejoin_rejoins {s : State} {b : Nat} (anchored : s.time.anchored = true) (reached : b ≤ s.nextBeat)
    (asked : s.manager.admitBeat = some b) (held : s.manager.causes ≠ [])
    (cleared : ∀ c ∈ s.manager.causes, s.causeCleared c = true) :
    ∃ t, exec .rejoin s = .next t ∧ t.manager.causes = [] ∧ t.beat.holdNext = false ∧
      t.reg Reg.partState = (if s.part = 5 then 3 else s.part) ∧
      t.reg Reg.swapState = if s.reg Reg.swapState = 7 then 0 else s.reg Reg.swapState := by
  obtain ⟨causes, hold, part, swap⟩ := s.readmitted_runs
  have run : exec .rejoin s = .next (if s.readmitted.reg Reg.swapState = 7
      then ((s.readmitted.setReg Reg.swapState 0).setPhase 0).count Reg.swaps 1 else s.readmitted) := by
    rw [exec_rejoin, execRejoin, if_pos anchored, State.rejoinAt, asked]
    exact congrArg Host.Outcome.next (if_pos ⟨reached, held, List.all_eq_true.mpr cleared⟩)
  rw [swap] at run
  refine ⟨_, run, ?_⟩
  split
  next late =>
    have open' : (s.readmitted.setReg Reg.swapState 0).reg Reg.swapState ≠ 7 := by
      rw [State.reg_setReg_same]
      decide
    rw [State.setPhase_open open']
    refine ⟨causes, hold, ?_, ?_⟩
    · rw [State.reg_count_other _ _ (by decide), State.reg_setReg_other _ _ (by decide), ← part]
      exact State.reg_setReg_other s.readmitted _ (by decide)
    · rw [State.reg_count_other _ _ (by decide), State.reg_setReg_same]
  next calm => exact ⟨causes, hold, part, swap⟩

/-! ### Stand-ins -/

@[simp] theorem State.replicaState_setReplica_same (s : State) (rank v : Nat) :
    (s.setReplica rank v).replicaState rank = v :=
  mapGetD_mapSet_same _ _ _ _

theorem exec_failover_starts {s : State} {lost b : Nat} (mine : s.myRankOpt = some b)
    (protected' : ∃ x ∈ s.replicaRecs, x.1 = lost) :
    ∃ t, exec (.failover lost b) s = .next t ∧ t.replicaState lost = 1 := by
  obtain ⟨f, taken⟩ := s.takeLanding_fabric (.mgmt (.failover lost b))
  have named : s.replicaRecs.any (fun r => r.1 == lost) = true := by simpa using protected'
  have stays : ¬ (s.myRankOpt ≠ some b ∨ !s.replicaRecs.any (fun r => r.1 == lost)) := by
    rw [named]
    exact not_or.mpr ⟨not_not.mpr mine, Bool.false_ne_true⟩
  let u : State :=
    { s with fabric := f, manager := { s.manager with ended := s.manager.ended.filter (fun e => e.1 != lost) } }
  refine ⟨u.setReplica lost 1, ?_, State.replicaState_setReplica_same _ lost 1⟩
  rw [exec_failover, execFailover, State.takeMsg, taken]
  exact congrArg Host.Outcome.next (if_neg stays)

section Replica

variable {s : State} {b id : Nat} {i : Image} (loading : s.replicaState b = 1) (recs : s.replicaRecs = [(b, id)])
  (stored : s.imageOf s.tenantNow id = some i) (sound : ∀ a ∈ i.extents, s.homeBad a 0 extentBytes = false)

include loading recs stored sound

theorem exec_replicaLoadDone_loads (small : i.body.length ≤ 33554432) (digest : sha3 i.body = i.digest) :
    ∃ t : State, exec (.replicaLoadDone b true) s = .next ((t.setReplica b 2).keepReplica b i.body) := by
  obtain ⟨t, -, read⟩ := State.readImage_sound sound true
  exact ⟨t, by simp [execReplicaLoadDone, loading, recs, stored, read, small, digest]⟩

theorem exec_replicaLoadDone_fails : ∃ t, TiersOnly s t ∧ exec (.replicaLoadDone b false) s = .next
    (((t.unreadable (i.extents.headD 0)).setReplica b 3).count Reg.replicaFails 1) := by
  obtain ⟨t, only, read⟩ := State.readImage_sound sound false
  exact ⟨t, only, by simp [execReplicaLoadDone, loading, recs, stored, read]⟩

end Replica

/-! ### The statement -/

/-- Settles O50: each command's own lemma. -/
theorem partitionsStartStopAndRejoin : Obligations.PartitionsStartStopAndRejoin := by
  refine fun s r b => ⟨fun may hb configured cool anchored named untested hbm flash => ?_,
    fun may hb held => ?_, fun may small => ⟨_, exec_readmit_keeps may small, rfl⟩,
    fun anchored reached => ⟨fun due drained waits => ?_,
      fun due early => exec_teardownBeat_drains anchored reached due early,
      fun asked held cleared => exec_rejoin_rejoins anchored reached asked held cleared⟩,
    fun lost mine protected' => exec_failover_starts mine protected',
    fun i id loading recs stored small digest sound => ⟨?_, ?_⟩⟩
  · subst hb
    refine ⟨_, exec_start_keeps may configured cool anchored named untested hbm flash, ?_⟩
    split
    · exact ⟨rfl, configured⟩
    · exact ⟨rfl, (State.reg_count_other _ _ (by decide)).trans (State.reg_setReg_same _ _ _)⟩
  · subst hb
    exact ⟨_, exec_teardown_keeps may held, rfl, rfl⟩
  · exact ⟨_, exec_partitionRun_runs anchored reached due drained waits, State.reg_setReg_same _ _ _, rfl, rfl⟩
  · obtain ⟨t, run⟩ := exec_replicaLoadDone_loads loading recs stored sound small digest
    exact ⟨_, run, State.replicaState_setReplica_same t b 2, mapGetD_mapSet_same _ _ _ _⟩
  · obtain ⟨t, only, run⟩ := exec_replicaLoadDone_fails loading recs stored sound
    refine ⟨_, run, State.replicaState_setReplica_same _ b 3, ?_⟩
    rw [State.reg_count_same]
    exact congrArg (fun n => (n + 1) % 2 ^ 32)
      ((State.unreadable_reg t (i.extents.headD 0) (k := Reg.replicaFails) (by decide)).trans (only.reg _))

end Sys2Proof.Machine
end

section
/-! SUPPORT. Stores (R402, R415 to R417), firmware updates (R425), attestation (R430), diagnostics (R406 to R412), and the
clears and windows of R126, R167 and R169. -/

namespace Sys2Proof.Machine

open Sys2Proof

/-! ### Stores -/

/-- The state while an image of entries is written to the target bank. -/
def State.storing (s : State) (es : List (Nat × Nat)) : State :=
  { s with nv := { s.nv with storing := some (s.nv.target, es) } }.setReg Reg.storeState 1

theorem State.writeStore_starts {s : State} (free : s.reg Reg.storeState ≠ 1) (restore : Bool) :
    s.writeStore restore (storeWord restore) = (0, s.storing (if restore then [] else s.captured)) := by
  rw [State.writeStore, if_neg (not_not.mpr rfl), if_neg free]
  rfl

theorem State.writeStore_refused (s : State) {restore : Bool} {v : Nat} (h : v ≠ storeWord restore) :
    s.writeStore restore v = (abortCode 4 0, s) := if_pos h

theorem exec_store_write {s : State} {r : Role} (may : s.mayWrite r Reg.storeCmd) (v : Nat) :
    exec (.store r v) s = .next (answer r (s.writeStore false v)) := by
  rw [exec_store, execStore, State.command_of_mayWrite may]

theorem exec_restoreDefaults_write {s : State} {r : Role} (may : s.mayWrite r Reg.restoreDefaults) (v : Nat) :
    exec (.restoreDefaults r v) s = .next (answer r (s.writeStore true v)) := by
  rw [exec_restoreDefaults, execRestoreDefaults, State.command_of_mayWrite may]

theorem NonVolatile.bank_setBank (n : NonVolatile) (i : Nat) (b : NvBank) : (n.setBank i b).bank i = b := by
  unfold NonVolatile.setBank NonVolatile.bank
  split <;> rfl

theorem NonVolatile.bank_countStore (n : NonVolatile) (i j : Nat) : (n.countStore i).bank j = n.bank j := by
  unfold NonVolatile.countStore
  split <;> rfl

/-- A store that fails leaves its bank invalid. -/
theorem NonVolatile.failStore_invalid {n : NonVolatile} {i : Nat} {es : List (Nat × Nat)} (h : n.storing = some (i, es)) :
    (n.failStore.bank i).valid = false ∧ n.failStore.storing = none := by
  unfold NonVolatile.failStore
  rw [h]
  refine ⟨?_, rfl⟩
  change (((n.setBank i { n.bank i with valid := false }).countStore i).bank i).valid = false
  rw [NonVolatile.bank_countStore, NonVolatile.bank_setBank]

/-- The non-volatile memory after a store whose image reads back (R416). -/
def NonVolatile.endStore (n : NonVolatile) (i : Nat) (es : List (Nat × Nat)) : NonVolatile :=
  { (n.setBank i ⟨true, n.nextSeq, es⟩).countStore i with storing := none }

theorem NonVolatile.endStore_bank (n : NonVolatile) (i : Nat) (es : List (Nat × Nat)) :
    (n.endStore i es).bank i = ⟨true, n.nextSeq, es⟩ :=
  (NonVolatile.bank_countStore _ i i).trans (NonVolatile.bank_setBank _ _ _)

theorem NonVolatile.endStore_factory (n : NonVolatile) (i : Nat) (es : List (Nat × Nat)) :
    (n.endStore i es).factory = n.factory :=
  (NonVolatile.countStore_factory _ _).trans (NonVolatile.setBank_factory _ _ _)

theorem exec_storeDone_ends {s : State} {i : Nat} {es : List (Nat × Nat)} (h : s.nv.storing = some (i, es)) :
    exec (.storeDone true) s = .next ({ s with nv := s.nv.endStore i es }.setReg Reg.storeState 2) := by
  rw [exec_storeDone, execStoreDone, h]
  rfl

theorem exec_storeDone_fails {s : State} {i : Nat} {es : List (Nat × Nat)} (h : s.nv.storing = some (i, es)) :
    exec (.storeDone false) s = .next ({ s with nv := s.nv.failStore }.setReg Reg.storeState 3) := by
  rw [exec_storeDone, execStoreDone, h]
  rfl

/-! ### Firmware updates -/

theorem NonVolatile.fw_setFw_same (n : NonVolatile) (i : Nat) (f : FwSlot) : (n.setFw i f).fw i = f := by
  unfold NonVolatile.setFw NonVolatile.fw
  split <;> rfl

theorem NonVolatile.fw_bytes (n : NonVolatile) (b : List Byte) (i : Nat) : { n with fwBytes := b }.fw i = n.fw i := rfl

/-- The slot that an update does not write. -/
theorem NonVolatile.fw_setFw_other (n : NonVolatile) {i : Nat} (h : i ≤ 1) (f : FwSlot) :
    (n.setFw i f).fw (1 - i) = n.fw (1 - i) := by
  unfold NonVolatile.setFw NonVolatile.fw
  split
  next h0 => rw [if_neg (show i ≠ 0 by omega)]
  next h1 => rw [if_pos (show i = 0 by omega)]

theorem State.fwTarget_le (s : State) : s.fwTarget ≤ 1 := by
  unfold State.fwTarget
  split <;> decide

/-- The state while an update's bytes are read back from its slot, which holds no valid image (R425). -/
def State.updating (s : State) (b : List Byte) : State :=
  let n := s.nv.setFw s.fwTarget { s.nv.fw s.fwTarget with valid := false }
  (({ s with nv := { n with fwBytes := [] } }.setReg Reg.fwUpdateState 1).verifyFw b)

/-- An update leaves no valid image in the slot it writes, and the other slot as it was. -/
theorem State.updating_slots (s : State) (b : List Byte) : ((s.updating b).nv.fw s.fwTarget).valid = false ∧
    (s.updating b).nv.fw (1 - s.fwTarget) = s.nv.fw (1 - s.fwTarget) := by
  have slots : ∀ i, (s.updating b).nv.fw i =
      (s.nv.setFw s.fwTarget { s.nv.fw s.fwTarget with valid := false }).fw i := fun i => by
    rw [State.updating, State.verifyFw, State.setReg_nv, NonVolatile.fw_bytes, State.setReg_nv, NonVolatile.fw_bytes]
  rw [slots, slots, NonVolatile.fw_setFw_same]
  exact ⟨rfl, NonVolatile.fw_setFw_other _ s.fwTarget_le _⟩

theorem exec_fwUpdate_writes {s : State} {r : Role} (may : s.mayWrite r Reg.fwUpdate) (b : List Byte)
    (idle : s.reg Reg.fwUpdateState ≠ 1) (verified : s.reg Reg.fwUpdateState ≠ 2) :
    exec (.fwUpdate r b) s = .next (s.updating b) := by
  have start : s.startFw = (0, { s with nv := { s.nv.setFw s.fwTarget { s.nv.fw s.fwTarget with valid := false } with
      fwBytes := [] } }.setReg Reg.fwUpdateState 1) := if_neg (not_or.mpr ⟨idle, verified⟩)
  rw [exec_fwUpdate, execFwUpdate, State.command_of_mayWrite may, start]
  rfl

/-- The answer to a write changes no number but the role's last abort code. -/
theorem answer_reg (r : Role) (x : Result) {k : Nat} (hk : k ≠ Reg.lastAbort (roleNum r + 1)) :
    (answer r x).reg k = x.2.reg k := by
  unfold answer
  split
  · rfl
  · exact State.reg_setReg_other _ _ hk

theorem answer_nv (r : Role) (x : Result) : (answer r x).nv = x.2.nv := by
  unfold answer
  split <;> rfl

/-- The state after an update's checks, before a failed one is counted as a security event (R425). -/
def State.updated (s : State) (code : Nat) : State :=
  let n := s.nv.setFw s.fwTarget { fwSlotOf s.nv.fwBytes with valid := code == 0 }
  { s with nv := { n with fwBytes := [] } }.setReg Reg.fwUpdateState (if code = 0 then 3 else 4)

theorem State.endFw_eq (s : State) (ok : Bool) {code : Nat} (h : s.fwCheck (fwSlotOf s.nv.fwBytes) ok = code) :
    s.endFw ok = (code, if code / 65536 = 8 then (s.updated code).count Reg.securityEvents 1 else s.updated code) := by
  subst h
  rfl

theorem State.updated_valid (s : State) (code : Nat) :
    ((s.updated code).nv.fw s.fwTarget).valid = decide (code = 0) := by
  change ((s.nv.setFw s.fwTarget { fwSlotOf s.nv.fwBytes with valid := code == 0 }).fw s.fwTarget).valid = _
  rw [NonVolatile.fw_setFw_same]
  rfl

/-- What the end of an update leaves (R425). -/
theorem State.endFw_ends (s : State) (ok : Bool) {code : Nat} (h : s.fwCheck (fwSlotOf s.nv.fwBytes) ok = code) :
    (s.endFw ok).2.reg Reg.fwUpdateState = (if code = 0 then 3 else 4) ∧
      ((s.endFw ok).2.nv.fw s.fwTarget).valid = decide (code = 0) ∧
      (code / 65536 = 8 → (s.endFw ok).2.reg Reg.securityEvents = (s.reg Reg.securityEvents + 1) % 2 ^ 32) := by
  have state : (s.updated code).reg Reg.fwUpdateState = if code = 0 then 3 else 4 := State.reg_setReg_same _ _ _
  have events : (s.updated code).reg Reg.securityEvents = s.reg Reg.securityEvents :=
    State.reg_setReg_other _ _ (by decide)
  rw [s.endFw_eq ok h]
  dsimp only
  split
  next security =>
    refine ⟨?_, s.updated_valid code, fun _ => ?_⟩
    · rw [State.reg_count_other _ _ (by decide), state]
    · rw [State.reg_count_same, events]
  next other => exact ⟨state, s.updated_valid code, fun h => absurd h other⟩

theorem exec_fwUpdateDone_ends {s : State} (verifying : s.reg Reg.fwUpdateState = 2) (closed : (s.session 0).state ≠ 1)
    (ok : Bool) : exec (.fwUpdateDone ok) s = .next (answer .op (s.endFw ok)) := by
  rw [exec_fwUpdateDone, execFwUpdateDone, if_neg (not_not.mpr verifying)]
  exact congrArg Host.Outcome.next (if_neg fun h => closed h.1)

/-! ### Attestation -/

theorem exec_attestNonce_opens {s : State} {r : Role} {b : List Byte} (may : s.mayWrite r Reg.attestNonce)
    (length : b.length = 32) (sound : s.security.certBad = false) : exec (.attestNonce r b) s =
      .next ((s.setAttest r ⟨b, none, []⟩).setReg (perRole Reg.attestState r) 1) := by
  rw [exec_attestNonce, execAttestNonce, State.command_of_mayWrite may, State.writeNonce, if_neg (not_not.mpr length),
    sound]
  rfl

theorem State.attest_setAttest (s : State) (r q : Role) (a : Attest) :
    (s.setAttest q a).attest r = if r = q then a else s.attest r := by
  have number : roleNum r = roleNum q ↔ r = q := by cases r <;> cases q <;> decide
  exact (mapGetD_mapSet _ _ _ _ _).trans (if_congr number rfl rfl)

/-- A request's measurements hang on its own role's request among those of the roles. -/
theorem State.measure_setAttest (s : State) {r q : Role} (h : r ≠ q) (a : Attest) :
    (s.setAttest q a).measure r = s.measure r := by
  have own : (s.setAttest q a).attest r = s.attest r := (s.attest_setAttest r q a).trans (if_neg h)
  unfold State.measure
  rw [own]
  rfl

@[simp] theorem State.captureFor_regs (s : State) (q : Role) : (s.captureFor q).regs = s.regs := by
  dsimp only [State.captureFor]
  split <;> rfl

/-- What a capture for another role leaves of a role's request and of what it would measure. -/
theorem State.captureFor_other (s : State) {r q : Role} (h : r ≠ q) :
    (s.captureFor q).attest r = s.attest r ∧ (s.captureFor q).measure r = s.measure r := by
  dsimp only [State.captureFor]
  split
  · exact ⟨(s.attest_setAttest r q _).trans (if_neg h), s.measure_setAttest h _⟩
  · exact ⟨rfl, rfl⟩

theorem State.captureFor_same {s : State} {r : Role} (waits : s.reg (perRole Reg.attestState r) = 1)
    (open' : (s.attest r).captured = none) : ((s.captureFor r).attest r).captured = some (s.measure r) := by
  have taken : s.captureFor r = s.setAttest r { s.attest r with captured := some (s.measure r) } := by
    simp [State.captureFor, waits, open']
  rw [taken, State.attest_setAttest, if_pos rfl]

theorem State.captures_other {r : Role} {l : List Role} (h : r ∉ l) (s : State) :
    (l.foldl State.captureFor s).attest r = s.attest r := by
  induction l generalizing s with
  | nil => rfl
  | cons q l ih =>
    obtain ⟨hq, hl⟩ := List.ne_and_not_mem_of_not_mem_cons h
    exact (ih hl _).trans (s.captureFor_other hq).1

/-- Captures for several roles measure each of them as the first state is. -/
theorem State.captures_mem {r : Role} {l : List Role} (mem : r ∈ l) (once : l.Nodup) {s : State}
    (waits : s.reg (perRole Reg.attestState r) = 1) (open' : (s.attest r).captured = none) :
    ((l.foldl State.captureFor s).attest r).captured = some (s.measure r) := by
  induction l generalizing s with
  | nil => cases mem
  | cons q l ih =>
    obtain ⟨hq, hl⟩ := List.nodup_cons.mp once
    by_cases same : r = q
    · subst same
      exact (congrArg Attest.captured (State.captures_other hq _)).trans (State.captureFor_same waits open')
    · obtain ⟨attest, measure⟩ := s.captureFor_other same
      have still : (s.captureFor q).reg (perRole Reg.attestState r) = 1 :=
        (State.reg_of_regs (s.captureFor_regs q) _).trans waits
      exact (ih ((List.mem_cons.mp mem).resolve_left same) hl still (attest ▸ open')).trans (congrArg some measure)

theorem exec_attestCapture_captures {s : State} {r : Role} (role : r ≠ .brd) (still : s.reg Reg.swapState ≤ 1)
    (waits : s.reg (perRole Reg.attestState r) = 1) (open' : (s.attest r).captured = none) :
    ∃ t, exec .attestCapture s = .next t ∧ (t.attest r).captured = some (s.measure r) ∧ t.regs = s.regs := by
  have mem : r ∈ [Role.op, .mgr, .ten] := by cases r <;> simp_all
  refine ⟨[Role.op, .mgr, .ten].foldl State.captureFor s, ?_, State.captures_mem mem (by decide) waits open',
    foldl_keeps State.regs State.captureFor_regs _ s⟩
  rw [exec_attestCapture, execAttestCapture, if_pos still]

theorem exec_attestSigned_signs {s : State} {r : Role} {b : List Byte} (waits : s.reg (perRole Reg.attestState r) = 1)
    (taken : (s.attest r).captured = some b) : exec (.attestSigned r) s =
      .next ((s.setAttest r { s.attest r with
        captured := none, report := b ++ Config.mldsaSign s.security.seed (sha3 b) }).setReg
          (perRole Reg.attestState r) 2) := by
  rw [exec_attestSigned, execAttestSigned]
  simp only [taken]
  exact congrArg Host.Outcome.next (if_neg (not_not.mpr waits))

/-! ### Diagnostics -/

theorem State.diag_starts {s : State} {r : Role} {n : Nat} (may : s.mayWrite r Reg.diagCmd)
    (arg : diagArgOk n (s.reg Reg.diagArg) = true) (free : s.reg Reg.diagState ≠ 1)
    (idle : n = 4 → s.part = 0 ∧ s.slotNow = 0xFF) : s.diag r n =
      { s with package := { s.package with diagCmd := n, diagArg := s.reg Reg.diagArg } }.setReg Reg.diagState 1 := by
  have sram : (n == 4 && (s.part != 0 || s.slotNow != 0xFF)) = false := by
    by_cases h : n = 4
    · obtain ⟨part, slot⟩ := idle h
      simp [part, slot]
    · simp [h]
  have code : s.writeDiag n = (0, { s with package := { s.package with diagCmd := n, diagArg := s.reg Reg.diagArg }
      }.setReg Reg.diagState 1) := by
    simp only [State.writeDiag, arg, beq_false_of_ne free, sram, firstFail]
    rfl
  rw [State.diag, State.command_of_mayWrite may, code]
  rfl

/-- The end of a diagnostics command tells how many of its records fail (R408). -/
theorem exec_diagDone_tells {s : State} {recs : List DiagRec} (runs : s.reg Reg.diagState = 1)
    (noPorts : s.package.diagCmd ≠ 2) :
    let n := failedRecs s.package.diagCmd
      (recs.filter (fun r => diagNames s.package.diagCmd s.package.diagArg r.idx))
    ∃ u : State, exec (.diagDone recs) s = .next
      (({ u with package := { u.package with diagCmd := 0 } }.setReg Reg.diagResult n).setReg Reg.diagState
        (if 0 < n then 3 else 2)) := by
  have own : ∀ r : DiagRec, (if s.package.diagCmd = 2 ∧ s.reg (Reg.portState (r.idx / 9)) ≠ 2
      then { r with fields := [0] } else r) = r := fun r => if_neg fun h => noPorts h.1
  simp only [exec_diagDone, execDiagDone, runs, own, List.map_id']
  exact ⟨_, rfl⟩

/-! ### Clears -/

theorem exec_clipFlagsClear_clears {s : State} {r : Role} {b : List Byte} (may : s.mayWrite r Reg.clipFlags)
    (length : b.length = 32) : exec (.clipFlagsClear r b) s = .next (s.setDom Reg.clipFlags
      (Blob.ofBytes (List.zipWith (fun x y => x &&& ~~~y) ((s.dom Reg.clipFlags).slice 0 32) b))) := by
  rw [exec_clipFlagsClear, execClipFlagsClear, State.command_of_mayWrite may, State.writeClipFlags,
    if_neg (not_not.mpr length)]
  rfl

theorem exec_auditAlarmClear_write {s : State} {r : Role} (may : s.mayWrite r Reg.auditAlarm) (v : Nat) :
    exec (.auditAlarmClear r v) s = .next (answer r (s.writeAlarm v)) := by
  rw [exec_auditAlarmClear, execAuditAlarmClear, State.command_of_mayWrite may]

theorem lastAbort_ne_auditAlarm (r : Role) : Reg.auditAlarm ≠ Reg.lastAbort (roleNum r + 1) := by
  cases r <;> decide

/-! ### Clipping windows -/

/-- The share of a slot's quantised values that were clipped, in units of 2^-16 (R167). -/
def ClipCount.share (c : ClipCount) : Nat := if c.quantised = 0 then 0 else c.clipped * 65536 / c.quantised

/-- Whether a slot's share exceeds its threshold. -/
def State.clips (s : State) (e : Nat × ClipCount) : Bool :=
  decide ((s.dom Reg.clipThresh).nat (4 * e.1) 4 < e.2.share)

/-- A slot is judged by the threshold as it stood, and its share and its flag change no threshold. -/
theorem State.judgeClip_eq (s : State) (e : Nat × ClipCount) : ∃ b f, s.judgeClip e =
    if s.clips e then ((s.setDom Reg.clipShare b).setDom Reg.clipFlags f).count Reg.clipEvents 1
    else s.setDom Reg.clipShare b := by
  let b := (s.dom Reg.clipShare).setNat (4 * e.1) 4 e.2.share
  have thresh : (s.setDom Reg.clipShare b).dom Reg.clipThresh = s.dom Reg.clipThresh :=
    (s.dom_setDom _ _ b).trans (if_neg (by decide))
  let flags := (s.setDom Reg.clipShare b).dom Reg.clipFlags
  refine ⟨b, flags.setNat (e.1 / 8) 1 (setBitAt (flags.nat (e.1 / 8) 1) (e.1 % 8) true), ?_⟩
  rw [State.clips, ← thresh]
  simp only [decide_eq_true_eq]
  rfl

theorem State.judgeClip_thresh (s : State) (e : Nat × ClipCount) :
    (s.judgeClip e).dom Reg.clipThresh = s.dom Reg.clipThresh := by
  obtain ⟨b, f, h⟩ := s.judgeClip_eq e
  have share : Reg.clipThresh ≠ Reg.clipShare := by decide
  have flags : Reg.clipThresh ≠ Reg.clipFlags := by decide
  rw [h]
  split
  · rw [State.dom_count, State.dom_setDom, if_neg flags, State.dom_setDom, if_neg share]
  · rw [State.dom_setDom, if_neg share]

theorem State.judgeClip_events (s : State) (e : Nat × ClipCount) : (s.judgeClip e).reg Reg.clipEvents =
    if s.clips e then (s.reg Reg.clipEvents + 1) % 2 ^ 32 else s.reg Reg.clipEvents := by
  obtain ⟨b, f, h⟩ := s.judgeClip_eq e
  rw [h]
  split
  · rw [State.reg_count_same, State.reg_setDom, State.reg_setDom]
  · exact State.reg_setDom _ _ _ _

/-- Every slot whose share exceeds its threshold is counted once. -/
theorem State.judgeClips_count (l : List (Nat × ClipCount)) {s : State} (bound : s.reg Reg.clipEvents < 2 ^ 32) :
    (l.foldl State.judgeClip s).reg Reg.clipEvents = (s.reg Reg.clipEvents + (l.filter s.clips).length) % 2 ^ 32 := by
  induction l generalizing s with
  | nil => exact (Nat.mod_eq_of_lt bound).symm
  | cons e l ih =>
    have same : (s.judgeClip e).clips = s.clips := by
      funext x
      rw [State.clips, State.judgeClip_thresh, State.clips]
    have events := s.judgeClip_events e
    rw [List.foldl_cons, ih (by rw [events]; split <;> omega), same, events]
    by_cases h : s.clips e = true
    · rw [if_pos h, List.filter_cons_of_pos h, List.length_cons]
      omega
    · rw [if_neg h, List.filter_cons_of_neg h]

/-- The state with slots judged and the window that ended closed. -/
def State.judged (s : State) (l : List (Nat × ClipCount)) : State :=
  let t := l.foldl State.judgeClip s
  { t with clip := { t.clip with ended := none } }

theorem State.judged_closed (s : State) (l : List (Nat × ClipCount)) : (s.judged l).clip.ended = none := rfl

theorem State.judged_count {s : State} (bound : s.reg Reg.clipEvents < 2 ^ 32) (l : List (Nat × ClipCount)) :
    (s.judged l).reg Reg.clipEvents = (s.reg Reg.clipEvents + (l.filter s.clips).length) % 2 ^ 32 :=
  State.judgeClips_count l bound

theorem exec_clipWindowClose_judges {s : State} {m : List (Nat × ClipCount)} (ended : s.clip.ended = some m) :
    exec .clipWindowClose s = .next (s.judged ((List.range 256).map (fun i => (i, mapGetD ⟨0, 0⟩ i m)))) := by
  rw [exec_clipWindowClose, execClipWindowClose, State.closeClip, ended, State.judged]

/-- The slots a closed window counts are those whose share exceeds their threshold. -/
theorem exec_clipWindowClose_counts {s : State} {m : List (Nat × ClipCount)} (ended : s.clip.ended = some m)
    (bound : s.reg Reg.clipEvents < 2 ^ 32) :
    let clipped := (List.range 256).filter (fun i => s.clips (i, mapGetD ⟨0, 0⟩ i m))
    ∃ t, exec .clipWindowClose s = .next t ∧ t.clip.ended = none ∧
      t.reg Reg.clipEvents = (s.reg Reg.clipEvents + clipped.length) % 2 ^ 32 := by
  refine ⟨_, exec_clipWindowClose_judges ended, State.judged_closed _ _, ?_⟩
  rw [State.judged_count bound, List.filter_map, List.length_map, Function.comp_def]

/-! ### The statement -/

/-- Settles O54: each command's own lemma. -/
theorem persistenceAndDiagnostics : Obligations.PersistenceAndDiagnostics := by
  refine ⟨fun s => ⟨fun r v may free => ⟨fun word => ?_, fun other => ?_⟩, fun r may free => ?_,
      fun i es writing => ⟨?_, ?_⟩, fun r b may idle verified => ?_, fun ok verifying closed => ?_,
      fun r b may length sound => ?_,
      fun r role still waits open' => exec_attestCapture_captures role still waits open',
      fun r b waits taken => ?_⟩,
    fun s => ⟨fun r n c named may arg free => ?_, fun recs n runs noPorts hn => ?_,
      fun r b may length => ⟨_, exec_clipFlagsClear_clears may length, State.dom_setDom_same _ _ _, rfl⟩,
      fun r v may => ⟨_, exec_auditAlarmClear_write may v, fun clear => ?_, fun other => ?_⟩,
      fun m ended bound => exec_clipWindowClose_counts ended bound⟩⟩
  · subst word
    have run := exec_store_write may (storeWord false)
    rw [State.writeStore_starts free] at run
    exact ⟨_, run, State.reg_setReg_same _ _ _, rfl⟩
  · have run := exec_store_write may v
    rw [State.writeStore_refused s (restore := false) other] at run
    exact ⟨_, run, rfl, State.reg_setReg_same _ _ _⟩
  · have run := exec_restoreDefaults_write may (storeWord true)
    rw [State.writeStore_starts free] at run
    exact ⟨_, run, State.reg_setReg_same _ _ _, rfl⟩
  · exact ⟨_, exec_storeDone_ends writing, State.reg_setReg_same _ _ _, s.nv.endStore_bank i es, rfl,
      s.nv.endStore_factory i es⟩
  · obtain ⟨invalid, done⟩ := NonVolatile.failStore_invalid writing
    exact ⟨_, exec_storeDone_fails writing, State.reg_setReg_same _ _ _, invalid, done⟩
  · obtain ⟨invalid, other⟩ := s.updating_slots b
    exact ⟨_, exec_fwUpdate_writes may b idle verified, State.reg_setReg_same _ _ _, rfl, invalid, other⟩
  · obtain ⟨state, valid, security⟩ := s.endFw_ends ok rfl
    refine ⟨_, exec_fwUpdateDone_ends verifying closed ok, ?_, ?_, fun h => ?_⟩
    · rw [answer_reg _ _ (by decide), state]
    · rw [answer_nv, valid]
    · rw [answer_reg _ _ (by decide), security h]
  · refine ⟨_, exec_attestNonce_opens may length sound, ?_, State.reg_setReg_same _ _ _⟩
    exact (s.attest_setAttest r r _).trans (if_pos rfl)
  · refine ⟨_, exec_attestSigned_signs waits taken, State.reg_setReg_same _ _ _, ?_⟩
    exact congrArg Attest.report ((s.attest_setAttest r r _).trans (if_pos rfl))
  · have run : exec c s = .next (s.diag r n) := by
      obtain ⟨rfl, rfl⟩ | ⟨rfl, rfl⟩ | ⟨rfl, rfl⟩ | ⟨rfl, rfl, -⟩ := named <;> rfl
    have idle : n = 4 → s.part = 0 ∧ s.slotNow = 0xFF := by
      rintro rfl
      exact (by simpa using named : c = .sramTest r ∧ s.part = 0 ∧ s.slotNow = 0xFF).2
    rw [State.diag_starts may arg free idle] at run
    exact ⟨_, run, State.reg_setReg_same _ _ _, rfl, rfl⟩
  · obtain ⟨u, run⟩ := exec_diagDone_tells runs noPorts (recs := recs)
    rw [hn] at run
    exact ⟨_, run, (State.reg_setReg_other _ _ (by decide)).trans (State.reg_setReg_same _ _ _),
      State.reg_setReg_same _ _ _, rfl⟩
  · subst clear
    exact State.reg_setReg_same s _ _
  · have refused : s.writeAlarm v = (abortCode 4 0, s) := if_neg other
    rw [refused]
    exact ⟨State.reg_setReg_other _ _ (lastAbort_ne_auditAlarm r), State.reg_setReg_same _ _ _⟩

end Sys2Proof.Machine
end

section
/-! SUPPORT, O11 and O12. The array engine: the weight registers that a load and a swap write (R133, R138, R139, R145), and
the accumulator entries that a pass feeds (R135, R147, R148). -/

namespace Sys2Proof.Machine

open Sys2Proof

/-! ### Weight registers -/

/-- The tile that AE_TILE_LOAD puts in the standby registers: its bytes, at 64 B boundaries, and the poison among them. -/
def Core.loadedTile (k : Core) (d : TileDesc) : LoadedTile :=
  let a := align64 (k.addr .ae d.elems)
  let b := align64 (k.addr .ae d.scales)
  let poison (x n : Nat) := ((wordsOf x n).filter (fun w => k.scratchBad.contains w)).map (fun w => w - x / 8)
  ⟨d, k.spRead a (tileOuts d * tileColBytes d), k.spRead b (tileScales d), poison a (tileOuts d * tileColBytes d),
    poison b (tileScales d), 0⟩

/-- A tile that the tables hold goes to the standby registers and nowhere else. -/
theorem exec_aeTileLoad_fits {s : State} {c : Nat} {d : TileDesc} (on : s.coreOn c = true) (fits : tileFits d = true) :
    exec (.aeTileLoad c d) s = .next (s.setCore c { s.core c with standby := (s.core c).loadedTile d }) := by
  simp only [exec_aeTileLoad, execAeTileLoad, State.onCore_on on, if_pos fits]
  rfl

/-- A tile outside the tables is not loaded. -/
theorem exec_aeTileLoad_outside {s : State} {c : Nat} {d : TileDesc} (on : s.coreOn c = true)
    (outside : tileFits d = false) : exec (.aeTileLoad c d) s = .next s := by
  simp [execAeTileLoad, State.onCore_on on, outside]

theorem exec_weightSwap_exchanges {s : State} {c : Nat} (on : s.coreOn c = true) (n : Nat) :
    exec (.weightSwap c n) s =
      .next ((s.setCore c { s.core c with active := (s.core c).standby, standby := (s.core c).active }).count
        Reg.swapWait n) := by
  simp only [exec_weightSwap, execWeightSwap, State.onCore_on on]

/-- Settles O11: a load that fits and a swap each set the one core, and a load that does not fit leaves the state. -/
theorem weightRegistersLoadAndSwap : Obligations.WeightRegistersLoadAndSwap := by
  intro s c on
  refine ⟨fun d fits => ⟨_, exec_aeTileLoad_fits on fits, ?_⟩, fun d outside => exec_aeTileLoad_outside on outside,
    fun n => ⟨_, exec_weightSwap_exchanges on n, ?_⟩⟩
  · rw [State.core_setCore_same]
    exact ⟨rfl, rfl, rfl, rfl, rfl⟩
  · rw [State.core_count, State.core_setCore_same, State.reg_count_same, State.reg_setCore]
    exact ⟨rfl, rfl, rfl, rfl⟩

/-! ### One accumulator entry -/

/-- Setting an entry past the store sets nothing (R147). -/
theorem Core.setEntry_past {k : Core} {i : Nat} (h : 16384 ≤ i) (e : AccEntry) : k.setEntry i e = k := if_pos h

theorem Core.setEntry_inside {k : Core} {i : Nat} (h : i < 16384) (e : AccEntry) :
    k.setEntry i e = { k with acc := if e = AccEntry.zero then mapDel i k.acc else mapSet i e k.acc } :=
  if_neg (Nat.not_le.mpr h)

theorem Core.setEntry_rise {k : Core} (rise : keysRise k.acc = true) (i : Nat) (e : AccEntry) :
    keysRise (k.setEntry i e).acc = true := by
  unfold Core.setEntry
  split
  · exact rise
  · dsimp only
    split
    · exact keysRise_mapDel i rise
    · exact keysRise_mapSet i e rise

/-- Setting an entry changes the accumulators alone. -/
theorem Core.setEntry_rest (k : Core) (i : Nat) (e : AccEntry) : k.setEntry i e = { k with acc := (k.setEntry i e).acc } := by
  unfold Core.setEntry
  split <;> rfl

/-- An entry of the store reads as it was set; one of all zeros because it is listed no more. -/
theorem Core.entry_setEntry_same {k : Core} (rise : keysRise k.acc = true) {i : Nat} (h : i < 16384) (e : AccEntry) :
    (k.setEntry i e).entry i = e := by
  rw [setEntry_inside h]
  unfold Core.entry
  by_cases zero : e = AccEntry.zero
  · simp only [if_pos zero, mapGetD, mapGet_mapDel_same i rise]
    exact zero.symm
  · simp only [if_neg zero, mapGetD_mapSet_same]

theorem Core.entry_setEntry_other (k : Core) {i j : Nat} (h : j ≠ i) (e : AccEntry) :
    (k.setEntry i e).entry j = k.entry j := by
  unfold Core.setEntry
  split
  · rfl
  · unfold Core.entry mapGetD
    dsimp only
    split
    · rw [mapGet_mapDel_other h]
    · rw [mapGet_mapSet_other h]

/-! ### A run of entries -/

/-- A run of n entries from entry i on: the place of each with what f gives for it, the entry and its counts. -/
def entryRun (i n : Nat) (f : Nat → AccEntry × α) : List (Nat × AccEntry × α) := (List.range n).map (fun j => (i + j, f j))

/-- A core with the entries of a run set, in their order. -/
def Core.fill (k : Core) (i n : Nat) (f : Nat → AccEntry × α) : Core :=
  (entryRun i n f).foldl (fun k o => k.setEntry o.1 o.2.1) k

theorem Core.fill_succ (k : Core) (i n : Nat) (f : Nat → AccEntry × α) :
    k.fill i (n + 1) f = (k.fill i n f).setEntry (i + n) (f n).1 := by
  simp [Core.fill, entryRun, List.range_succ]

theorem Core.fill_rise {k : Core} (rise : keysRise k.acc = true) (i n : Nat) (f : Nat → AccEntry × α) :
    keysRise (k.fill i n f).acc = true := by
  induction n with
  | zero => exact rise
  | succ n ih => exact fill_succ k i n f ▸ setEntry_rise ih (i + n) (f n).1

/-- Filling a run changes the accumulators alone. -/
theorem Core.fill_rest (k : Core) (i n : Nat) (f : Nat → AccEntry × α) : k.fill i n f = { k with acc := (k.fill i n f).acc } := by
  induction n with
  | zero => rfl
  | succ n ih => rw [fill_succ, setEntry_rest, ih]

theorem Core.fill_standby (k : Core) (i n : Nat) (f : Nat → AccEntry × α) : (k.fill i n f).standby = k.standby := by
  rw [fill_rest]

theorem Core.fill_scratch (k : Core) (i n : Nat) (f : Nat → AccEntry × α) : (k.fill i n f).scratch = k.scratch := by
  rw [fill_rest]

/-- An entry outside the run, or past the store, reads as before. -/
theorem Core.entry_fill_outside (k : Core) {i n j : Nat} (h : j < i ∨ i + n ≤ j ∨ 16384 ≤ j) (f : Nat → AccEntry × α) :
    (k.fill i n f).entry j = k.entry j := by
  induction n with
  | zero => rfl
  | succ n ih =>
    rw [fill_succ, ← ih (by omega)]
    by_cases past : 16384 ≤ i + n
    · rw [setEntry_past past]
    · exact entry_setEntry_other _ (by omega) _

/-- An entry of the run reads as it was set: no later one sets it again. -/
theorem Core.entry_fill_inside {k : Core} (rise : keysRise k.acc = true) {i n j : Nat} (hj : j < n) (h : i + j < 16384)
    (f : Nat → AccEntry × α) : (k.fill i n f).entry (i + j) = (f j).1 := by
  induction n with
  | zero => exact absurd hj (Nat.not_lt_zero j)
  | succ n ih =>
    rw [fill_succ]
    obtain earlier | rfl := Nat.lt_succ_iff_lt_or_eq.mp hj
    · rw [entry_setEntry_other _ (by omega), ih earlier]
    · exact entry_setEntry_same (fill_rise rise i j f) h _

/-! ### A pass -/

theorem State.core_addAcc (s : State) (n : AccCounts) (c : Nat) : (s.addAcc n).core c = s.core c := by
  simp [State.addAcc]

theorem State.addAcc_beat (s : State) (n : AccCounts) : (s.addAcc n).beat = s.beat := by
  simp [State.addAcc]

theorem SeqOnly.entry {c : Nat} {s t : State} (h : SeqOnly c s t) (i : Nat) : (t.core c).entry i = (s.core c).entry i :=
  congrArg (mapGetD AccEntry.zero i) h.acc

/-- The sequencer's work never changes the weight registers. -/
theorem SeqOnly.active {c : Nat} {s t : State} (h : SeqOnly c s t) : (t.core c).active = (s.core c).active :=
  Option.some.inj (congrArg (·.2.2.2.2.1) h.store)

theorem SeqOnly.standby {c : Nat} {s t : State} (h : SeqOnly c s t) : (t.core c).standby = (s.core c).standby :=
  Option.some.inj (congrArg (·.2.2.2.2.2) h.store)

/-- What output j of a pass through the active tile feeds to its entry, and its counts. -/
def Core.passOutput (k : Core) (p : AePass) (j : Nat) : AccEntry × AccCounts :=
  let w := k.active
  passColumn k w p (k.activation w.desc.afmt (k.addr .ae p.act) (k.addr .ae p.actScale) (tileDep w.desc))
    (if w.desc.wfmt = .bf16 then (k.spB16 (k.addr .ae p.act) (tileDep w.desc)).map fOfB else []) j

/-- The run of entries that a pass feeds: one for each output of the active tile. -/
def Core.passRun (k : Core) (p : AePass) : List (Nat × AccEntry × AccCounts) :=
  entryRun p.entry0 (tileOuts k.active.desc) (k.passOutput p)

/-- The core after a pass: its run of entries filled, the pass counted by its tile, and a started entry poisoned no more. -/
def Core.passed (k : Core) (p : AePass) : Core :=
  { k.fill p.entry0 (tileOuts k.active.desc) (k.passOutput p) with
    active := { k.active with passes := k.active.passes + 1 }
    accBad := if p.start then k.accBad.filter (fun i => !((k.passRun p).any (fun o => o.1 == i))) else k.accBad }

/-- The state with issue cycles of the array engine counted in its beat. -/
def State.addBusyAe (s : State) (n : Nat) : State := { s with beat := { s.beat with busyAe := s.beat.busyAe + n } }

theorem State.core_addBusyAe (s : State) (n c : Nat) : (s.addBusyAe n).core c = s.core c := rfl

theorem State.addBusyAe_busyAe (s : State) (n : Nat) : (s.addBusyAe n).beat.busyAe = s.beat.busyAe + n := rfl

/-- The state after a pass, before its repeat ends: the core set, and the counts and issue cycles added. -/
def State.passed (s : State) (c : Nat) (p : AePass) : State :=
  ((s.setCore c ((s.core c).passed p)).addAcc
    (((s.core c).passRun p).foldl (fun n o => n.plus o.2.2) ⟨0, 0, 0, 0⟩)).addBusyAe (s.core c).active.passCycles

theorem State.core_passed (s : State) (c : Nat) (p : AePass) : (s.passed c p).core c = (s.core c).passed p := by
  rw [State.passed, State.core_addBusyAe, State.core_addAcc, State.core_setCore_same]

theorem State.passed_busyAe (s : State) (c : Nat) (p : AePass) :
    (s.passed c p).beat.busyAe = s.beat.busyAe + (s.core c).active.passCycles := by
  rw [State.passed, State.addBusyAe_busyAe, State.addAcc_beat, State.setCore_beat]

/-- A pass makes its state, and all else is the end of the engine's repeat. -/
theorem exec_aePass_passes {s : State} {c : Nat} (on : s.coreOn c = true) (p : AePass) :
    ∃ t, exec (.aePass c p) s = .next t ∧ SeqOnly c (s.passed c p) t :=
  ⟨_, congrArg Host.Outcome.next (State.onCore_on on ((s.passed c p).repeatDone c .ae)), State.repeatDone_only _ c .ae⟩

/-- Settles O12: the pass fills the run of its outputs, and the end of its repeat changes no store. -/
theorem arrayPassFeedsItsEntries : Obligations.ArrayPassFeedsItsEntries := by
  intro s c p on rise
  obtain ⟨t, run, only⟩ := exec_aePass_passes on p
  have fed := s.core_passed c p
  refine ⟨t, run, fun j hj inside => ?_, fun i outside => ?_, ?_, ?_, ?_, ?_⟩
  · rw [only.entry, fed]
    exact Core.entry_fill_inside rise hj inside _
  · rw [only.entry, fed]
    exact Core.entry_fill_outside _ outside _
  · rw [only.active, fed]
    rfl
  · rw [only.standby, fed]
    exact Core.fill_standby _ _ _ _
  · rw [only.scratch, fed]
    exact Core.fill_scratch _ _ _ _
  · rw [only.beat, s.passed_busyAe]

end Sys2Proof.Machine
end

section
/-! SUPPORT and O14. A sparse pass through a tile that an earlier pass of the beat went through (R176, R180): it raises
SE_BAD_TILE by 0, and a counter that is raised by 0 is still taken modulo 2^32. -/

namespace Sys2Proof.Machine

open Sys2Proof

/-- The accumulators' counts (R155) leave SE_BAD_TILE alone. -/
theorem State.addAcc_seBadTile (s : State) (n : AccCounts) : (s.addAcc n).reg Reg.seBadTile = s.reg Reg.seBadTile := by
  unfold State.addAcc
  rw [State.reg_count_other _ _ (by decide), State.reg_count_other _ _ (by decide),
    State.reg_count64_other _ _ (by decide), State.reg_count64_other _ _ (by decide)]

/-- A pass through a tile that was passed before takes SE_BAD_TILE modulo 2^32, whatever the tile holds. -/
theorem exec_sePass_again_seBadTile {s : State} {c : Nat} {p : SePass} (on : s.coreOn c = true)
    (pair : sePairOk p.wfmt p.afmt = true)
    (again : (s.core c).sePasses ((s.core c).addr .se p.tile) ((s.core c).spRead ((s.core c).addr .se p.tile) p.tileLen) ≠ 0) :
    ∃ t, exec (.sePass c p) s = .next t ∧ t.reg Reg.seBadTile = s.reg Reg.seBadTile % 2 ^ 32 := by
  have raised : ∀ (k : Core) (n : AccCounts),
      (((s.setCore c k).addAcc n).count Reg.seBadTile 0).reg Reg.seBadTile = s.reg Reg.seBadTile % 2 ^ 32 := fun k n => by
    rw [State.reg_count_same, State.addAcc_seBadTile, State.reg_setCore, Nat.add_zero]
  simp only [exec_sePass, execSePass, State.onCore_on on, if_pos pair, if_neg again]
  refine ⟨_, rfl, ?_⟩
  rw [(State.repeatDone_only _ c .se).reg _ (by decide) (by decide) (by decide)]
  split
  · exact raised _ _
  · exact ((State.reg_count64_other _ _ (by decide)).trans (State.reg_count64_other _ _ (by decide))).trans (raised _ _)

/-! ### A number beyond 32 bits -/

/-- A pass through a tile of 64 bytes at the start of a scratchpad: the header alone, with no room for a row's pointer. -/
def headerOnlyPass : SePass := ⟨.lit 0, 64, .fp4, .fp4, .lit 0, .lit 0, .lit 0, 0, true, 0⟩

/-- The part at reset, its core 0 after one pass through a tile of zeros, with a number in SE_BAD_TILE that 32 bits do not
hold: the statement, and the model's type of numbers, allow it. -/
def badTileBeyond32 : State :=
  (State.reset.setReg Reg.seBadTile (2 ^ 32)).setCore 0 { Core.empty with seTile := some ⟨0, List.replicate 64 0, 1⟩ }

theorem badTileBeyond32_core :
    badTileBeyond32.core 0 = { Core.empty with seTile := some ⟨0, List.replicate 64 0, 1⟩ } :=
  State.core_setCore_same _ _ _

theorem badTileBeyond32_seBadTile : badTileBeyond32.reg Reg.seBadTile = 2 ^ 32 :=
  (State.reg_setCore _ _ _ _).trans (State.reg_setReg_same _ _ _)

/-- Refutes O14: a second pass through a malformed tile makes 0 of an SE_BAD_TILE of 2^32, which the statement keeps. -/
theorem not_vectorSparseAndTurntable : ¬ Obligations.VectorSparseAndTurntable := by
  rintro ⟨-, sparse, -⟩
  have on : badTileBeyond32.coreOn 0 = true := by decide +kernel
  have pair : sePairOk headerOnlyPass.wfmt headerOnlyPass.afmt = true := by decide
  have again : (badTileBeyond32.core 0).sePasses 0 ((badTileBeyond32.core 0).spRead 0 64) ≠ 0 := by
    rw [badTileBeyond32_core]
    decide +kernel
  obtain ⟨-, passes⟩ := sparse badTileBeyond32 0 headerOnlyPass on (by rw [badTileBeyond32_core]; rfl)
  obtain ⟨t, run, malformed, -⟩ := passes pair
  obtain ⟨-, -, kept, -⟩ := malformed (by rw [badTileBeyond32_core]; decide +kernel)
  obtain ⟨u, run', wrapped⟩ := exec_sePass_again_seBadTile on pair again
  obtain rfl : t = u := Host.Outcome.next.inj (run.symm.trans run')
  rw [kept again, badTileBeyond32_seBadTile] at wrapped
  exact absurd wrapped (by decide)

end Sys2Proof.Machine
end

section
/-! SUPPORT and O8. An arrival at a signal line (R197), and what RAISE, BARRIER and the agents beside the cores make of it. -/

namespace Sys2Proof.Machine

open Sys2Proof

/-! ### An arrival -/

/-- A line that has not fired, after one arrival of N participants: the first arrival sets the count (R197). -/
def Line.withArrival (l : Line) (n : Nat) : Line :=
  let parts := if l.arrivals = 0 then n else l.parts
  ⟨l.arrivals + 1, parts, decide (parts ≤ l.arrivals + 1)⟩

theorem State.arrive_line_unfired {s : State} {k : Nat} (unfired : (s.line k).fired = false) (n : Nat) :
    (s.arrive k n).line k = (s.line k).withArrival n :=
  (s.arrive_line k n k).trans (if_pos ⟨rfl, unfired⟩)

theorem State.arrive_line_other (s : State) {k j : Nat} (n : Nat) (hj : j ≠ k) : (s.arrive k n).line j = s.line j :=
  (s.arrive_line k n j).trans (if_neg fun h => hj h.1)

/-- An arrival at a line that has fired is only counted. -/
theorem State.arrive_fired {s : State} {k : Nat} (fired : (s.line k).fired = true) (n : Nat) :
    s.arrive k n = s.count Reg.sigExcess 1 :=
  if_pos fired

/-- A later arrival with another N than the first is counted. -/
theorem State.arrive_conflict {s : State} {k : Nat} (unfired : (s.line k).fired = false) (n : Nat) :
    (s.arrive k n).reg Reg.sigConflict =
      if (s.line k).arrivals ≠ 0 ∧ n ≠ (s.line k).parts then (s.reg Reg.sigConflict + 1) % 2 ^ 32
      else s.reg Reg.sigConflict := by
  unfold State.arrive
  simp only [unfired, Bool.false_eq_true, if_false]
  split
  · exact State.reg_count_same s _ 1
  · rfl

/-- What an arrival of N participants at line k leaves: the line, the counts of R197, and every other line as it was. -/
structure Arrival (s t : State) (k n : Nat) : Prop where
  unfired : (s.line k).fired = false → t.line k = (s.line k).withArrival n ∧ t.reg Reg.sigConflict =
    if (s.line k).arrivals ≠ 0 ∧ n ≠ (s.line k).parts then (s.reg Reg.sigConflict + 1) % 2 ^ 32
    else s.reg Reg.sigConflict
  fired : (s.line k).fired = true → t.line k = s.line k ∧ t.reg Reg.sigExcess = (s.reg Reg.sigExcess + 1) % 2 ^ 32
  other : ∀ j, j ≠ k → t.line j = s.line j

theorem State.arrive_cores (s : State) (k n : Nat) : (s.arrive k n).cores = s.cores := by
  rw [State.arrive_rest]

theorem State.arrive_arrival (s : State) (k n : Nat) : Arrival s (s.arrive k n) k n where
  unfired h := ⟨State.arrive_line_unfired h n, State.arrive_conflict h n⟩
  fired h := by
    rw [State.arrive_fired h]
    exact ⟨State.line_of_lines (s.count_lines _ 1) k, State.reg_count_same s _ 1⟩
  other _ hj := s.arrive_line_other n hj

/-- The sequencer's work after an arrival touches neither the lines nor their counts. -/
theorem Arrival.after {s t u : State} {k n c : Nat} (h : Arrival s t k n) (g : SeqOnly c t u) : Arrival s u k n := by
  have lines : ∀ j, u.line j = t.line j := State.line_of_lines g.lines
  obtain ⟨unfired, fired, other⟩ := h
  rw [← lines k, ← g.reg Reg.sigConflict (by decide) (by decide) (by decide)] at unfired
  rw [← lines k, ← g.reg Reg.sigExcess (by decide) (by decide) (by decide)] at fired
  exact ⟨unfired, fired, fun j hj => (lines j).trans (other j hj)⟩

/-! ### Arrivals of a core -/

theorem State.lt_of_coreOn {s : State} {c : Nat} (on : s.coreOn c = true) : c < 128 := by
  simp only [State.coreOn, Bool.and_eq_true, decide_eq_true_eq] at on
  exact on.1

theorem exec_raise_arrives {s : State} {c : Nat} (on : s.coreOn c = true) (line : LineRef) (n : Nat) :
    exec (.raise c line n) s =
      .next ((s.arrive (lineKey c line (s.syncBeat c)) n).syncDone c (.raise line n)) := by
  simp [execRaise, Nat.not_le.mpr (State.lt_of_coreOn on), on]

/-- A BARRIER that does not hold yet arrives, its word then being a WAIT, and passes or holds as the line has fired. -/
theorem exec_barrier_arrives {s : State} {c : Nat} {line : LineRef} (on : s.coreOn c = true)
    (fresh : (s.core c).seq.holding ≠ some (.wait line)) (n : Nat) :
    ∃ u, SeqOnly c (s.arrive (lineKey c line (s.syncBeat c)) n) u ∧ exec (.barrier c line n) s =
      .next (if (u.line (lineKey c line (s.syncBeat c))).fired then u.syncDone c (.wait line)
        else u.syncHold c (.wait line)) := by
  simp only [exec_barrier, execBarrier, if_neg (Nat.not_le.mpr (State.lt_of_coreOn on)), State.onCore_on on,
    decide_eq_false fresh, Bool.false_eq_true, if_false]
  refine ⟨_, SeqOnly.setCore _ _ ?_, rfl⟩
  dsimp only
  split
  · split <;> rfl
  · rfl

theorem State.syncPassOrHold_only (s : State) (c : Nat) (op : SyncOp) (p : Prop) [Decidable p] :
    SeqOnly c s (if p then s.syncDone c op else s.syncHold c op) := by
  split
  · exact s.syncDone_only c op
  · exact s.syncHold_only c op

/-! ### Arrivals of the agents beside the cores -/

theorem exec_agent_arrives {s : State} {c n : Nat} {line : LineRef} (agent : 128 ≤ c) :
    ∀ i ∈ [Instr.raise c line n, Instr.barrier c line n], exec i s = .next (s.agentArrives c line n) := by
  simp [execRaise, execBarrier, agent]

/-- Settles O8: one arrival, then only the sequencer's work of the core that arrives. -/
theorem arrivalsFireALine : Obligations.ArrivalsFireALine := by
  refine ⟨fun s c n line on => ?core, fun s c n line agent => ?agents⟩
  case core =>
    intro k l parts
    refine ⟨?_, fun fresh => ?_⟩
    · obtain ⟨unfired, fired, other⟩ := (s.arrive_arrival k n).after (State.syncDone_only _ c (.raise line n))
      exact ⟨_, exec_raise_arrives on line n, State.syncDone_holding _ c _, unfired, fired, other⟩
    · obtain ⟨u, only, run⟩ := exec_barrier_arrives on fresh n
      have arrived : Arrival s u k n := (s.arrive_arrival k n).after only
      obtain ⟨unfired, fired, other⟩ :=
        arrived.after (u.syncPassOrHold_only c (.wait line) ((u.line k).fired = true))
      have holding := u.sync_holding c (.wait line) ((u.line k).fired = true)
      refine ⟨_, run, fun h => ⟨(unfired h).1, holding.trans ?_⟩,
        fun h => ⟨(fired h).1, holding.trans ?_, (fired h).2⟩, other⟩
      · rw [(arrived.unfired h).1]
        simp [Line.withArrival, parts, l]
      · rw [(arrived.fired h).1]
        exact if_pos h
  case agents =>
    intro k l parts i hi
    refine ⟨fun may => ?_, fun mayNot => ?_⟩
    · have run : s.agentArrives c line n = s.arrive k n := if_pos may
      obtain ⟨unfired, fired, other⟩ := s.arrive_arrival k n
      exact ⟨_, (exec_agent_arrives agent i hi).trans (congrArg _ run), s.arrive_cores k n, unfired,
        fired, other⟩
    · have run : s.agentArrives c line n = s := if_neg (by simp [mayNot])
      exact (exec_agent_arrives agent i hi).trans (congrArg _ run)

end Sys2Proof.Machine
end

section
/-! SUPPORT and O9. The words a sequencer has left, what WORD_ISSUE makes of them (R189), and what CONFIG (R194) and SPLICE
(R203) leave while words are left. -/

namespace Sys2Proof.Machine

open Sys2Proof

/-! ### Words that are left -/

/-- The words the sequencer issues from: of the segment it replays, or of its list. -/
def Sequencer.words (q : Sequencer) : List TWord := if q.replaying then q.segLeft else q.left

theorem Sequencer.head_eq (q : Sequencer) : q.head = q.words.head? := by
  unfold Sequencer.head Sequencer.words
  split <;> rfl

theorem Sequencer.words_replaceHead (q : Sequencer) (l : List TWord) : (q.replaceHead l).words = l ++ q.words.tail := by
  unfold Sequencer.replaceHead Sequencer.words
  by_cases h : q.replaying = true <;> simp [h]

/-- A splice with words left goes on. -/
theorem Core.spliceEnd_words {k : Core} (h : k.seq.words ≠ []) : k.spliceEnd = k := by
  refine if_neg fun ⟨replaying, empty⟩ => h ?_
  rw [Sequencer.words, if_pos replaying, empty]

/-- With words left to issue, an invocation does not end. -/
theorem State.checkEnd_words {s : State} {c : Nat} (h : (s.core c).seq.words ≠ []) : s.checkEnd c = s := by
  refine if_neg fun ⟨_, left, segLeft, _⟩ => h ?_
  rw [Sequencer.words, left, segLeft, ite_self]

/-! ### WORD_ISSUE -/

/-- A core with the slots of a word at the ends of their engines' queues, and the word issued. -/
def Core.issued (k : Core) (w : TWord) : Core :=
  w.slots.foldl (fun k x => k.setQueue x.engine { k.queue x.engine with waiting := (k.queue x.engine).waiting ++ [x] })
    { k with seq := k.seq.replaceHead [] }

theorem Core.issued_seq (k : Core) (w : TWord) : (k.issued w).seq = k.seq.replaceHead [] :=
  foldl_keeps Core.seq (fun k _ => k.setQueue_seq _ _) w.slots _

/-- The engines of a word's slots dequeue their next slots. -/
def State.refills (s : State) (c : Nat) (w : TWord) : State := w.slots.foldl (fun s x => s.refill c x.engine) s

theorem State.refill_seq (s : State) (c : Nat) (e : Engine) : ((s.refill c e).core c).seq = (s.core c).seq := by
  dsimp only [State.refill]
  split
  · rfl
  · rw [State.core_count, State.core_count, State.core_setCore_same, Core.setQueue_seq]

theorem State.refills_seq (s : State) (c : Nat) (w : TWord) : ((s.refills c w).core c).seq = (s.core c).seq :=
  foldl_keeps (fun t : State => (t.core c).seq) (f := fun t (x : EngSlot) => t.refill c x.engine)
    (fun t x => t.refill_seq c x.engine) w.slots s

theorem State.refills_seqStall (s : State) (c : Nat) (w : TWord) :
    (s.refills c w).reg Reg.seqStall = s.reg Reg.seqStall :=
  foldl_keeps (fun t : State => t.reg Reg.seqStall) (f := fun t (x : EngSlot) => t.refill c x.engine)
    (fun t x => (t.refill_only c x.engine).reg _ (by decide) (by decide) (by decide)) w.slots s

/-- Whether a word names an engine whose queue is full. -/
def Core.queueFull (k : Core) (w : TWord) : Bool :=
  w.slots.any (fun x => decide (8 ≤ (k.queue x.engine).waiting.length))

section Issue

variable {s : State} {c : Nat} {w : TWord} {ws : List TWord} (on : s.coreOn c = true)
  (running : (s.core c).seq.running = true) (free : (s.core c).seq.holding = none)
  (words : (s.core c).seq.words = w :: ws) (plain : w.sync = none) (good : (s.core c).headBad = false)
include on running free words plain good

theorem exec_wordIssue_stalls (full : (s.core c).queueFull w = true) :
    exec (.wordIssue c) s = .next (s.count Reg.seqStall 1) := by
  have head : (s.core c).seq.head = some w := by rw [Sequencer.head_eq, words]; rfl
  unfold Core.queueFull at full
  simp [execWordIssue, on, running, free, head, good, plain, full]

/-- A word that is not the last of those left issues, and neither its splice nor its invocation ends. -/
theorem exec_wordIssue_issues (more : ws ≠ []) (room : (s.core c).queueFull w = false) :
    exec (.wordIssue c) s = .next ((s.setCore c ((s.core c).issued w)).refills c w) := by
  have head : (s.core c).seq.head = some w := by rw [Sequencer.head_eq, words]; rfl
  have left : ((s.core c).issued w).seq.words ≠ [] := by
    rw [Core.issued_seq, Sequencer.words_replaceHead, words]
    exact more
  have goesOn : (((s.setCore c ((s.core c).issued w)).refills c w).core c).seq.words ≠ [] := by
    rw [State.refills_seq, State.core_setCore_same]
    exact left
  have run : exec (.wordIssue c) s = .next (((s.setCore c ((s.core c).issued w).spliceEnd).refills c w).checkEnd c) := by
    unfold Core.queueFull at room
    simp only [exec_wordIssue, execWordIssue, on, running, free, head, good, plain, room]
    rfl
  rw [run, Core.spliceEnd_words left, State.checkEnd_words goesOn]

end Issue

theorem State.refills_issued_words (s : State) (c : Nat) (w : TWord) :
    (((s.setCore c ((s.core c).issued w)).refills c w).core c).seq.words = (s.core c).seq.words.tail := by
  rw [State.refills_seq, State.core_setCore_same, Core.issued_seq, Sequencer.words_replaceHead, List.nil_append]

/-! ### CONFIG and SPLICE -/

/-- Outside a splice, a satisfied SYNC operation takes at most its own word off the list. -/
theorem Core.stripSync_list {k : Core} (h : k.seq.replaying = false) (op : SyncOp) :
    ∃ l, k.stripSync op = { k with seq := { k.seq with left := l, holding := none } } ∧
      k.seq.left.length ≤ l.length + 1 := by
  have replaced : ∀ ws, k.seq.replaceHead ws = { k.seq with left := ws ++ k.seq.left.tail } := fun ws => by
    simp [Sequencer.replaceHead, h]
  unfold Core.stripSync
  split
  · split
    · rw [replaced]
      exact ⟨_, rfl, by simp; omega⟩
    · exact ⟨_, rfl, Nat.le_succ _⟩
  · exact ⟨_, rfl, Nat.le_succ _⟩

/-- Outside a splice, with a word left after the next one, a satisfied SYNC operation only takes its word off. -/
theorem State.syncDone_list {s : State} {c : Nat} (more : 1 < (s.core c).seq.left.length)
    (h : (s.core c).seq.replaying = false) (op : SyncOp) :
    ∃ l, s.syncDone c op = s.setCore c { s.core c with seq := { (s.core c).seq with left := l, holding := none } } := by
  obtain ⟨l, strip, len⟩ := Core.stripSync_list h op
  have left : l ≠ [] := List.ne_nil_of_length_pos (by omega)
  refine ⟨l, ?_⟩
  rw [State.syncDone, strip, Core.spliceEnd_words (by simpa [Sequencer.words, h] using left), State.checkEnd_left]
  rw [State.core_setCore_same]
  exact left

/-- The four comparator settings of an invocation. -/
def Sequencer.comparators (q : Sequencer) : List CmpSetting :=
  (List.range 4).map (fun i => q.settings.getD i ⟨0, .lt, .imm 0⟩)

theorem exec_config_sets {s : State} {c cp : Nat} (on : s.coreOn c = true) (setting : CmpSetting)
    (more : 1 < (s.core c).seq.left.length) (h : (s.core c).seq.replaying = false) :
    ∃ t, exec (.config c cp setting) s = .next t ∧ (t.core c).seq.holding = none ∧
      (t.core c).seq.settings = (s.core c).seq.comparators.set cp setting := by
  let u := s.updCore c (fun k => { k with seq := { k.seq with settings := k.seq.comparators.set cp setting } })
  have core : u.core c =
      { s.core c with seq := { (s.core c).seq with settings := (s.core c).seq.comparators.set cp setting } } :=
    State.core_setCore_same _ _ _
  obtain ⟨l, done⟩ := State.syncDone_list (s := u) (c := c) (by rw [core]; exact more) (by rw [core]; exact h)
    (.config cp setting)
  refine ⟨u.syncDone c (.config cp setting), ?_, State.syncDone_holding _ _ _, ?_⟩
  · simp only [exec_config, execConfig, State.onCore_on on]
    rfl
  · rw [done, State.core_setCore_same, core]

/-- A core that replays the segment of beat b, which is ACTIVE (R203). -/
def Core.spliced (k : Core) (b : Nat) : Core :=
  { (k.stripSync .splice).setSeg b { k.seg b with state := 3 } with
    seq := { (k.stripSync .splice).seq with segLeft := (k.seg b).words, replaying := true, beat := b } }

theorem Core.spliced_seg (k : Core) (b : Nat) : (k.spliced b).seg b = { k.seg b with state := 3 } :=
  (k.stripSync .splice).seg_setSeg_same b _

theorem exec_splice_replays {s : State} {c : Nat} (on : s.coreOn c = true)
    (sealed : ((s.core c).seg (s.syncBeat c)).state = 2) (words : ((s.core c).seg (s.syncBeat c)).words ≠ []) :
    exec (.splice c) s = .next (s.setCore c ((s.core c).spliced (s.syncBeat c))) := by
  have left : ((s.core c).spliced (s.syncBeat c)).seq.words ≠ [] := words
  have run : exec (.splice c) s = .next ((s.setCore c ((s.core c).spliced (s.syncBeat c)).spliceEnd).checkEnd c) := by
    simp only [exec_splice, execSplice, on, sealed]
    rfl
  rw [run, Core.spliceEnd_words left, State.checkEnd_words (by rwa [State.core_setCore_same])]

theorem exec_splice_holds {s : State} {c : Nat} (on : s.coreOn c = true)
    (unsealed : ((s.core c).seg (s.syncBeat c)).state ≠ 2) : exec (.splice c) s = .next (s.syncHold c .splice) := by
  simp [execSplice, on, unsealed]

/-- Settles O9: each command's own lemma; the four comparators are a list of four with one entry set. -/
theorem wordsConfigAndSplice : Obligations.WordsConfigAndSplice := by
  intro s c on
  refine ⟨fun w ws running free words more plain good => ?_, fun cp setting small more unspliced => ?_,
    fun sealed _ _ words => ?_, fun unsealed => ?_⟩
  · cases full : (s.core c).queueFull w
    · refine ⟨_, exec_wordIssue_issues on running free words plain good more full,
        (if_neg (Bool.eq_false_iff.mp full)).mpr ⟨(s.refills_issued_words c w).trans (congrArg List.tail words), ?_⟩⟩
      rw [State.refills_seqStall, State.reg_setCore]
    · exact ⟨_, exec_wordIssue_stalls on running free words plain good full, (if_pos full).mpr rfl⟩
  · obtain ⟨t, run, holding, settings⟩ := exec_config_sets on setting more unspliced
    refine ⟨t, run, holding, ?_, fun j hj other => ?_⟩
    · rw [settings, List.getElem?_set_self (by simpa [Sequencer.comparators] using small)]
    · rw [settings, List.getElem?_set_ne other.symm]
      simp [Sequencer.comparators, hj]
  · refine ⟨_, exec_splice_replays on sealed words, ?_⟩
    rw [State.core_setCore_same, Core.spliced_seg]
    exact ⟨rfl, rfl, rfl, rfl⟩
  · exact ⟨_, exec_splice_holds on unsealed, s.syncHold_holding c .splice⟩

end Sys2Proof.Machine
end

section
/-! SUPPORT and O47. What the loader makes of an object that a role writes to a bank (R199, R200, R207) or to SEG_TEMPLATES
(R208): the dictionary's checks on the object's row, then the loader's own. -/

namespace Sys2Proof.Machine

open Sys2Proof

/-! ### Banks of a core -/

theorem Core.bank_setBank_same (k : Core) (b : Nat) (x : Bank) : (k.setBank b x).bank b = x := by
  unfold Core.bank Core.setBank
  split <;> rfl

theorem Core.bank_setBank_other (k : Core) {b : Nat} (h : b < 2) (x : Bank) :
    (k.setBank b x).bank (1 - b) = k.bank (1 - b) := by
  obtain rfl | rfl : b = 0 ∨ b = 1 := by omega
  · rfl
  · rfl

/-! ### Rows of the loader's objects -/

/-- The row of BANK0 and BANK1 in the dictionary (R209). -/
def bankRow (sub : Nat) : ObjRow :=
  ⟨0x4000, 0x407F, sub, sub, .dom, .rw, [.op, .mgr, .ten], 0, false, false, 262208, false, 1, true, .none, false⟩

/-- The row of SEG_TEMPLATES (R209). -/
def segTemplatesRow : ObjRow :=
  ⟨0x4000, 0x407F, 8, 8, .dom, .rw, [.op, .mgr, .ten], 0, true, false, 1048640, false, 1, true, .none, false⟩

/-- A row of the dictionary stands for every core or for none. -/
theorem catalogue_cores : ∀ row ∈ catalogue,
    row.last < 0x4000 ∨ 0x407F < row.index ∨ (row.index ≤ 0x4000 ∧ 0x407F ≤ row.last) := by decide +kernel

/-- The objects of each core have the rows of those of core 0. -/
theorem findRow_core {c : Nat} (hc : c < 128) (sub : Nat) : findRow (0x4000 + c) sub = findRow 0x4000 sub := by
  refine List.find?_congr fun row hrow => ?_
  have all := catalogue_cores row hrow
  have first : (row.index ≤ 0x4000 + c ∧ 0x4000 + c ≤ row.last) = (row.index ≤ 0x4000 ∧ 0x4000 ≤ row.last) :=
    propext (by omega)
  simp only [← Bool.decide_and, first]

theorem rowOf_bank {c b : Nat} (hc : c < 128) (hb : b < 2) : rowOf (0x4000 + c) (1 + b) = some (bankRow (1 + b)) := by
  have row : findRow 0x4000 (1 + b) = some (bankRow (1 + b)) :=
    (by decide +kernel : ∀ b < 2, findRow 0x4000 (1 + b) = some (bankRow (1 + b))) b hb
  rw [rowOf, findRow_core hc, row]

theorem rowOf_segTemplates {c : Nat} (hc : c < 128) : rowOf (0x4000 + c) 8 = some segTemplatesRow := by
  have row : findRow 0x4000 8 = some segTemplatesRow := by decide +kernel
  rw [rowOf, findRow_core hc, row]

/-- No object of a core has reserved bits. -/
theorem rsvdFields_core (c sub : Nat) : rsvdFields (0x4000 + c) sub = (1, []) := by
  rw [rsvdFields]
  all_goals omega

theorem reservedClear_core (c sub : Nat) (b : Blob) : reservedClear (0x4000 + c) sub b = true :=
  List.all_eq_true.mpr fun x _ => by
    have empty : rsvdByte [] (x.1 % 1) = 0 := rfl
    simp [rsvdFields_core, empty]

/-- A byte string of at least one byte has a length that a row of no fixed length takes. -/
theorem lengthCode_dom {row : ObjRow} {n : Nat} (bytes : row.isBytes = true) (free : row.fixed = false)
    (item : row.item = 1) (nonempty : n ≠ 0) (bound : n ≤ row.maxLen) : lengthCode row n = 0 := by
  simp [lengthCode, bytes, free, item, nonempty, Nat.not_lt.mpr bound, Nat.mod_one]

/-- The loader takes a whole transfer of at least one byte to either bank. -/
theorem State.bytesCommand_bank (s : State) (r : Role) {c b : Nat} (hc : c < 128) (hb : b < 2) {obj : List Byte}
    (whole : obj ≠ []) : s.bytesCommand r (0x4000 + c) (1 + b) obj = some (s.writeBank c b obj) := by
  have inside : 0x4000 ≤ 0x4000 + c ∧ 0x4000 + c < 0x4080 := by omega
  have taken : s.writeBankObj c b obj = s.writeBank c b obj := if_neg whole
  rw [← taken]
  obtain rfl | rfl : b = 0 ∨ b = 1 := by omega
  · rw [State.bytesCommand, if_pos inside, Nat.add_sub_cancel_left]
    omega
  · rw [State.bytesCommand, if_pos inside, Nat.add_sub_cancel_left]
    omega

/-! ### Banks -/

/-- A write to a bank that passes the dictionary's checks is the loader's. -/
theorem exec_bankWrite_writes {s : State} {r : Role} {c b : Nat} {obj : List Byte} (hc : c < 128) (hb : b < 2)
    (may : s.mayWrite r (objKey (0x4000 + c) (1 + b))) (whole : obj ≠ []) (bound : obj.length ≤ 262208) :
    exec (.bankWrite r c b obj) s = .next (answer r (s.writeBank c b obj)) := by
  have access : s.accessCode r (0x4000 + c) (1 + b) true = 0 := by
    have h := may.2
    rwa [keyIndex_objKey _ (by omega), keySub_objKey, Nat.mod_eq_of_lt (by omega)] at h
  have length : lengthCode (bankRow (1 + b)) obj.length = 0 :=
    lengthCode_dom rfl rfl rfl (mt List.length_eq_zero_iff.mp whole) bound
  have write : s.writeObject r (0x4000 + c) (1 + b) obj = s.writeBank c b obj := by
    have bytes : (bankRow (1 + b)).isBytes = true := rfl
    have live : (bankRow (1 + b)).staged = false := rfl
    simp [State.writeObject, access, rowOf_bank hc hb, length, bytes, State.writeDom, reservedClear_core, live,
      State.bytesCommand_bank s r hc hb whole]
  rw [exec_bankWrite, execBankWrite, Nat.mod_eq_of_lt hc, Nat.mod_eq_of_lt hb, State.command_of_mayWrite may, write]

theorem State.writeBank_passed {s : State} {c b : Nat} (free : s.bankCheck c b = 0) (obj : List Byte) :
    s.writeBank c b obj = s.loadBank c b obj :=
  if_neg (not_not_intro free)

/-- A write to a bank that is loading, ACTIVE, DRAINING or staged is refused. -/
theorem State.writeBank_refused {s : State} {c b : Nat} (busy : s.bankCheck c b ≠ 0) (obj : List Byte) :
    s.writeBank c b obj = (s.bankCheck c b, s) :=
  if_pos busy

/-- LOAD_ABORT is no role's last abort code. -/
theorem loadAbort_ne_lastAbort (c : Nat) (r : Role) : Reg.loadAbort c ≠ Reg.lastAbort (roleNum r + 1) := by
  have h : roleNum r < 4 := by cases r <;> decide
  unfold Reg.loadAbort Reg.lastAbort objKey
  omega

theorem answer_cores (r : Role) (x : Result) : (answer r x).cores = x.2.cores := by
  unfold answer
  split <;> rfl

theorem answer_lastAbort {r : Role} {x : Result} (failed : x.1 ≠ 0) :
    (answer r x).reg (Reg.lastAbort (roleNum r + 1)) = x.1 := by
  rw [answer, if_neg failed, State.reg_setReg_same]

/-- What a loader object that passes the checks leaves in a bank: VALID, with its list, its digest and its bytes. -/
def loadedBank (obj : List Byte) : Bank :=
  ⟨2, Blob.ofBytes obj, bytesAt obj 24 32, Config.decodeTimetable (obj.drop 64)⟩

theorem State.loadBank_valid {s : State} {c b : Nat} {obj : List Byte} (ok : s.loaderCheck c 1 obj = 0) (hb : b < 2) :
    (s.loadBank c b obj).1 = 0 ∧ ((s.loadBank c b obj).2.core c).bank b = loadedBank obj ∧
      ((s.loadBank c b obj).2.core c).bank (1 - b) = (s.core c).bank (1 - b) ∧
      ∀ k, (s.loadBank c b obj).2.reg k = s.reg k := by
  have load : s.loadBank c b obj = (0, s.updCore c (fun k => { k.setBank b (loadedBank obj) with
      ttBad := (s.core c).ttBad.filter (fun w => w.1 != b) })) := if_neg (not_not_intro ok)
  rw [load]
  simp only [State.core_updCore, if_pos]
  exact ⟨trivial, (s.core c).bank_setBank_same b _, (s.core c).bank_setBank_other hb _, fun k => State.reg_updCore _ _ _ _⟩

theorem State.loadBank_invalid {s : State} {c b : Nat} {obj : List Byte} (bad : s.loaderCheck c 1 obj ≠ 0) (hb : b < 2) :
    (s.loadBank c b obj).1 = s.loaderCheck c 1 obj ∧
      ((s.loadBank c b obj).2.core c).bank b = { Bank.empty with state := 3 } ∧
      ((s.loadBank c b obj).2.core c).bank (1 - b) = (s.core c).bank (1 - b) ∧
      (s.loadBank c b obj).2.reg (Reg.loadAbort c) = s.loaderCheck c 1 obj := by
  have load : s.loadBank c b obj = (s.loaderCheck c 1 obj,
      (s.updCore c (fun k => k.setBank b { Bank.empty with state := 3 })).setReg (Reg.loadAbort c)
        (s.loaderCheck c 1 obj)) := if_pos bad
  rw [load]
  simp only [State.core_setReg, State.core_updCore, if_pos]
  exact ⟨trivial, (s.core c).bank_setBank_same b _, (s.core c).bank_setBank_other hb _, State.reg_setReg_same _ _ _⟩

/-! ### Templates -/

/-- A property of 0 and of each code of a list holds of the first that fails. -/
theorem firstFail_of {p : Nat → Prop} {l : List (Bool × Nat)} (zero : p 0) (codes : ∀ e ∈ l, p e.2) :
    p (firstFail l) := by
  induction l with
  | nil => exact zero
  | cons e l ih =>
    obtain ⟨head, tail⟩ := List.forall_mem_cons.mp codes
    unfold firstFail
    split
    · exact head
    · exact ih tail

/-- The loader's codes are none of a write during the role's pending commit (R52). -/
theorem State.loaderCheck_ne (s : State) (c kind : Nat) (obj : List Byte) : s.loaderCheck c kind obj ≠ abortCode 5 4 := by
  dsimp only [State.loaderCheck]
  split
  · exact firstFail_of (p := (· ≠ abortCode 5 4)) (by decide) (by simp [abortCode])
  · split
    · exact firstFail_of (p := (· ≠ abortCode 5 4)) (by decide) (by simp [abortCode])
    · exact firstFail_of (p := (· ≠ abortCode 5 4)) (by decide) (by simp [abortCode])

/-- With no commit pending, a template object is refused for the loader's checks alone. -/
theorem State.stageCode_segTemplates {s : State} {r : Role} {c : Nat} {obj : List Byte} (hc : c < 128) (whole : obj ≠ [])
    (free : mapGet (roleNum r) s.commits = none) : s.stageCode r (0x4000 + c) 8 obj = s.loaderCheck c 2 obj := by
  have below : 0x4000 + c < 0x4080 := by omega
  have gate : isGateTable (0x4000 + c) 8 = false := by simp [isGateTable]
  have passed (code : Nat) : (if code ≠ 0 then code else 0) = code := by
    split
    · rfl
    · omega
  simp [State.stageCode, free, gate, below, whole, firstFail, passed]

theorem exec_segTemplatesWrite_stages {s : State} {r : Role} {c : Nat} {obj : List Byte} (hc : c < 128)
    (may : s.mayWrite r (objKey (0x4000 + c) 8)) (whole : obj ≠ []) (bound : obj.length ≤ 1048640) :
    exec (.segTemplatesWrite r c obj) s =
      .next (answer r (s.stageBytes r (0x4000 + c) 8 (Reg.segTemplates c) (Blob.ofBytes obj) obj)) := by
  have access : s.accessCode r (0x4000 + c) 8 true = 0 := by
    have h := may.2
    rwa [keyIndex_objKey _ (by decide), keySub_objKey, Nat.mod_eq_of_lt (by decide)] at h
  have length : lengthCode segTemplatesRow obj.length = 0 :=
    lengthCode_dom rfl rfl rfl (mt List.length_eq_zero_iff.mp whole) bound
  have write : s.writeObject r (0x4000 + c) 8 obj =
      s.stageBytes r (0x4000 + c) 8 (Reg.segTemplates c) (Blob.ofBytes obj) obj := by
    have bytes : segTemplatesRow.isBytes = true := rfl
    have staged : segTemplatesRow.staged = true := rfl
    have key : s.keyOf r segTemplatesRow (0x4000 + c) 8 = Reg.segTemplates c := Nat.add_zero _
    simp [State.writeObject, access, rowOf_segTemplates hc, length, bytes, State.writeDom, reservedClear_core, staged, key]
  rw [exec_segTemplatesWrite, execSegTemplatesWrite, Nat.mod_eq_of_lt hc, State.command_of_mayWrite may, write]

section Stage

variable {s : State} {r : Role} {c : Nat} {obj : List Byte} (hc : c < 128) (whole : obj ≠ [])
  (free : mapGet (roleNum r) s.commits = none)
include hc whole free

/-- A template object that passes its checks joins the role's shadow set. -/
theorem State.stageBytes_segTemplates (ok : s.loaderCheck c 2 obj = 0) (b : Blob) :
    s.stageBytes r (0x4000 + c) 8 (Reg.segTemplates c) b obj =
      (0, s.setShadow r { s.shadow r with doms := mapSet (Reg.segTemplates c) b (s.shadow r).doms }) := by
  have gate : isGateTable (0x4000 + c) 8 = false := by simp [isGateTable]
  simp [State.stageBytes, State.stageCode_segTemplates hc whole free, ok, State.claim, gate]

/-- One that fails stages nothing, and its code is kept in LOAD_ABORT (R209). -/
theorem State.stageBytes_segTemplates_refused (bad : s.loaderCheck c 2 obj ≠ 0) (b : Blob) :
    s.stageBytes r (0x4000 + c) 8 (Reg.segTemplates c) b obj =
      (s.loaderCheck c 2 obj, s.setReg (Reg.loadAbort c) (s.loaderCheck c 2 obj)) := by
  have below : 0x4000 + c < 0x4080 := by omega
  simp [State.stageBytes, State.stageCode_segTemplates hc whole free, bad, State.noteLoad, below, s.loaderCheck_ne c 2 obj]

end Stage

theorem answer_shadow (r : Role) (x : Result) (q : Role) : (answer r x).shadow q = x.2.shadow q := by
  unfold answer
  split <;> rfl

/-- Settles O47: the dictionary's checks pass the object on, and a bank or a shadow set takes it as the loader's checks say. -/
theorem loaderObjectsAreChecked : Obligations.LoaderObjectsAreChecked := by
  intro s r c obj hc
  refine ⟨fun b hb may whole bound free => ?_, fun b hb may whole bound busy => ?_, fun may whole bound free => ?_⟩
  · refine ⟨_, exec_bankWrite_writes hc hb may whole bound, ?_⟩
    have abort := answer_reg r (s.loadBank c b obj) (loadAbort_ne_lastAbort c r)
    rw [State.writeBank_passed free, State.core_of_cores (answer_cores r _)]
    by_cases ok : s.loaderCheck c 1 obj = 0
    · obtain ⟨-, bank, other, regs⟩ := State.loadBank_valid ok hb
      exact ⟨fun _ => ⟨bank, abort.trans (regs _)⟩, fun bad => absurd ok bad, other⟩
    · obtain ⟨code, bank, other, kept⟩ := State.loadBank_invalid ok hb
      have last := answer_lastAbort (r := r) (code ▸ ok : (s.loadBank c b obj).1 ≠ 0)
      exact ⟨fun h => absurd h ok, fun _ => ⟨congrArg Bank.state bank, abort.trans kept, last.trans code⟩, other⟩
  · refine ⟨_, exec_bankWrite_writes hc hb may whole bound, ?_⟩
    rw [State.writeBank_refused busy]
    exact ⟨answer_cores r _, answer_lastAbort busy⟩
  · refine ⟨_, exec_segTemplatesWrite_stages hc may whole bound, ?_⟩
    by_cases ok : s.loaderCheck c 2 obj = 0
    · rw [State.stageBytes_segTemplates hc whole free ok]
      refine ⟨answer_cores r _, fun _ => ?_, fun bad => absurd ok bad⟩
      rw [answer_shadow, State.shadow_setShadow]
      exact mapGet_mapSet_same _ _ _
    · rw [State.stageBytes_segTemplates_refused hc whole free ok]
      exact ⟨answer_cores r _, fun h => absurd h ok, fun _ => ⟨answer_shadow r _ r,
        (answer_reg r _ (loadAbort_ne_lastAbort c r)).trans (State.reg_setReg_same _ _ _)⟩⟩

end Sys2Proof.Machine
end

section
/-! SUPPORT. The ports (R217, R218, R221): reading one after an update of the state, the keys of their objects, and which
numbers the Junction changes where it routes, delivers, discards or truncates packets. -/

namespace Sys2Proof.Machine

open Sys2Proof

/-! ### Reading a port -/

theorem State.port_setPort (s : State) (x y : Nat) (p : Port) :
    (s.setPort x p).port y = if y = x then p else s.port y := mapGetD_mapSet _ _ _ _ _

@[simp] theorem State.port_setPort_same (s : State) (x : Nat) (p : Port) : (s.setPort x p).port x = p :=
  mapGetD_mapSet_same _ _ _ _

@[simp] theorem State.port_setReg (s : State) (k v x : Nat) : (s.setReg k v).port x = s.port x := rfl

@[simp] theorem State.port_count (s : State) (k n x : Nat) : (s.count k n).port x = s.port x := rfl

@[simp] theorem State.port_count64 (s : State) (k n x : Nat) : (s.count64 k n).port x = s.port x := rfl

@[simp] theorem State.reg_setPort (s : State) (x : Nat) (p : Port) (k : Nat) : (s.setPort x p).reg k = s.reg k := rfl

theorem State.port_report (s : State) (kind mid cause x : Nat) : (s.report kind mid cause).port x = s.port x := by
  dsimp only [State.report]
  split <;> rfl

/-! ### Keys -/

/-- Two objects of different sub-index have different keys. -/
theorem objKey_ne_of_sub {i j a b : Nat} (h : a % 256 ≠ b % 256) : objKey i a ≠ objKey j b := fun e =>
  h (by simpa using congrArg keySub e)

/-- The numbers that the Junction changes where it handles packets: its counters, and that of the reports. -/
def junctionKeys : List Nat :=
  [Reg.undeliverable, Reg.altUsed, Reg.rmCombined, Reg.rmCombineFull, Reg.foreignDiscard, Reg.faultReports]

/-- No object of the 60 ports is among them. -/
theorem portKey_not_junction {x sub : Nat} (hx : x < 60) (hs : sub < 256) : objKey (0x2300 + x) sub ∉ junctionKeys :=
  fun h => by
    have hk := (by decide : ∀ k ∈ junctionKeys, keyIndex k < 0x2300 ∨ 0x233C ≤ keyIndex k) _ h
    rw [keyIndex_objKey _ hs] at hk
    omega

/-! ### Numbers that the Junction leaves alone -/

section Junction

variable {k : Nat} (hk : k ∉ junctionKeys)
include hk

theorem State.junctionCount_reg (s : State) {j : Nat} (hj : j ∈ junctionKeys) (n : Nat) : (s.count j n).reg k = s.reg k :=
  State.reg_count_other _ _ (ne_of_mem_of_not_mem hj hk).symm

theorem State.tryCombine_reg {s t : State} {x : Nat} {p : Packet} (h : s.tryCombine x p = some t) :
    t.reg k = s.reg k := by
  unfold State.tryCombine at h
  repeat' split at h
  all_goals cases h
  all_goals exact State.junctionCount_reg hk _ (by decide) 1

theorem State.enqueue_reg (s : State) (x : Nat) (p : Packet) : (s.enqueue x p).reg k = s.reg k := by
  unfold State.enqueue
  split
  next h => exact State.tryCombine_reg hk h
  next =>
    dsimp only
    split
    · exact State.junctionCount_reg hk s (by decide) 1
    · rfl

theorem State.discardPacket_kept (s : State) (p : Packet) (cause : Nat) : (s.discardPacket p cause).reg k = s.reg k :=
  s.discardPacket_reg p cause (ne_of_mem_of_not_mem (by decide) hk).symm

theorem State.deliverPacket_reg (s : State) (p : Packet) : (s.deliverPacket p).reg k = s.reg k := by
  unfold State.deliverPacket
  split
  · split
    · unfold State.answerTime
      split <;> simp
    · rfl
  · exact State.junctionCount_reg hk s (by decide) 1

theorem State.routeUnicast_reg (s : State) (transit : Bool) (p : Packet) :
    (s.routeUnicast transit p).reg k = s.reg k := by
  unfold State.routeUnicast
  split
  next => exact State.deliverPacket_reg hk s p
  next x alt _ =>
    rw [State.enqueue_reg hk]
    split
    · exact State.junctionCount_reg hk s (by decide) 1
    · rfl
  next =>
    unfold State.holdPacket
    split <;> rfl
  next => exact State.discardPacket_kept hk s p 1

theorem State.routeMulticast_reg (s : State) (transit : Bool) (p : Packet) :
    (s.routeMulticast transit p).reg k = s.reg k := by
  unfold State.routeMulticast
  extract_lets dests own delivered queued waits held
  have hdelivered : delivered.reg k = s.reg k := by
    dsimp only [delivered]
    split
    · rfl
    · exact State.deliverPacket_reg hk s _
  have hqueued : queued.reg k = delivered.reg k := by
    refine foldl_keeps (State.reg · k) (fun t x => ?_) _ _
    dsimp only
    split
    · rfl
    · rw [State.enqueue_reg hk, State.junctionCount_reg hk t (by decide)]
  have hheld : held.reg k = queued.reg k := by
    dsimp only [held]
    split
    · rfl
    · unfold State.holdPacket
      split <;> rfl
  have hgone := foldl_keeps (State.reg · k)
    (fun t (d : (Nat × Nat) × RouteTo) => State.discardPacket_kept hk t (mcCopy p [d.1]) 1)
    (dests.filter (fun t => t.2 == .nowhere)) held
  exact hgone.trans (hheld.trans (hqueued.trans hdelivered))

theorem State.routePacket_reg (s : State) (transit : Bool) (p : Packet) :
    (s.routePacket transit p).reg k = s.reg k := by
  unfold State.routePacket
  split
  · exact State.routeMulticast_reg hk s transit p
  · exact State.routeUnicast_reg hk s transit p

end Junction

/-- Packets that leave the queues change no number. -/
theorem State.unqueueAll_regs (s : State) (named : Packet → Bool) (x : Nat) : (s.unqueueAll named x).regs = s.regs :=
  foldl_keeps State.regs (fun t e => by dsimp only [State.unqueue]; split <;> rfl) _ s

theorem State.truncateOnward_regs (s : State) (p : Packet) : (s.truncateOnward p).regs = s.regs := by
  unfold State.truncateOnward
  exact foldl_keeps State.regs (fun t x => t.unqueueAll_regs (samePacket p) x) _ _

theorem State.cutArrivals_regs (s : State) (x : Nat) : (s.cutArrivals x).regs = s.regs :=
  foldl_keeps State.regs State.truncateOnward_regs _ _

theorem State.closePort_reg {k : Nat} (hk : k ∉ junctionKeys) (s : State) (x : Nat) :
    (s.closePort x).reg k = s.reg k := by
  unfold State.closePort
  extract_lets p begun lost again emptied cut
  have hcut : cut.reg k = s.reg k :=
    (State.reg_of_regs (State.cutArrivals_regs _ x) k).trans
      (foldl_keeps (State.reg · k) (fun t q => State.discardPacket_kept hk t q 2) lost emptied)
  exact (foldl_keeps (State.reg · k) (fun t (e : Nat × Packet) => State.routePacket_reg hk t _ e.2) again cut).trans hcut

end Sys2Proof.Machine
end

section
/-! SUPPORT and O6. A multicast at its source (R239): what its mask selects, and which counters say so. -/

namespace Sys2Proof.Machine

open Sys2Proof

/-- A mask with ignored bits is counted, whatever it selects. -/
theorem State.multicast_badMask (s : State) (cls group func mask cluster : Nat) (ranks : List Nat) (b : Body) :
    (s.multicast cls group func mask cluster ranks b).reg Reg.mcastBadMask =
      if mask % 2 ^ ranks.length = mask then s.reg Reg.mcastBadMask else (s.reg Reg.mcastBadMask + 1) % 2 ^ 32 := by
  unfold State.multicast
  extract_lets eff counted ms ok ranked h
  have hcounted : counted.reg Reg.mcastBadMask =
      if eff = mask then s.reg Reg.mcastBadMask else (s.reg Reg.mcastBadMask + 1) % 2 ^ 32 := by
    by_cases whole : eff = mask
    · simp [counted, whole]
    · simp [counted, whole, Ne.symm whole]
  have hranked : ranked.reg Reg.mcastBadMask = counted.reg Reg.mcastBadMask := State.reg_count_other _ _ (by decide)
  rw [← hcounted]
  split
  · exact State.reg_count_other _ _ (by decide)
  split
  · exact hranked
  · rw [State.reg_count_other _ _ (by decide), State.reg_inject, hranked]

/-- A multicast that selects no member changes counters alone: it is counted in MCAST_ZERO and not in MCAST_SENT. -/
theorem State.multicast_empty (s : State) (cls group func cluster : Nat) {mask : Nat} {ranks : List Nat} (b : Body)
    (none' : mask % 2 ^ ranks.length = 0) :
    let t := s.multicast cls group func mask cluster ranks b
    t = { s with regs := t.regs } ∧ t.reg Reg.mcastZero = (s.reg Reg.mcastZero + 1) % 2 ^ 32 ∧
      t.reg Reg.mcastSent = s.reg Reg.mcastSent := by
  simp only [State.multicast, none', if_true, State.reg_count_same, State.reg_count_other _ _ (show
    Reg.mcastSent ≠ Reg.mcastZero by decide)]
  split
  · exact ⟨rfl, by rw [State.reg_count_other _ _ (by decide)], State.reg_count_other _ _ (by decide)⟩
  · exact ⟨rfl, rfl, rfl⟩

/-- Settles O6: the group's live record gives COUNT. -/
theorem emptyMulticastsAreDiscarded : Obligations.EmptyMulticastsAreDiscarded := by
  rintro s cls g mask cl n b hcls rfl
  have run : exec (.multicastInject cls g mask cl b) s =
      .next (s.multicast cls g (if cls = 5 then 3 else 2) mask cl (s.mcastRanks g) b) := by
    rw [exec_multicastInject, execMulticastInject, if_neg (by omega)]
  refine ⟨_, run, s.multicast_empty _ _ _ _ b, fun ignored => ?_, fun whole => ?_⟩
  · rw [State.multicast_badMask, if_neg ignored]
  · rw [State.multicast_badMask, if_pos whole]

end Sys2Proof.Machine
end

section
/-! SUPPORT and O28. A flit that arrives (R217, R218, R247, R441): what the port expects next, and the packet it begins. -/

namespace Sys2Proof.Machine

open Sys2Proof

/-! ### What a port expects -/

/-- What a port's receiver goes by: the SEQ it expects, and whether it discards until that one comes (R218). -/
def Port.receiver (p : Port) : Nat × Bool := (p.rxNext, p.rxRetry)

/-- An update of a port that keeps its receiver keeps every port's. -/
theorem State.receiver_setPort {s : State} {y : Nat} {p : Port} (h : p.receiver = (s.port y).receiver) (x : Nat) :
    ((s.setPort y p).port x).receiver = (s.port x).receiver := by
  rw [State.port_setPort]
  split
  next hx => rw [h, hx]
  next => rfl

theorem State.receiver_unqueueAll (s : State) (named : Packet → Bool) (y x : Nat) :
    ((s.unqueueAll named y).port x).receiver = (s.port x).receiver := by
  refine foldl_keeps (fun t : State => (t.port x).receiver) (fun t e => ?_) _ s
  dsimp only [State.unqueue]
  split <;> exact State.receiver_setPort (by rfl) x

theorem State.receiver_truncateOnward (s : State) (p : Packet) (x : Nat) :
    ((s.truncateOnward p).port x).receiver = (s.port x).receiver := by
  unfold State.truncateOnward
  exact foldl_keeps (fun t : State => (t.port x).receiver) (fun t y => t.receiver_unqueueAll (samePacket p) y x) _ _

theorem State.receiver_freeSlots (s : State) (y x : Nat) : ((s.freeSlots y).port x).receiver = (s.port x).receiver := by
  dsimp only [State.freeSlots]
  split
  · rfl
  · exact State.receiver_setPort (by rfl) x

theorem Port.receiver_joinFlit (p : Port) (h : FlitHdr) (payload : List Byte) :
    (p.joinFlit h payload).receiver = p.receiver := by
  dsimp only [Port.joinFlit]
  split <;> rfl

theorem Port.receiver_free (p : Port) (vc n : Nat) : (p.free vc n).receiver = p.receiver := by
  unfold Port.free
  split <;> rfl

/-- The ACK that a flit carries is taken. -/
def Port.acks (p : Port) (h : FlitHdr) : Port := if h.ackV then p.acked h.ack else p

theorem Port.receiver_acks (p : Port) (h : FlitHdr) : (p.acks h).receiver = p.receiver := by
  unfold Port.acks
  split <;> rfl

/-! ### An accepted flit -/

/-- After an accepted flit the port expects the next SEQ and discards none. -/
theorem State.acceptFlit_receiver (s : State) (x : Nat) (h : FlitHdr) (payload : List Byte) :
    ((s.acceptFlit x h payload).port x).receiver = (((s.port x).rxNext + 1) % 65536, false) := by
  unfold State.acceptFlit
  extract_lets p mine q counted gone n ended
  split
  · refine (foldl_keeps (fun t : State => (t.port x).receiver) (fun t p => t.receiver_truncateOnward p x) _ _).trans ?_
    rw [State.port_setPort_same, Port.receiver_free]
    rfl
  split
  · rw [State.port_setPort_same, Port.receiver_free]
    rfl
  · rw [State.receiver_freeSlots, State.port_setPort_same, Port.receiver_joinFlit]
    rfl

/-- An accepted flit is counted, and changes no other number. -/
theorem State.acceptFlit_regs (s : State) (x : Nat) (h : FlitHdr) (payload : List Byte) :
    (s.acceptFlit x h payload).regs = (s.count64 (Reg.rxFlits x) 1).regs := by
  unfold State.acceptFlit
  extract_lets p mine q counted gone n ended
  split
  · exact foldl_keeps State.regs State.truncateOnward_regs _ _
  split
  · rfl
  · dsimp only [State.freeSlots]
    split <;> rfl

/-- The arriving packet that a flit with SOP begins. -/
def FlitHdr.begins (h : FlitHdr) (payload : List Byte) : Arriving := ⟨h.vc, payload, 1, h.eop, none, 0⟩

/-- Buffer slots are freed of packets that the Junction has routed alone. -/
theorem State.mem_rx_freeSlots {s : State} {x : Nat} {a : Arriving} (new : a.pkt = none) (h : a ∈ (s.port x).rx) :
    a ∈ ((s.freeSlots x).port x).rx := by
  have unfreed : (s.freedBy a).1 = a := by simp [State.freedBy, new]
  dsimp only [State.freeSlots]
  rw [if_neg (List.ne_nil_of_mem h), State.port_setPort_same]
  refine List.mem_filter.mpr ⟨List.mem_map.mpr ⟨s.freedBy a, List.mem_map_of_mem h, unfreed⟩, ?_⟩
  simp [new]

/-- An accepted flit with SOP that does not truncate its packet begins one. -/
theorem State.acceptFlit_begins {h : FlitHdr} (first : h.sop = true) (whole : (h.eop && h.trunc) = false) (s : State)
    (x : Nat) (payload : List Byte) : h.begins payload ∈ ((s.acceptFlit x h payload).port x).rx := by
  dsimp only [State.acceptFlit]
  rw [if_neg (by simpa using whole), if_neg (by simp [first])]
  refine State.mem_rx_freeSlots rfl ?_
  rw [State.port_setPort_same, Port.joinFlit, if_pos first]
  exact List.mem_append_right _ (List.mem_singleton.mpr rfl)

/-! ### FLIT_RECEIVE -/

/-- The symbols that FEC corrected in a flit, and the codewords that it could not, are counted (R247). -/
def State.countFec (s : State) (x fixed lost : Nat) : State :=
  (s.count64 (Reg.fecCorrected x) fixed).count (Reg.fecUncorr x) lost

theorem State.port_countFec (s : State) (x fixed lost y : Nat) : (s.countFec x fixed lost).port y = s.port y := rfl

theorem State.reg_countFec_other (s : State) {x k : Nat} (fixed lost : Nat) (hc : k ≠ Reg.fecCorrected x)
    (hu : k ≠ Reg.fecUncorr x) : (s.countFec x fixed lost).reg k = s.reg k := by
  rw [State.countFec, State.reg_count_other _ _ hu, State.reg_count64_other _ _ hc]

theorem State.reg_countFec (s : State) (x fixed lost : Nat) :
    (s.countFec x fixed lost).reg (Reg.fecCorrected x) = (s.reg (Reg.fecCorrected x) + fixed) % 2 ^ 64 ∧
      (s.countFec x fixed lost).reg (Reg.fecUncorr x) = (s.reg (Reg.fecUncorr x) + lost) % 2 ^ 32 := by
  have apart : Reg.fecCorrected x ≠ Reg.fecUncorr x := objKey_ne_of_sub (by decide)
  constructor
  · rw [State.countFec, State.reg_count_other _ _ apart, State.reg_count64, if_pos rfl]
  · rw [State.countFec, State.reg_count_same, State.reg_count64_other _ _ apart.symm]

section Receive

variable {s : State} {x : Nat} {f : List Byte} (a b : Nat) (live : s.portLive x = true)
include live

/-- A flit with a bad CRC is counted and discarded with a retry request. -/
theorem exec_flitReceive_badCrc (bad : flitOk f = false) :
    exec (.flitReceive x f a b) s =
      .next (((s.countFec x a b).count (Reg.crcFails x) 1).setPort x (s.port x).refuseFlit) := by
  simp [execFlitReceive, State.countFec, live, bad]

variable (ok : flitOk f = true)
include ok

/-- A whole data flit with the expected SEQ is accepted. -/
theorem exec_flitReceive_accepts (data : (flitHdr f).type = 1) (vc : (flitHdr f).vc < 12)
    (next : (flitHdr f).seqNo = (s.port x).rxNext) :
    exec (.flitReceive x f a b) s =
      .next (((s.countFec x a b).setPort x ((s.port x).acks (flitHdr f))).acceptFlit x (flitHdr f) (flitPayload f)) := by
  have kept : ((s.port x).acks (flitHdr f)).rxNext = (s.port x).rxNext :=
    congrArg Prod.fst ((s.port x).receiver_acks (flitHdr f))
  rw [Port.acks] at kept ⊢
  simp [execFlitReceive, State.countFec, live, ok, data, vc, next, kept]

/-- One with another SEQ is discarded with a retry request, unless one has been made. -/
theorem exec_flitReceive_refuses (data : (flitHdr f).type = 1) (vc : (flitHdr f).vc < 12)
    (other : (flitHdr f).seqNo ≠ (s.port x).rxNext) :
    exec (.flitReceive x f a b) s =
      .next (if (s.port x).rxRetry then s.countFec x a b
        else (s.countFec x a b).setPort x ((s.port x).acks (flitHdr f)).refuseFlit) := by
  have kept : ((s.port x).acks (flitHdr f)).rxNext = (s.port x).rxNext :=
    congrArg Prod.fst ((s.port x).receiver_acks (flitHdr f))
  rw [Port.acks] at kept ⊢
  simp [execFlitReceive, State.countFec, live, ok, data, Nat.not_le.mpr vc, other, kept]

/-- A control flit brings the peer's credit totals, unless the port discards. -/
theorem exec_flitReceive_credits (control : (flitHdr f).type = 2) (open' : (s.port x).rxRetry = false) :
    exec (.flitReceive x f a b) s =
      .next ((s.countFec x a b).setPort x { (s.port x).acks (flitHdr f) with creditsIn := creditTotals f }) := by
  simp [execFlitReceive, State.countFec, Port.acks, live, ok, control, open']

end Receive

/-- Settles O28: each kind of flit by its own lemma. -/
theorem flitsAreAcceptedInOrder : Obligations.FlitsAreAcceptedInOrder := by
  intro s x f a b live
  have rx : (s.countFec x a b).reg (Reg.rxFlits x) = s.reg (Reg.rxFlits x) :=
    s.reg_countFec_other a b (objKey_ne_of_sub (by decide)) (objKey_ne_of_sub (by decide))
  have crc : (s.countFec x a b).reg (Reg.crcFails x) = s.reg (Reg.crcFails x) :=
    s.reg_countFec_other a b (objKey_ne_of_sub (by decide)) (objKey_ne_of_sub (by decide))
  have kept : ((s.port x).acks (flitHdr f)).rxNext = (s.port x).rxNext :=
    congrArg Prod.fst ((s.port x).receiver_acks (flitHdr f))
  refine ⟨fun bad => ?_, fun ok data vc => ⟨fun next => ?_, fun other => ?_⟩, fun ok control open' => ?_⟩
  · obtain ⟨fixed, lost⟩ := s.reg_countFec x a b
    refine ⟨_, exec_flitReceive_badCrc a b live bad, ?_, ?_, ?_, ?_, ?_, ?_⟩
    · rw [State.port_setPort_same]
      rfl
    · rw [State.port_setPort_same]
      rfl
    · rw [State.reg_setPort, State.reg_count_same, crc]
    · have apart : Reg.fecCorrected x ≠ Reg.crcFails x := objKey_ne_of_sub (by decide)
      rw [State.reg_setPort, State.reg_count_other _ _ apart, fixed]
    · have apart : Reg.fecUncorr x ≠ Reg.crcFails x := objKey_ne_of_sub (by decide)
      rw [State.reg_setPort, State.reg_count_other _ _ apart, lost]
    · have apart : Reg.rxFlits x ≠ Reg.crcFails x := objKey_ne_of_sub (by decide)
      rw [State.reg_setPort, State.reg_count_other _ _ apart, rx]
  · have receiver := ((s.countFec x a b).setPort x ((s.port x).acks (flitHdr f))).acceptFlit_receiver x (flitHdr f)
      (flitPayload f)
    rw [State.port_setPort_same, kept] at receiver
    refine ⟨_, exec_flitReceive_accepts a b live ok data vc next, congrArg Prod.fst receiver, congrArg Prod.snd receiver,
      ?_, fun first whole => State.acceptFlit_begins first whole _ x _⟩
    rw [State.reg_of_regs (State.acceptFlit_regs _ _ _ _), State.reg_count64, if_pos rfl, State.reg_setPort, rx]
  · refine ⟨_, exec_flitReceive_refuses a b live ok data vc other, ?_⟩
    split
    next discards => exact ⟨rfl, discards, rx, crc⟩
    next =>
      rw [State.port_setPort_same]
      exact ⟨kept, rfl, rx, crc⟩
  · refine ⟨_, exec_flitReceive_credits a b live ok control open', ?_⟩
    rw [State.port_setPort_same]
    exact ⟨rfl, kept, rx⟩

end Sys2Proof.Machine
end

section
/-! SUPPORT and O29. The events of a port (R214, R218, R220, R221): retries, failure, the remap of a lane, and training. -/

namespace Sys2Proof.Machine

open Sys2Proof

/-! ### A port that fails -/

/-- A port that fails is FAILED and counted. -/
theorem State.failPort_fails {x : Nat} (hx : x < 60) (s : State) :
    (s.failPort x).reg (Reg.portState x) = 4 ∧
      (s.failPort x).reg (Reg.portFails x) = (s.reg (Reg.portFails x) + 1) % 2 ^ 32 := by
  have apart : Reg.portState x ≠ Reg.portFails x := objKey_ne_of_sub (by decide)
  have hstate : Reg.portState x ∉ junctionKeys := portKey_not_junction hx (by decide)
  have hfails : Reg.portFails x ∉ junctionKeys := portKey_not_junction hx (by decide)
  have stays : ∀ {k : Nat}, k ∉ junctionKeys →
      (s.failPort x).reg k = ((s.setReg (Reg.portState x) 4).count (Reg.portFails x) 1).reg k := fun hk =>
    (State.report_reg _ _ _ _ (ne_of_mem_of_not_mem (by decide) hk).symm).trans (State.closePort_reg hk _ x)
  constructor
  · rw [stays hstate, State.reg_count_other _ _ apart, State.reg_setReg_same]
  · rw [stays hfails, State.reg_count_same, State.reg_setReg_other _ _ apart.symm]

/-- A number that is neither the Junction's nor the port's PORT_STATE and PORT_FAILS stays. -/
theorem State.failPort_reg {x k : Nat} (hk : k ∉ junctionKeys) (hs : k ≠ Reg.portState x) (hf : k ≠ Reg.portFails x)
    (s : State) : (s.failPort x).reg k = s.reg k := by
  refine (State.report_reg _ _ _ _ (ne_of_mem_of_not_mem (by decide) hk).symm).trans ?_
  rw [State.closePort_reg hk, State.reg_setPort, State.reg_count_other _ _ hf, State.reg_setReg_other _ _ hs]

/-! ### Retries -/

theorem State.resend_reg (s : State) {x k : Nat} (fs : List SentFlit) (hk : k ≠ Reg.txFlits x) :
    (s.resend x fs).reg k = s.reg k := State.reg_count64_other _ _ hk

/-- Flits that leave again leave the port's retries and its remap as they were. -/
theorem State.port_resend (s : State) (x : Nat) (fs : List SentFlit) :
    ((s.resend x fs).port x).retries = (s.port x).retries ∧
      ((s.resend x fs).port x).remapLane = (s.port x).remapLane := by
  dsimp only [State.resend]
  rw [State.port_count64, State.port_setPort_same]
  exact ⟨rfl, rfl⟩

/-- A retry request is counted; below RETRY_LIMIT the port stays as it is and keeps the count, at the limit it fails. -/
theorem State.serveRetry_counts {x : Nat} (hx : x < 60) (s : State) (q : Nat) :
    (s.serveRetry x q).reg (Reg.retries x) = (s.reg (Reg.retries x) + 1) % 2 ^ 32 ∧
      (mapGetD 0 q (s.port x).retries + 1 < field (s.reg (Reg.portCfg x)) 8 5 →
        (s.serveRetry x q).reg (Reg.portState x) = s.reg (Reg.portState x) ∧
          ((s.serveRetry x q).port x).retries = [(q, mapGetD 0 q (s.port x).retries + 1)]) ∧
      (field (s.reg (Reg.portCfg x)) 8 5 ≤ mapGetD 0 q (s.port x).retries + 1 →
        (s.serveRetry x q).reg (Reg.portState x) = 4) := by
  have hretries : Reg.retries x ∉ junctionKeys := portKey_not_junction hx (by decide)
  have hcfg : Reg.portCfg x ≠ Reg.retries x := objKey_ne_of_sub (by decide)
  have hstate : Reg.portState x ≠ Reg.retries x := objKey_ne_of_sub (by decide)
  have hfails : Reg.retries x ≠ Reg.portFails x := objKey_ne_of_sub (by decide)
  have hsent : Reg.retries x ≠ Reg.txFlits x := objKey_ne_of_sub (by decide)
  have hstate' : Reg.portState x ≠ Reg.txFlits x := objKey_ne_of_sub (by decide)
  dsimp only [State.serveRetry]
  rw [State.reg_count_other _ _ hcfg]
  split
  next limit =>
    refine ⟨?_, fun below => absurd limit (by omega), fun _ => (State.failPort_fails hx _).1⟩
    rw [State.failPort_reg hretries hstate.symm hfails, State.reg_count_same]
  next below =>
    refine ⟨?_, fun _ => ⟨?_, ?_⟩, fun limit => absurd limit below⟩
    · rw [State.resend_reg _ _ hsent, State.reg_setPort, State.reg_count_same]
    · rw [State.resend_reg _ _ hstate', State.reg_setPort, State.reg_count_other _ _ hstate]
    · rw [(State.port_resend _ x _).1, State.port_setPort_same]

theorem exec_retryRequest_serves {s : State} {x : Nat} (live : s.portLive x = true) (q : Nat) :
    exec (.retryRequest x q) s = .next (s.serveRetry x (q % 65536)) := by
  simp [execRetryRequest, live]

/-! ### Lanes -/

/-- The spare lane takes over, where it is free and no other remap runs. -/
theorem exec_laneFault_remaps {s : State} {x l : Nat} (live : s.portLive x = true) (lane : l < 9)
    (used : (s.reg (Reg.laneState x)).testBit l = true) (spare : (s.reg (Reg.laneState x)).testBit 15 = false)
    (up : s.reg (Reg.portState x) ≠ 3) :
    exec (.laneFault x l) s =
      .next ((s.setReg (Reg.portState x) 3).setPort x { s.port x with remapLane := some l }) := by
  simp [execLaneFault, live, lane, used, spare, up]

/-- The port fails, where the spare lane is used or another remap runs. -/
theorem exec_laneFault_fails {s : State} {x l : Nat} (live : s.portLive x = true) (lane : l < 9)
    (used : (s.reg (Reg.laneState x)).testBit l = true)
    (taken : (s.reg (Reg.laneState x)).testBit 15 = true ∨ s.reg (Reg.portState x) = 3) :
    exec (.laneFault x l) s = .next (s.failPort x) := by
  simp [execLaneFault, live, lane, used, taken]

/-- A remap that is done leaves the port UP and is counted. -/
theorem exec_laneRemapDone_ends {s : State} {x l : Nat} (lane : (s.port x).remapLane = some l)
    (remapping : s.reg (Reg.portState x) = 3) (hs : Reg.portState x ∉ junctionKeys)
    (hr : Reg.laneRemaps x ∉ junctionKeys) :
    ∃ t, exec (.laneRemapDone x) s = .next t ∧ t.reg (Reg.portState x) = 2 ∧ (t.port x).remapLane = none ∧
      t.reg (Reg.laneRemaps x) = (s.reg (Reg.laneRemaps x) + 1) % 2 ^ 32 := by
  have hreport : ∀ {k}, k ∉ junctionKeys → k ≠ Reg.faultReports := fun hk => (ne_of_mem_of_not_mem (by decide) hk).symm
  have hremaps : Reg.portState x ≠ Reg.laneRemaps x := objKey_ne_of_sub (by decide)
  have hsent : Reg.portState x ≠ Reg.txFlits x := objKey_ne_of_sub (by decide)
  have hsent' : Reg.laneRemaps x ≠ Reg.txFlits x := objKey_ne_of_sub (by decide)
  have hlanes : Reg.laneRemaps x ≠ Reg.laneState x := objKey_ne_of_sub (by decide)
  simp only [exec_laneRemapDone, execLaneRemapDone, lane, remapping, ne_eq, not_true_eq_false, if_false]
  refine ⟨_, rfl, ?_, ?_, ?_⟩
  · rw [State.report_reg _ _ _ _ (hreport hs), State.reg_count_other _ _ hremaps, State.resend_reg _ _ hsent,
      State.reg_setPort, State.reg_setReg_same]
  · rw [State.port_report, State.port_count, (State.port_resend _ x _).2, State.port_setPort_same]
  · rw [State.report_reg _ _ _ _ (hreport hr), State.reg_count_same, State.resend_reg _ _ hsent', State.reg_setPort,
      State.reg_setReg_other _ _ hremaps.symm, State.reg_setReg_other _ _ hlanes]

/-! ### Training -/

/-- Training that ends in UP records the peer and begins both sequences at 0. -/
theorem exec_portTrainingDone_up {s : State} {x : Nat} (training : s.reg (Reg.portState x) = 1) (hx : x < 60)
    (peer port : Nat) : ∃ t, exec (.portTrainingDone x true peer port) s = .next t ∧ t.reg (Reg.portState x) = 2 ∧
      t.reg (Reg.peer x) = peer % 16384 + port % 64 * 65536 + 2 ^ 31 ∧ (t.port x).rxNext = 0 ∧ (t.port x).txNext = 0 := by
  have apart : Reg.portState x ≠ Reg.peer x := objKey_ne_of_sub (by decide)
  simp only [exec_portTrainingDone, execPortTrainingDone, training, Nat.not_le.mpr hx, ne_eq, not_true_eq_false, or_self,
    if_false, Bool.not_true, Bool.false_eq_true]
  refine ⟨_, rfl, ?_, ?_, ?_⟩
  · rw [State.reg_setPort, State.reg_setReg_other _ _ apart, State.reg_setReg_same]
  · rw [State.reg_setPort, State.reg_setReg_same]
  · rw [State.port_setPort_same]
    exact ⟨rfl, rfl⟩

/-- Training that does not end in UP leaves the port DOWN. -/
theorem exec_portTrainingDone_down {s : State} {x : Nat} (training : s.reg (Reg.portState x) = 1) (hx : x < 60)
    (peer port : Nat) : exec (.portTrainingDone x false peer port) s = .next (s.setReg (Reg.portState x) 0) := by
  simp [execPortTrainingDone, training, hx]

/-- Settles O29: each event by its own lemma; the objects of the 60 ports are none that the Junction changes. -/
theorem portStatesFollowTheirEvents : Obligations.PortStatesFollowTheirEvents := by
  intro s x hx
  refine ⟨fun live => ⟨fun q => ?_, fun i hi => ?_, fun l lane used => ⟨fun spare up => ?_, fun taken => ?_⟩⟩,
    fun l lane remapping => ?_, fun training p pp => ⟨?_, ?_⟩, fun down enabled late early => ?_⟩
  · exact ⟨_, exec_retryRequest_serves live q, State.serveRetry_counts hx s _⟩
  · have run : exec i s = .next (s.failPort x) := by
      obtain rfl | rfl : i = .portFail x ∨ i = .portSilenceTimeout x := by simpa using hi
      · simp [execPortFail, live]
      · simp [execPortSilenceTimeout, live]
    exact ⟨_, run, s.failPort_fails hx⟩
  · refine ⟨_, exec_laneFault_remaps live lane used spare up, ?_, ?_⟩
    · rw [State.reg_setPort, State.reg_setReg_same]
    · rw [State.port_setPort_same]
  · exact ⟨_, exec_laneFault_fails live lane used taken, (s.failPort_fails hx).1⟩
  · exact exec_laneRemapDone_ends lane remapping (portKey_not_junction hx (by decide)) (portKey_not_junction hx (by decide))
  · exact exec_portTrainingDone_up training hx p pp
  · exact ⟨_, exec_portTrainingDone_down training hx p pp, State.reg_setReg_same _ _ _⟩
  · exact ⟨_, by simp [execPortPeerPresent, hx, down, enabled, late, early], rfl⟩

end Sys2Proof.Machine
end

section
/-! SUPPORT and O32. A remap that is done at a port number that is none: the command does not ask whether its port is one of
the 60, and the key of PORT_STATE that it computes for port 256 is that of RANK_COUNT. -/

namespace Sys2Proof.Machine

open Sys2Proof

/-- The part at reset with three ranks, and a remap noted for a port 256: the statement, and the model's type of ports,
allow it. -/
def remapBeyondThePorts : State :=
  (State.reset.setReg Reg.rankCount 3).setPort 256 { Port.empty with remapLane := some 0 }

/-- The objects of "port" 0x100 lie at index 0x2400. -/
theorem portState_256 : Reg.portState 256 = Reg.rankCount := rfl

theorem remapBeyondThePorts_lane : (remapBeyondThePorts.port 256).remapLane = some 0 :=
  congrArg Port.remapLane (State.port_setPort_same _ _ _)

theorem remapBeyondThePorts_rankCount : remapBeyondThePorts.reg Reg.rankCount = 3 :=
  (State.reg_setPort _ _ _ _).trans (State.reg_setReg_same _ _ _)

/-- Refutes O32: the end of a remap at port 256 sets RANK_COUNT from 3 to 2. -/
theorem not_fabricFrame : ¬ Obligations.FabricFrame := by
  intro frame
  obtain ⟨t, run, -, -, -, -, kept⟩ := frame remapBeyondThePorts (.laneRemapDone 256) (by simp)
  obtain ⟨u, run', up, -⟩ := exec_laneRemapDone_ends remapBeyondThePorts_lane
    (portState_256 ▸ remapBeyondThePorts_rankCount) (by decide) (by decide)
  obtain rfl : t = u := Host.Outcome.next.inj (run.symm.trans run')
  rw [portState_256, kept, remapBeyondThePorts_rankCount] at up
  exact absurd up (by decide)

end Sys2Proof.Machine
end

section
/-! SUPPORT and O30. An injected packet that the injection list holds only in the form the source Junction gives it: the
Junction takes the packet as the sender gave it off the list, not in that form. -/

namespace Sys2Proof.Machine

open Sys2Proof

theorem takeFirst_eq_none {f : α → Bool} {l : List α} (none' : ∀ x ∈ l, f x = false) : takeFirst f l = none := by
  induction l with
  | nil => rfl
  | cons x l ih =>
    rw [List.forall_mem_cons] at none'
    obtain ⟨head, tail⟩ := none'
    simp [takeFirst, head, ih tail]

/-- A packet that does not stand on the injection list leaves the list as it is. -/
theorem State.takeInjected_absent {s : State} {p : Packet} (absent : p ∉ s.fabric.inject) : s.takeInjected p = s := by
  unfold State.takeInjected
  rw [takeFirst_eq_none fun x hx => beq_false_of_ne (ne_of_mem_of_not_mem hx absent)]

/-- A packet that is not on the list and is for this device is delivered as the source Junction sends it; the list stays. -/
theorem exec_packetRoute_delivers {s : State} {p q : Packet} (absent : p ∉ s.fabric.inject) (source : s.asSource p = q)
    (room : s.hasRoom q = true) (single : q.route.mc = false) (here : s.routeTo q.route (physDev q.route.dst) = .here)
    (mine : s.delivers q = true) (plain : ∀ d a b c, q.body ≠ .mgmt (.exchange d a b c)) :
    exec (.packetRoute none p) s = .next { s with fabric := { s.fabric with landing := s.fabric.landing ++ [q] } } := by
  have lands : s.deliverPacket q = { s with fabric := { s.fabric with landing := s.fabric.landing ++ [q] } } := by
    unfold State.deliverPacket
    rw [if_pos mine]
    split
    next d a b c h => exact absurd h (plain d a b c)
    next => rfl
  simp [execPacketRoute, source, room, State.takeInjected_absent absent, State.routePacket, single, State.routeUnicast,
    here, lands]

/-- A heartbeat of device 0 for itself, in job 1, as its source Junction sends it. -/
def ownHeartbeat : Packet := ⟨⟨0, 0, 1, 5, false, false, 0⟩, 0, [], .mgmt (.heartbeat 0)⟩

/-- The same with a level that the Junction overwrites. -/
def ownHeartbeatAsGiven : Packet := { ownHeartbeat with route := { ownHeartbeat.route with lastLevel := 1 } }

/-- Device 0 in job 1, with that heartbeat on its injection list. -/
def heartbeatInjected : State := ((State.reset.setReg Reg.locationActive 0).setReg Reg.jobId 1).inject ownHeartbeat

/-- Refutes O30: the heartbeat with the other level is delivered as the one on the list, and the one on the list stays there,
where the statement takes it off. -/
theorem not_routingDeliversHoldsOrDiscards : ¬ Obligations.RoutingDeliversHoldsOrDiscards := by
  intro routes
  have source : heartbeatInjected.asSource ownHeartbeatAsGiven = ownHeartbeat := by decide +kernel
  have room : heartbeatInjected.hasRoom ownHeartbeat = true := by decide +kernel
  have here : heartbeatInjected.routeTo ownHeartbeat.route (physDev ownHeartbeat.route.dst) = .here := by decide +kernel
  have mine : heartbeatInjected.delivers ownHeartbeat = true := by decide +kernel
  have plain : ∀ d a b c, ownHeartbeat.body ≠ .mgmt (.exchange d a b c) := fun _ _ _ _ => by simp [ownHeartbeat]
  obtain ⟨⟨-, injected⟩, -⟩ := routes heartbeatInjected ownHeartbeatAsGiven
  rw [source] at injected
  obtain ⟨delivered, -⟩ := injected room rfl
  obtain ⟨t, run, taken⟩ := delivered here mine plain
  have run' := exec_packetRoute_delivers (by decide +kernel) source room rfl here mine plain
  obtain rfl := Host.Outcome.next.inj (run.symm.trans run')
  have off : [ownHeartbeat] = (heartbeatInjected.takeInjected ownHeartbeat).fabric.inject :=
    congrArg (fun t : State => t.fabric.inject) taken
  exact absurd off (by decide +kernel)

end Sys2Proof.Machine
end

section
/-! SUPPORT and O18. How a request of a core ends (R253, R257, R258, R303), and what an INVALIDATE, an INV_ACK and the end of a
recall change (R256, R261, R262). -/

namespace Sys2Proof.Machine

open Sys2Proof

/-! ### A request that ends -/

/-- A core without a request of this tag. -/
def Core.dropTag (k : Core) (tag : Nat) : Core := { k with rmOut := k.rmOut.filter (fun x => x.tag != tag) }

/-- At a core where none waits, the end of a request takes it off and leaves the rest to the sequencer. -/
theorem State.endRm_only {s : State} {c : Nat} (none' : (s.core c).rmWait = []) (r : RmReq) :
    SeqOnly c (s.updCore c (·.dropTag r.tag)) (s.endRm c r) ∧
      ((s.endRm c r).core c).rmOut = (s.core c).rmOut.filter (fun x => x.tag != r.tag) := by
  let u := s.updCore c (·.dropTag r.tag)
  have hu : u.core c = (s.core c).dropTag r.tag := (s.core_updCore c c _).trans (if_pos rfl)
  have hend : s.endRm c r = (u.settleRepeat c r.rep).checkEnd c :=
    congrArg (fun t : State => (t.settleRepeat c r.rep).checkEnd c) (State.pumpRmAll_none (s := u) (by rw [hu]; exact none'))
  rw [hend, State.checkEnd_rmOut, State.settleRepeat_rmOut, hu]
  exact ⟨(u.settleRepeat_only c r.rep).trans (State.checkEnd_only _ c), rfl⟩

/-- The numbers that the end of a request may count up: the sequencer's three, and the errors. -/
def requestEndNumbers : List Nat := [Reg.gateSkips, Reg.repeatClamp, Reg.invocations, Reg.rmErrors]

/-- What stands where a request of core c with this tag has ended: it is off the list, and the scratchpad, the time and every
other number are as in s. -/
structure RequestEnded (c tag : Nat) (s t : State) : Prop where
  out : (t.core c).rmOut = (s.core c).rmOut.filter (fun x => x.tag != tag)
  scratch : (t.core c).scratch = (s.core c).scratch
  time : t.time = s.time
  reg : ∀ k, k ∉ requestEndNumbers → t.reg k = s.reg k

theorem SeqOnly.reg_of_notMem {c : Nat} {s t : State} (h : SeqOnly c s t) {k : Nat} (hk : k ∉ requestEndNumbers) :
    t.reg k = s.reg k := by
  simp only [requestEndNumbers, List.mem_cons, List.not_mem_nil, or_false, not_or] at hk
  obtain ⟨skips, clamp, invocations, -⟩ := hk
  exact h.reg k skips clamp invocations

theorem State.endRm_ends {s : State} {c : Nat} (none' : (s.core c).rmWait = []) (r : RmReq) :
    RequestEnded c r.tag s (s.endRm c r) := by
  obtain ⟨only, out⟩ := State.endRm_only none' r
  refine ⟨out, only.scratch.trans ?_, by rw [only.rest]; rfl, fun k hk => (only.reg_of_notMem hk).trans (s.reg_updCore c _ k)⟩
  rw [State.core_updCore, if_pos rfl]
  rfl

theorem State.rmError_time (s : State) (c cause op rank jva : Nat) (e : Option Nat) :
    (s.rmError c cause op rank jva e).time = s.time := by
  cases e <;> rfl

theorem State.rmError_reg_other (s : State) (c cause op rank jva : Nat) (e : Option Nat) {k : Nat} (hk : k ≠ Reg.rmErrors) :
    (s.rmError c cause op rank jva e).reg k = s.reg k := by
  cases e <;> exact s.reg_count_other 1 hk

/-- A failed request ends as any other, counted and logged with its cause (R258, R269). -/
theorem State.failRm_fails {s : State} {c : Nat} (none' : (s.core c).rmWait = []) (r : RmReq) (cause : Nat) :
    RequestEnded c r.tag s (s.failRm c r cause) ∧
      (s.failRm c r cause).reg Reg.rmErrors = (s.reg Reg.rmErrors + 1) % 2 ^ 32 ∧
      (s.failRm c r cause).rmem.faults.getLast? = some [cause, r.opc, c, r.rank, r.jva, s.beatNow % 2 ^ 32] := by
  let e := s.rmError c cause r.opc r.rank r.jva r.errCtr
  obtain ⟨-, wait⟩ := s.rmError_requests c cause r.opc r.rank r.jva r.errCtr
  obtain ⟨stores, -⟩ := s.rmError_stores c cause r.opc r.rank r.jva r.errCtr
  obtain ⟨out, log⟩ := State.failRm_ends none' r cause
  have only : SeqOnly c (e.updCore c (·.dropTag r.tag)) (s.failRm c r cause) :=
    (State.endRm_only (s := e) (wait.trans none') r).1
  have ended : RequestEnded c r.tag e (s.failRm c r cause) := State.endRm_ends (wait.trans none') r
  refine ⟨⟨out, ended.scratch.trans stores, ended.time.trans (State.rmError_time ..), fun k hk =>
    (ended.reg k hk).trans (State.rmError_reg_other _ _ _ _ _ _ _ ?_)⟩, ?_, log⟩
  · rintro rfl
    exact absurd hk (by decide)
  · rw [only.reg _ (by decide) (by decide) (by decide), State.reg_updCore]
    exact State.rmError_reg ..

/-- While hall time moves on, no core works. -/
theorem State.core_advanceTo (s : State) (t c : Nat) : (s.advanceTo t).core c = s.core c := by
  obtain ⟨u, time, only, h⟩ := s.advanceTo_sends t
  rw [h, only.rest]
  rfl

/-! ### Responses -/

@[simp] theorem State.keepLines_cores (s : State) (c : Nat) (r : RmReq) (data : List Byte) :
    (s.keepLines c r data).cores = s.cores := by
  unfold State.keepLines
  split <;> rfl

section Response

variable {s : State} {p : RmPacket} (single : p.combined = false)
include single

/-- A response whose request is outstanding no more is late. -/
theorem State.response_late (gone : s.rmReqOf (tagCore p.tag) p.tag = none) :
    ∃ g, ∀ ok f, s.response p ok f = ({ s with fabric := g } : State).count Reg.rmLateResp 1 := by
  obtain ⟨g, hg⟩ := s.takeLanding_fabric (.rm p)
  have gone' : ({ s with fabric := g } : State).rmReqOf (tagCore p.tag) p.tag = none := gone
  exact ⟨g, fun ok f => by simp [State.response, hg, single, gone']⟩

variable {r : RmReq} (found : s.rmReqOf (tagCore p.tag) p.tag = some r) (near : r.far = none)
include found near

/-- A response that fits its request is handed on. -/
theorem State.response_fits : ∃ g, ∀ ok f, ok r = true →
    s.response p ok f = f { s with fabric := g } (tagCore p.tag) r := by
  obtain ⟨g, hg⟩ := s.takeLanding_fabric (.rm p)
  have found' : ({ s with fabric := g } : State).rmReqOf (tagCore p.tag) p.tag = some r := found
  exact ⟨g, fun ok f fits => by simp [State.response, hg, single, found', near, fits]⟩

variable (none' : (s.core (tagCore p.tag)).rmWait = [])
include none'

/-- READ_DATA writes the scratchpad and ends its READ (R253, R258). -/
theorem exec_readData_ends (read : r.opc = 1) :
    ∃ t u, exec (.readData p) s = .next t ∧ RequestEnded (tagCore p.tag) r.tag u t ∧
      u.core (tagCore p.tag) = (s.core (tagCore p.tag)).spWrite r.dst (p.data.take r.len) := by
  obtain ⟨g, hg⟩ := State.response_fits single found near
  let w : State := ({ s with fabric := g } : State).updCore (tagCore p.tag) (fun k => k.spWrite r.dst (p.data.take r.len))
  let u := (w.keepLines (tagCore p.tag) r p.data).readBytes r.len
  have hu : u.core (tagCore p.tag) = (s.core (tagCore p.tag)).spWrite r.dst (p.data.take r.len) := by
    have hw : u.core (tagCore p.tag) = w.core (tagCore p.tag) := State.core_of_cores (w.keepLines_cores _ r p.data) _
    exact hw.trans ((State.core_updCore _ _ _ _).trans (if_pos rfl))
  exact ⟨_, u, congrArg Host.Outcome.next (hg _ _ (by simp [read])), State.endRm_ends (by rw [hu]; exact none') r, hu⟩

/-- ACK ends a WRITE or an ADD (R253, R258). -/
theorem exec_ack_ends (written : r.opc ≠ 1) :
    ∃ t u, exec (.ack p) s = .next t ∧ RequestEnded (tagCore p.tag) r.tag u t ∧
      u.core (tagCore p.tag) = s.core (tagCore p.tag) := by
  obtain ⟨g, hg⟩ := State.response_fits single found near
  let u := ({ s with fabric := g } : State).writeBytes r.len
  exact ⟨_, u, congrArg Host.Outcome.next (hg _ _ (by simp [written])), State.endRm_ends (s := u) none' r, rfl⟩

omit none' in
/-- NAK ends its request with its cause (R257, R258). -/
theorem exec_nak_ends : ∃ g, exec (.nak p) s = .next (({ s with fabric := g } : State).failRm (tagCore p.tag) r p.cause) := by
  obtain ⟨g, hg⟩ := State.response_fits single found near
  exact ⟨g, congrArg Host.Outcome.next (hg _ _ rfl)⟩

end Response

/-! ### Timeouts and far-tier requests -/

/-- RM_TIMEOUT ends a request that has no response: hall time moves on to its end (R257, R258). -/
theorem exec_rmTimeout_ends {s : State} {c tag : Nat} {r : RmReq} (found : s.rmReqOf c tag = some r) (near : r.far = none)
    (own : r.mine = false) :
    exec (.rmTimeout c tag) s = .next ((s.advanceTo (r.issued + s.reg Reg.rmTimeout)).failRm c r 7) := by
  simp [execRmTimeout, found, RmReq.remote, near, own]

section Far

variable {s : State} {c tag port : Nat} {r : RmReq} (found : s.rmReqOf c tag = some r) (far : r.far = some port)
include found far

theorem exec_cxlTimeout_ends : exec (.cxlTimeout c tag) s =
    .next (((s.advanceTo (r.issued + s.reg Reg.cxlTimeout)).count Reg.cxlTimeouts 1).failRm c r 7) := by
  simp [execCxlTimeout, found, far]

theorem exec_cxlCompletion_poisoned :
    exec (.cxlCompletion c tag true) s = .next ((s.count Reg.cxlPoison 1).failRm c r 5) := by
  simp [execCxlCompletion, found, far]

/-- The data of a far read go to the place that the request kept (assumption 65). -/
theorem exec_cxlCompletion_scratch {a : Nat} (place : r.place = some (.scratch (.lit a))) :
    exec (.cxlCompletion c tag false) s = .next ((s.updCore c (fun k => k.spWrite a r.data)).endRm c r) := by
  simp [execCxlCompletion, found, far, place]

theorem exec_cxlCompletion_write (place : r.place = none) :
    exec (.cxlCompletion c tag false) s = .next (s.endRm c r) := by
  simp [execCxlCompletion, found, far, place]

end Far

/-! ### Sharers -/

/-- INVALIDATE drops the line's copies, marks the READs of it in flight, and answers INV_ACK (R261, R262). -/
theorem exec_invalidate_drops {s : State} {p : RmPacket} {d : Nat} (dev : s.rankDev p.srcRank = some d) :
    ∃ t x, exec (.invalidate p) s = .next t ∧
      (∀ y ∈ t.rmem.copies, y.rank = p.srcRank → y.jva ∉ lineAddrs p.jva 64) ∧
      (∀ e ∈ t.cores, ∀ r ∈ e.2.rmOut, r.opc = 1 → r.rank = p.srcRank → p.jva / 64 * 64 ∈ lineAddrs r.jva r.len →
        r.dropped = true) ∧
      t.fabric.inject = s.fabric.inject ++ [x] ∧ ∃ q, x.body = .rm q ∧ q.opc = 8 ∧ q.jva = p.jva ∧ q.dstRank = p.srcRank := by
  obtain ⟨g, hg, hi⟩ := s.takeLanding_inject (.rm p)
  let u := ({ s with fabric := g } : State).invalidateHere p.srcRank p.jva
  have run : exec (.invalidate p) s = .next (u.sendRank p.srcRank 0 0 1 3
      (.rm { p with opc := 8, srcRank := u.myRank, dstRank := p.srcRank, data := [], len := 0 })) := by
    rw [exec_invalidate, execInvalidate, hg]
  have hdev : u.rankDev p.srcRank = some d := dev
  rw [State.sendRank_eq_inject hdev] at run
  refine ⟨_, _, run, fun y hy rank line => ?_, fun e he r hr read rank line => ?_, congrArg (· ++ [_]) hi, _, rfl, rfl, rfl, rfl⟩
  · obtain ⟨-, kept⟩ := List.mem_filter.mp hy
    simp [rank, line] at kept
  · obtain ⟨k, -, rfl⟩ := List.mem_map.mp he
    obtain ⟨x, -, rfl⟩ := List.mem_map.mp hr
    revert read rank line
    split
    next => exact fun _ _ _ => rfl
    next other => exact fun read rank line => absurd (by simp [read, rank, line]) other

/-- With no request held, the home's queue has nothing to do. -/
theorem State.pumpHome_idle {s : State} (idle : s.rmem.held = []) : s.pumpHome = s := by
  have same : { s with rmem := { s.rmem with held := [] } } = s := by rw [← idle]
  unfold State.pumpHome
  rw [idle]
  exact same

/-- INV_ACK takes the sharer's bit, and a recall waits for it no longer (R256, R261). -/
theorem exec_invAck_frees {s : State} {p : RmPacket} {r : XlateRec} {x : Nat}
    (mapped : s.xlateOf (field p.jva 21 27) = some r) (sharer : s.quadPos p.srcRank = some x) (idle : s.rmem.held = [])
    (sorted : keysRise s.rmem.directory = true) :
    ∃ t, exec (.invAck p) s = .next t ∧
      mapGetD 0 (r.addr p.jva / 64) t.rmem.directory = setBitAt (mapGetD 0 (r.addr p.jva / 64) s.rmem.directory) x false ∧
      t.rmem.recallInv = s.rmem.recallInv.erase (r.addr p.jva / 64, x) := by
  obtain ⟨g, hg⟩ := s.takeLanding_fabric (.rm p)
  have mapped' : ({ s with fabric := g } : State).xlateOf (field p.jva 21 27) = some r := mapped
  have sharer' : ({ s with fabric := g } : State).quadPos p.srcRank = some x := sharer
  rw [exec_invAck, execInvAck, hg]
  simp only [mapped', sharer', idle, List.map_nil]
  rw [State.pumpHome_idle rfl]
  refine ⟨_, rfl, ?_, rfl⟩
  split
  next zero => rw [zero, mapGetD, mapGet_mapDel_same _ sorted]; rfl
  next => exact mapGetD_mapSet_same _ _ _ _

/-- A recall that still waits, or is none, stays as it is; one that waits for nothing is done (R256). -/
theorem exec_recallDone_ends (s : State) : ∃ t, exec .recallDone s = .next t ∧ t.reg Reg.recallState =
    if s.reg Reg.recallState = 1 ∧ s.rmem.recallInv = [] ∧
      s.rmem.held.all (fun h => field h.req.jva 21 27 != s.rmem.recallJpn) then 2 else s.reg Reg.recallState := by
  have still : (!s.rmem.held.any (fun h => field h.req.jva 21 27 == s.rmem.recallJpn)) =
      s.rmem.held.all (fun h => field h.req.jva 21 27 != s.rmem.recallJpn) := by
    simp [List.all_eq_not_any_not, bne]
  refine ⟨_, rfl, ?_⟩
  rw [still, apply_ite (fun t : State => t.reg Reg.recallState), State.reg_setReg_same]

/-- Settles O18: how each response, timeout and completion ends its request, and what ends sharing. The completion of a far
read writes the data that the request's own record kept at issue (assumption 65). -/
theorem requestsAndSharersEnd : Obligations.RequestsAndSharersEnd := by
  refine ⟨fun s p single => ⟨fun gone i hi => ?_, fun r found near none' => ⟨fun read => ?_, fun written => ?_, ?_, fun own => ?_⟩,
      fun r port found far none' => ⟨?_, ?_, fun a place => ?_, fun place => ?_⟩⟩,
    fun s p => ⟨fun d dev => exec_invalidate_drops dev, fun r x mapped sharer idle sorted =>
      exec_invAck_frees mapped sharer idle sorted, exec_recallDone_ends s⟩⟩
  · obtain ⟨g, late⟩ := State.response_late single gone
    have counted := ({ s with fabric := g } : State).reg_count_same Reg.rmLateResp 1
    simp only [List.mem_cons, List.not_mem_nil, or_false] at hi
    rcases hi with rfl | rfl | rfl <;> exact ⟨_, congrArg Host.Outcome.next (late _ _), counted, rfl⟩
  · obtain ⟨t, u, run, ended, hu⟩ := exec_readData_ends single found near none' read
    exact ⟨t, run, ended.out.trans (by rw [hu]; rfl), ended.scratch.trans (by rw [hu])⟩
  · obtain ⟨t, u, run, ended, hu⟩ := exec_ack_ends single found near none' written
    exact ⟨t, run, ended.out.trans (by rw [hu]), ended.scratch.trans (by rw [hu])⟩
  · obtain ⟨g, run⟩ := exec_nak_ends single found near
    obtain ⟨ended, counted, log⟩ := State.failRm_fails (s := { s with fabric := g }) none' r p.cause
    exact ⟨_, run, ended.out, ended.scratch, counted, log⟩
  · have hc := s.core_advanceTo (r.issued + s.reg Reg.rmTimeout) (tagCore p.tag)
    obtain ⟨ended, -, log⟩ := State.failRm_fails (by rw [hc, none']) r 7
    refine ⟨_, exec_rmTimeout_ends found near own, ended.out.trans (by rw [hc]), ?_, log.trans ?_⟩
    · rw [ended.time, State.advanceTo_hallTime]
      exact le_max_left _ _
    · rw [State.beatNow, State.advanceTo_reg_of_keySub _ _ (by decide)]
      rfl
  · have hc := s.core_advanceTo (r.issued + s.reg Reg.cxlTimeout) (tagCore p.tag)
    obtain ⟨ended, -⟩ := State.failRm_fails
      (s := (s.advanceTo (r.issued + s.reg Reg.cxlTimeout)).count Reg.cxlTimeouts 1) (by rw [State.core_count, hc, none']) r 7
    refine ⟨_, exec_cxlTimeout_ends found far, ended.out.trans (by rw [State.core_count, hc]), ?_, ?_⟩
    · rw [ended.reg _ (by decide), State.reg_count_same, State.advanceTo_reg_of_keySub _ _ (by decide)]
    · rw [ended.time, State.count_time, State.advanceTo_hallTime]
      exact le_max_left _ _
  · obtain ⟨ended, -⟩ := State.failRm_fails (s := s.count Reg.cxlPoison 1) none' r 5
    exact ⟨_, exec_cxlCompletion_poisoned found far, ended.out,
      (ended.reg _ (by decide)).trans (State.reg_count_same _ _ _)⟩
  · have hc : (s.updCore (tagCore p.tag) (fun k => k.spWrite a r.data)).core (tagCore p.tag) =
        (s.core (tagCore p.tag)).spWrite a r.data := (State.core_updCore _ _ _ _).trans (if_pos rfl)
    have ended := State.endRm_ends (by rw [hc]; exact none') r
    exact ⟨_, exec_cxlCompletion_scratch found far place, ended.out.trans (by rw [hc]; rfl),
      ended.scratch.trans (by rw [hc])⟩
  · have ended := State.endRm_ends none' r
    exact ⟨_, exec_cxlCompletion_write found far place, ended.out, ended.reg _ (by decide)⟩

end Sys2Proof.Machine
end

section
/-! SUPPORT and O16. How a slot's request leaves its core (R251, R252), or takes its data from a copy (R260), and what
MV_INVALIDATE drops (R259, R263). -/

namespace Sys2Proof.Machine

open Sys2Proof

/-! ### Waiting requests -/

/-- Nothing that ends a repeat or an invocation changes the requests that wait at the core. -/
@[simp] theorem Core.setQueue_rmWait (k : Core) (e : Engine) (q : EngQueue) : (k.setQueue e q).rmWait = k.rmWait := by
  cases e <;> rfl

@[simp] theorem Core.bankReleased_rmWait (k : Core) (b : Nat) : (k.bankReleased b).rmWait = k.rmWait := by
  unfold Core.bankReleased Core.setBank
  (repeat' split) <;> rfl

theorem State.refill_rmWait (s : State) (c : Nat) (e : Engine) : ((s.refill c e).core c).rmWait = (s.core c).rmWait := by
  dsimp only [State.refill]
  split
  · rfl
  · simp

theorem State.checkEnd_rmWait (s : State) (c : Nat) : ((s.checkEnd c).core c).rmWait = (s.core c).rmWait := by
  dsimp only [State.checkEnd, State.endInvocation, State.startInvocation]
  (repeat' split) <;> simp

theorem State.settleRepeat_rmWait (s : State) (c : Nat) (rep : Option Nat) :
    ((s.settleRepeat c rep).core c).rmWait = (s.core c).rmWait := by
  unfold State.settleRepeat State.repeatDone
  extract_lets k
  split
  next =>
    split
    next => rfl
    next a _ =>
      extract_lets l _ regs k' _
      have hl : l.rmWait = (s.core c).rmWait := by
        simp only [l]
        split <;> rfl
      split
      · simpa using hl
      · rw [State.checkEnd_rmWait, State.refill_rmWait]
        simpa using hl
  next => rfl

theorem SeqOnly.fabric {c : Nat} {s t : State} (h : SeqOnly c s t) : t.fabric = s.fabric := by rw [h.rest]

theorem SeqOnly.rankDev {c : Nat} {s t : State} (h : SeqOnly c s t) (rank : Nat) : t.rankDev rank = s.rankDev rank :=
  State.rankDev_of_tables h.doms (h.reg _ (by decide) (by decide) (by decide)) rank

/-! ### A request that leaves -/

/-- The request of a slot that names a rank, as its range lies in one piece (R251). -/
def slotRequest (opc dtype rank jva len sp : Nat) (cache : Bool) (err rep : Option Nat) : RmReq :=
  { tag := 0, opc := opc, dtype := dtype, rank := rank, jva := jva, len := len, dst := sp, cache := cache, dropped := false,
    errCtr := err, far := none, place := none, data := [], mine := false, rep := rep, issued := 0 }

/-- A range that crosses no 4,096 B boundary is one piece. -/
theorem rmPieces_within {jva len : Nat} (pos : 0 < len) (inside : jva % 4096 + len ≤ 4096) (n : Nat) :
    rmPieces jva (n + 1) 0 len = [(0, len)] := by
  have whole : min len (4096 - (jva + 0) % 4096) = len := by omega
  unfold rmPieces
  rw [if_neg (by omega), whole]
  dsimp only
  rw [Nat.sub_self]
  cases n <;> rfl

/-- The lines of an aligned range of whole lines. -/
theorem lineAddrs_aligned {jva len : Nat} (start : jva % 64 = 0) (whole : len % 64 = 0) (pos : 0 < len) :
    lineAddrs jva len = List.range' jva (len / 64) 64 := by
  have count : (jva + len - 1) / 64 - jva / 64 + 1 = len / 64 := by omega
  have base : 64 * (jva / 64) = jva := by omega
  unfold lineAddrs linesOf
  rw [if_neg (by omega), count, List.map_map]
  refine List.ext_getElem (by simp) fun i _ _ => ?_
  simp [Nat.mul_add, base]

/-- Consecutive lines are one run. -/
theorem runsOf_range' (a n : Nat) : runsOf (List.range' a (n + 1) 64) = [(a, 64 * (n + 1))] := by
  induction n generalizing a with
  | zero => rfl
  | succ n ih =>
    rw [List.range'_succ]
    unfold runsOf at ih ⊢
    rw [List.foldr_cons, ih]
    simp [Nat.mul_add]

/-- No copy serves the request: the device holds none, or the request asks for none. -/
def State.Uncached (s : State) (r : RmReq) : Prop := s.rmem.copies = [] ∨ r.cache = false

theorem RmReq.not_mayHit {r : RmReq} (h : r.cache = false) : r.mayHit = false := by simp [RmReq.mayHit, h]

/-- A request that no copy serves leaves as a whole. -/
theorem State.Uncached.runs {s : State} {r : RmReq} (h : s.Uncached r) (pos : 0 < r.len) :
    (if r.mayHit then runsOf (s.missing r) else [(r.jva, r.len)]) = [(r.jva, r.len)] := by
  split
  next hit =>
    obtain empty | no := h
    case inr => simp [RmReq.not_mayHit no] at hit
    obtain ⟨⟨-, start⟩, whole⟩ : (_ ∧ r.jva % 64 = 0) ∧ r.len % 64 = 0 := by simpa [RmReq.mayHit] using hit
    have all : s.missing r = lineAddrs r.jva r.len :=
      List.filter_eq_self.mpr fun a _ => by simp [State.copyOfLine, empty]
    obtain ⟨n, hn⟩ : ∃ n, r.len / 64 = n + 1 := ⟨r.len / 64 - 1, by omega⟩
    rw [all, lineAddrs_aligned start whole pos, hn, runsOf_range', ← hn, Nat.mul_div_cancel' (Nat.dvd_of_mod_eq_zero whole)]
  next => rfl

theorem State.Uncached.hitCopies {s : State} {r : RmReq} (h : s.Uncached r) (c : Nat) : s.hitCopies c r = s := by
  unfold State.hitCopies
  split
  next => rfl
  next hit =>
    obtain empty | no := h
    case inr => simp [RmReq.not_mayHit no] at hit
    exact foldl_keeps id (fun t a => by simp [State.copyOfLine, empty]) _ s

theorem RmReq.part_whole (r : RmReq) : r.part (r.jva, r.len) = r := by simp [RmReq.part]

/-- What stands where a core with no request waiting has sent one for a rank: the request r with a tag and its time of issue is
outstanding, none waits, and it is counted. -/
structure RequestSent (c : Nat) (r : RmReq) (s t : State) : Prop where
  out : ∃ tag at', (t.core c).rmOut = (s.core c).rmOut ++ [{ r with tag := tag, issued := at' }]
  wait : (t.core c).rmWait = []
  counted : t.reg Reg.rmRequests = (s.reg Reg.rmRequests + 1) % 2 ^ 64
  inject : t.fabric.inject.length = s.fabric.inject.length + 1

/-- A request that no copy serves is sent (R252 to R254). -/
theorem State.issueRm_sends {s : State} {c d : Nat} {r : RmReq} (h : s.Uncached r) (pos : 0 < r.len)
    (dev : s.rankDev r.rank = some d) (none' : (s.core c).rmWait = []) : RequestSent c r s (s.issueRm c r) := by
  unfold State.issueRm
  extract_lets runs u
  have hruns : runs = [(r.jva, r.len)] := h.runs pos
  have hu : u = s := h.hitCopies c
  rw [hruns, hu]
  simp only [RmReq.part_whole, List.map_nil, List.nil_append]
  generalize hv : s.updCore c (fun k => k) = v
  have hc : v.core c = s.core c := by rw [← hv, State.core_updCore, if_pos rfl]
  have hdev : v.rankDev r.rank = some d := by rw [← hv]; exact dev
  rw [hdev]
  dsimp only
  generalize hw : (if r.opc = 1 then v else v.dropTracked r.rank r.jva r.len) = w
  have same : w.regs = s.regs ∧ w.doms = s.doms ∧ w.fabric = s.fabric ∧ w.cores = v.cores := by
    rw [← hw, ← hv]
    split <;> exact ⟨rfl, rfl, rfl, rfl⟩
  obtain ⟨regs, doms, fabric, cores⟩ := same
  have core : w.core c = s.core c := (State.core_of_cores cores c).trans hc
  have dev' : (w.outstanding c r).2.rankDev r.rank = some d :=
    (State.rankDev_of_tables (s := s) doms (State.reg_of_regs regs _) _).trans dev
  rw [State.sendRank_eq_inject dev']
  refine ⟨⟨(w.outstanding c r).1.tag, w.time.hallTime, ?_⟩, ?_, ?_, ?_⟩
  · simp [State.outstanding, core]
  · simp [State.outstanding, core, none']
  · rw [State.reg_count64, if_pos rfl]
    exact congrArg (fun n => (n + 1) % 2 ^ 64) (State.reg_of_regs regs _)
  · simp [State.outstanding, State.inject, fabric]

/-! ### A slot that names a rank -/

theorem State.pumpRm_none {s : State} {c : Nat} (none' : (s.core c).rmWait = []) (n : Nat) : s.pumpRm c n = s := by
  cases n with
  | zero => rfl
  | succ n =>
    unfold State.pumpRm
    dsimp only
    rw [none']

/-- The first request that waits issues where the core has room for it and its tenant is not leaving (R252, R268). -/
theorem State.pumpRm_first {s : State} {c : Nat} {r : RmReq} {rest : List RmReq} (first : (s.core c).rmWait = r :: rest)
    (room : ((s.core c).rmOut.filter RmReq.remote).length < 64) (stays : s.leaving = false) (n : Nat) :
    s.pumpRm c (n + 1) = ((s.setCore c { s.core c with rmWait := rest }).issueRm c r).pumpRm c n := by
  rw [State.pumpRm]
  dsimp only
  rw [first]
  dsimp only
  rw [if_neg (by simp [room, stays])]

/-- A repeat that begins takes nothing from the requests of its core. -/
theorem State.beginRepeat_only (s : State) (c : Nat) : SeqOnly c s (s.beginRepeat c).2 ∧
    ((s.beginRepeat c).2.core c).rmOut = (s.core c).rmOut ∧ ((s.beginRepeat c).2.core c).rmWait = (s.core c).rmWait := by
  unfold State.beginRepeat
  dsimp only
  split
  · exact ⟨.refl c s, rfl, rfl⟩
  · exact ⟨.setCore s _ rfl, by simp, by simp⟩

section Slot

variable {s : State} {c : Nat} (on : s.coreOn c = true) (stays : s.leaving = false) (none' : (s.core c).rmWait = [])
  (room : ((s.core c).rmOut.filter RmReq.remote).length < 64)
  {rank jva len : Nat} (pos : 0 < len) (inside : jva % 4096 + len ≤ 4096)
include on stays none' room pos inside

/-- One repeat of a slot whose range lies in one piece issues one request, at a core with room for it (R251, R252). -/
theorem State.rmSlot_issues (opc dtype sp : Nat) (cache : Bool) : ∃ u rep n, SeqOnly c s u ∧
    (u.core c).rmOut = (s.core c).rmOut ∧ (u.core c).rmWait = [] ∧
    s.rmSlot c opc dtype rank jva len sp cache =
      ((u.issueRm c (slotRequest opc dtype rank jva len sp cache (s.mvErrCtr c) rep)).pumpRm c n).mvBusy 1 := by
  obtain ⟨only, out, wait⟩ := s.beginRepeat_only c
  generalize hq : s.beginRepeat c = q at only out wait
  let r := slotRequest opc dtype rank jva len sp cache (s.mvErrCtr c) q.1
  let w := q.2.updCore c (fun k => { k with rmWait := k.rmWait ++ [r] })
  have hw : w.core c = { q.2.core c with rmWait := [r] } := by
    rw [State.core_updCore, if_pos rfl, wait, none', List.nil_append]
  let u := w.setCore c { w.core c with rmWait := [] }
  have hu : u.core c = { w.core c with rmWait := [] } := State.core_setCore_same ..
  have onlyU : SeqOnly c s u := (only.trans (.setCore q.2 { q.2.core c with rmWait := (q.2.core c).rmWait ++ [r] } rfl)).trans
    (.setCore w { w.core c with rmWait := [] } rfl)
  have pumped : w.pumpRmAll c = (u.issueRm c r).pumpRm c (len / 64) := by
    have leaving : w.leaving = s.leaving := by
      unfold State.leaving
      rw [show w.swap = q.2.swap from rfl, only.rest]
    have fuel : ((w.core c).rmWait.map (fun r => r.len / 64 + 1)).foldl (· + ·) 0 = len / 64 + 1 := by
      rw [hw]
      simp [r, slotRequest]
    unfold State.pumpRmAll
    rw [fuel]
    exact State.pumpRm_first (by rw [hw]) (by rw [hw]; simpa [out] using room) (leaving.trans stays) _
  refine ⟨u, q.1, len / 64, onlyU, by rw [hu, hw]; exact out, by rw [hu], ?_⟩
  have pieces : rmPieces jva (len / 64 + 2) 0 len = [(0, len)] := rmPieces_within pos inside _
  unfold State.rmSlot
  rw [pieces, hq, if_neg (by simp [on, stays])]
  exact congrArg (fun t : State => t.mvBusy 1) pumped

/-- A slot of which no copy serves a line sends its request to the home. -/
theorem State.rmSlot_sends (opc dtype sp : Nat) {cache : Bool} (uncached : s.rmem.copies = [] ∨ cache = false) {d : Nat}
    (dev : s.rankDev rank = some d) : ∃ rep, RequestSent c (slotRequest opc dtype rank jva len sp cache (s.mvErrCtr c) rep) s
      (s.rmSlot c opc dtype rank jva len sp cache) := by
  obtain ⟨u, rep, n, only, out, wait, run⟩ := State.rmSlot_issues on stays none' room pos inside opc dtype sp cache
  have sent := State.issueRm_sends (s := u) (r := slotRequest opc dtype rank jva len sp cache (s.mvErrCtr c) rep)
    (by rw [State.Uncached, only.rmem]; exact uncached) pos ((only.rankDev _).trans dev) wait
  rw [run, State.pumpRm_none sent.wait]
  refine ⟨rep, out ▸ sent.out, sent.wait, ?_, ?_⟩
  · rw [← only.reg Reg.rmRequests (by decide) (by decide) (by decide)]
    exact sent.counted
  · rw [← only.fabric]
    exact sent.inject

end Slot

/-! ### Copies on the device -/

/-- A READ of a line of which the device holds a copy takes its data from it, and sends nothing (R260). -/
theorem State.issueRm_hit {s : State} {c : Nat} {r : RmReq} {y : LineCopy} (read : r.opc = 1) (cached : r.cache = true)
    (aligned : r.jva % 64 = 0) (line : r.len = 64) (held : s.copyOfLine r.rank r.jva = some y) :
    s.issueRm c r = (s.updCore c (fun k => k.spWrite r.dst y.data)).settleRepeat c r.rep := by
  have hit : r.mayHit = true := by simp [RmReq.mayHit, read, cached, aligned, line]
  have lines : lineAddrs r.jva r.len = [r.jva] := by
    rw [line, lineAddrs_aligned aligned rfl (by decide)]
    rfl
  have missing : s.missing r = [] := by simp [State.missing, lines, hit, held]
  have copied : s.hitCopies c r = s.updCore c (fun k => k.spWrite r.dst y.data) := by
    simp [State.hitCopies, hit, lines, held]
  unfold State.issueRm
  rw [copied, if_pos hit, missing]
  rfl

/-- The same of a slot. -/
theorem State.rmSlot_hit {s : State} {c rank jva sp : Nat} {y : LineCopy} (on : s.coreOn c = true) (stays : s.leaving = false)
    (none' : (s.core c).rmWait = []) (room : ((s.core c).rmOut.filter RmReq.remote).length < 64) (aligned : jva % 64 = 0)
    (held : s.copyOfLine rank jva = some y) :
    let t := s.rmSlot c 1 0 rank jva 64 sp true
    t.fabric = s.fabric ∧ (t.core c).rmOut = (s.core c).rmOut ∧ t.reg Reg.rmRequests = s.reg Reg.rmRequests ∧
      (t.core c).scratch = ((s.core c).spWrite sp y.data).scratch := by
  intro t
  obtain ⟨u, rep, n, only, out, wait, run⟩ :=
    State.rmSlot_issues (rank := rank) on stays none' room (by decide) (by omega : jva % 4096 + 64 ≤ 4096) 1 0 sp true
  let v := u.updCore c (fun k => k.spWrite sp y.data)
  have hv : v.core c = (u.core c).spWrite sp y.data := (State.core_updCore ..).trans (if_pos rfl)
  have issued : u.issueRm c (slotRequest 1 0 rank jva 64 sp true (s.mvErrCtr c) rep) = v.settleRepeat c rep :=
    State.issueRm_hit rfl rfl aligned rfl (by rw [State.copyOfLine, only.rmem]; exact held)
  have only' : SeqOnly c v (v.settleRepeat c rep) := v.settleRepeat_only c rep
  have wait' : ((v.settleRepeat c rep).core c).rmWait = [] := by rw [State.settleRepeat_rmWait, hv]; exact wait
  have ht : t = (v.settleRepeat c rep).mvBusy 1 := run.trans (by rw [issued, State.pumpRm_none wait'])
  rw [ht]
  refine ⟨only'.fabric.trans only.fabric, ?_, ?_, ?_⟩
  · exact (v.settleRepeat_rmOut c rep).trans (by rw [hv]; exact out)
  · exact (only'.reg _ (by decide) (by decide) (by decide)).trans (only.reg _ (by decide) (by decide) (by decide))
  · exact only'.scratch.trans (by rw [hv]; exact Core.spWrite_scratch_congr only.scratch sp y.data)

/-- MV_INVALIDATE takes the copies of its range, and only those (R259, R263). -/
theorem exec_mvInvalidate_drops {s : State} {c : Nat} (on : s.coreOn c = true) (rank jva len : Nat) :
    ∃ t, exec (.mvInvalidate c rank jva len) s = .next t ∧ t.fabric = s.fabric ∧
      ∀ x, x ∈ t.rmem.copies ↔ x ∈ s.rmem.copies ∧ ¬(x.rank = rank ∧ x.jva ∈ lineAddrs jva len) := by
  obtain ⟨only, -⟩ := s.beginRepeat_only c
  let u := (((s.beginRepeat c).2.dropCopies rank jva len).mvBusy 1)
  have only' := u.settleRepeat_only c (s.beginRepeat c).1
  refine ⟨u.settleRepeat c (s.beginRepeat c).1, by simp [execMvInvalidate, on, u], only'.fabric.trans only.fabric,
    fun x => ?_⟩
  have copies : u.rmem.copies = s.rmem.copies.filter (fun x => !(x.rank == rank && (lineAddrs jva len).contains x.jva)) := by
    rw [← only.rmem]
    rfl
  rw [only'.rmem, copies, List.mem_filter]
  simp [imp_iff_not_or]

/-- Settles O16: a READ that no copy serves, a WRITE and an ADD send one request each; a copy serves a READ of its line. -/
theorem moverRequestsLeaveTheCore : Obligations.MoverRequestsLeaveTheCore := by
  intro s c rank jva len d on stays dev none' room
  refine ⟨fun pos inside => ⟨fun dst cache uncached => ?_, fun src => ?_⟩, fun dst y aligned line held => ?_,
    fun inside ty src => ?_, ?_⟩
  · obtain ⟨rep, ⟨tag, at', out⟩, -, counted, inject⟩ :=
      State.rmSlot_sends on stays none' room pos inside 1 0 ((s.core c).addr .mv dst) uncached dev
    exact ⟨_, _, rfl, out, rfl, rfl, rfl, rfl, rfl, rfl, counted, inject⟩
  · obtain ⟨rep, ⟨tag, at', out⟩, -, counted, inject⟩ :=
      State.rmSlot_sends on stays none' room pos inside 2 0 ((s.core c).addr .mv src) (.inr rfl) dev
    exact ⟨_, _, rfl, out, rfl, rfl, rfl, rfl, rfl, counted, inject⟩
  · subst line
    exact ⟨_, rfl, State.rmSlot_hit on stays none' room aligned held⟩
  · obtain ⟨rep, ⟨tag, at', out⟩, -, counted, -⟩ :=
      State.rmSlot_sends on stays none' room (by decide) inside 3 (addTypeCode ty) ((s.core c).addr .mv src) (.inr rfl) dev
    exact ⟨_, _, rfl, out, rfl, rfl, rfl, rfl, rfl, counted⟩
  · obtain ⟨t, run, fabric, copies⟩ := exec_mvInvalidate_drops on rank jva len
    exact ⟨t, run, fabric, fun x => (copies x).mp, fun x held outside => (copies x).mpr ⟨held, outside⟩⟩

end Sys2Proof.Machine
end

section
/-! SUPPORT and O17. A request at its home (R254, R259, R261): a NAK, or its service where it is alone on unshared lines. -/

namespace Sys2Proof.Machine

open Sys2Proof

/-! ### Answers of the home -/

/-- The home's answer to a rank with a record is one packet for it. -/
theorem State.respond_injects {s : State} {p : RmPacket} {d : Nat} (dev : s.rankDev p.srcRank = some d) (opc cause : Nat)
    (data : List Byte) : ∃ x, s.respond p opc cause data = s.inject x ∧ ∃ q, x.body = .rm q ∧ q.opc = opc ∧
      q.cause = cause ∧ q.tag = p.tag ∧ q.dstRank = p.srcRank ∧ q.data = data :=
  ⟨_, State.sendRank_eq_inject dev .., _, rfl, rfl, rfl, rfl, rfl, rfl⟩

/-- A request that fails a check is answered with a NAK of its cause and counted (R254). -/
theorem State.homeRequest_refused {s : State} {p : RmPacket} {d : Nat} (dev : s.rankDev p.srcRank = some d)
    (bad : s.rmCause p ≠ 0) : ∃ x, (s.homeRequest p).tiers = s.tiers ∧
      (s.homeRequest p).reg Reg.rmNakSent = (s.reg Reg.rmNakSent + 1) % 2 ^ 32 ∧
      (s.homeRequest p).fabric.inject = s.fabric.inject ++ [x] ∧
      ∃ q, x.body = .rm q ∧ q.opc = 6 ∧ q.cause = s.rmCause p ∧ q.tag = p.tag ∧ q.dstRank = p.srcRank := by
  obtain ⟨g, hg, hi⟩ := s.takeLanding_inject (.rm p)
  let u := ({ s with fabric := g } : State).count Reg.rmNakSent 1
  have dev' : u.rankDev p.srcRank = some d := (State.rankDev_count _ (by decide) 1 _).trans dev
  obtain ⟨x, hx, q, body, opc, cause, tag, dst, -⟩ := State.respond_injects dev' 6 (s.rmCause p) []
  have run : s.homeRequest p = u.inject x := by
    have cause' : ({ s with fabric := g } : State).rmCause p = s.rmCause p := rfl
    unfold State.homeRequest
    rw [hg]
    dsimp only
    rw [cause', if_pos bad, hx]
  rw [run]
  exact ⟨x, rfl, State.reg_count_same _ _ _, congrArg (· ++ [x]) hi, q, body, opc, cause, tag, dst⟩

/-- What stands where a request has been served: it is counted, and one answer with this OP and these data is to be sent. -/
structure Served (p : RmPacket) (opc : Nat) (data : List Byte) (s t : State) : Prop where
  counted : t.reg Reg.rmServed = (s.reg Reg.rmServed + 1) % 2 ^ 64
  sent : ∃ x, t.fabric.inject = s.fabric.inject ++ [x] ∧ ∃ q, x.body = .rm q ∧ q.opc = opc ∧ q.tag = p.tag ∧ q.data = data

/-- A request is served by its count and its answer. -/
theorem State.respond_served {s w : State} {p : RmPacket} {d : Nat} (dev : w.rankDev p.srcRank = some d)
    (counted : w.reg Reg.rmServed = (s.reg Reg.rmServed + 1) % 2 ^ 64) (fabric : w.fabric = s.fabric) (opc : Nat)
    (data : List Byte) : Served p opc data s (w.respond p opc 0 data) ∧ (w.respond p opc 0 data).tiers = w.tiers := by
  obtain ⟨x, hx, q, body, hopc, -, tag, -, hdata⟩ := State.respond_injects dev opc 0 data
  rw [hx]
  have inject : w.fabric.inject ++ [x] = s.fabric.inject ++ [x] := by rw [fabric]
  exact ⟨⟨(w.reg_inject x _).trans counted, x, inject, q, body, hopc, tag, hdata⟩, rfl⟩

/-! ### Recalls -/

/-- Whether a page is under recall hangs on two values. -/
theorem State.recalling_congr {s t : State} (state : t.reg Reg.recallState = s.reg Reg.recallState)
    (page : t.rmem.recallJpn = s.rmem.recallJpn) (jpn : Nat) : t.recalling jpn = s.recalling jpn := by
  unfold State.recalling
  rw [state, page]

/-- An answer leaves no copy to invalidate where its page is under no recall (R256). -/
theorem State.respond_recallCopy {s : State} {p : RmPacket} (calm : s.recalling (field p.jva 21 27) = false)
    (opc cause : Nat) (data : List Byte) (x : Nat) :
    (s.respond p opc cause data).recallCopy p x = s.respond p opc cause data := by
  have calm' : (s.respond p opc cause data).recalling (field p.jva 21 27) = false :=
    (State.recalling_congr (State.sendRank_reg s _ _ _ _ _ _ (by decide))
      (congrArg (·.recallJpn) (State.sendRank_rmem s ..)) _).trans calm
  generalize s.respond p opc cause data = t at calm'
  have other : t.reg Reg.recallState ≠ 1 ∨ t.rmem.recallJpn ≠ field p.jva 21 27 := by
    by_contra both
    obtain ⟨running, same⟩ := not_or.mp both
    simp [State.recalling, not_not.mp running, not_not.mp same] at calm'
  unfold State.recallCopy
  exact if_pos other

/-! ### The service of one request -/

section Serve

variable {s : State} {p : RmPacket} {r : XlateRec} (mapped : s.xlateOf (field p.jva 21 27) = some r) {d : Nat}
  (dev : s.rankDev p.srcRank = some d)

/-- The state in which a READ is answered: it is counted, and the directory may list new sharers. -/
def State.readServed (s : State) (dir : List (Nat × Nat)) : State :=
  { s.count64 Reg.rmServed 1 with rmem := { s.rmem with directory := dir } }

theorem State.readServed_reg (s : State) (dir : List (Nat × Nat)) (k : Nat) :
    (s.readServed dir).reg k = (s.count64 Reg.rmServed 1).reg k := State.reg_of_regs rfl k

include mapped

/-- A READ of lines without an error is answered with their bytes (R254, R260). -/
theorem State.serveRm_read (read : p.opc = 1) (clean : s.tiers.hbmBad = [])
    (calm : s.recalling (field p.jva 21 27) = false) : ∃ dir, s.serveRm ⟨p, false, [], none⟩ =
      (s.readServed dir).respond p 4 0 (memRead s.tiers.hbm (r.addr p.jva) (rmBytes p)) := by
  unfold State.serveRm
  simp only [mapped, read, clean, ne_eq, OfNat.one_ne_ofNat, not_false_eq_true, ↓reduceIte, List.contains_eq_mem,
    List.not_mem_nil, decide_false, List.any_eq_true, Bool.false_eq_true, and_false, exists_const, not_true_eq_false]
  split
  next => exact ⟨s.rmem.directory, rfl⟩
  next x _ =>
    have calm' (dir : List (Nat × Nat)) : (s.readServed dir).recalling (field p.jva 21 27) = false :=
      (State.recalling_congr ((s.readServed_reg dir _).trans (s.reg_count64_other 1 (by decide))) rfl _).trans calm
    exact ⟨_, State.respond_recallCopy (calm' _) ..⟩

include dev

theorem State.serveRm_read_served (read : p.opc = 1) (clean : s.tiers.hbmBad = [])
    (calm : s.recalling (field p.jva 21 27) = false) :
    Served p 4 (memRead s.tiers.hbm (r.addr p.jva) (rmBytes p)) s (s.serveRm ⟨p, false, [], none⟩) ∧
      (s.serveRm ⟨p, false, [], none⟩).tiers = s.tiers := by
  obtain ⟨dir, served⟩ := State.serveRm_read mapped read clean calm
  have dev' : (s.readServed dir).rankDev p.srcRank = some d :=
    (State.rankDev_of_tables (t := s.readServed dir) (s := s) rfl
      ((s.readServed_reg dir _).trans (s.reg_count64_other 1 (by decide))) _).trans dev
  rw [served]
  exact State.respond_served dev' ((s.readServed_reg dir _).trans ((s.reg_count64 ..).trans (if_pos rfl))) rfl _ _

omit mapped in
/-- What is written to the tiers is counted and acknowledged (R254, R259). -/
theorem State.acknowledged (m : Tiers) (lines : List Nat) :
    let t := ((({ s with tiers := m } : State).clearDir lines).count64 Reg.rmServed 1).respond p 5 0 []
    Served p 5 [] s t ∧ t.tiers = m := by
  let u := ({ s with tiers := m } : State).clearDir lines
  have dev' : (u.count64 Reg.rmServed 1).rankDev p.srcRank = some d := (u.rankDev_count64 (by decide) 1 _).trans dev
  have counted : (u.count64 Reg.rmServed 1).reg Reg.rmServed = (s.reg Reg.rmServed + 1) % 2 ^ 64 := by
    rw [State.reg_count64, if_pos rfl, State.reg_of_regs (t := u) (s := s) rfl]
  exact State.respond_served dev' counted rfl 5 []

/-- A WRITE is applied and acknowledged (R254, R259). -/
theorem State.serveRm_write_served (write : p.opc = 2) :
    Served p 5 [] s (s.serveRm ⟨p, false, [], none⟩) ∧
      (s.serveRm ⟨p, false, [], none⟩).tiers = (s.hbmWrite (r.addr p.jva) p.data).tiers := by
  have served : s.serveRm ⟨p, false, [], none⟩ = (((s.hbmWrite (r.addr p.jva) p.data).clearDir
      (s.physLines p)).count64 Reg.rmServed 1).respond p 5 0 [] := by
    simp [State.serveRm, mapped, write]
  rw [served]
  exact State.acknowledged dev _ _

/-- An ADD to lines without an error is applied and acknowledged (R251, R254, R259). -/
theorem State.serveRm_add_served (add : p.opc = 3) (clean : s.tiers.hbmBad = []) :
    Served p 5 [] s (s.serveRm ⟨p, false, [], none⟩) ∧
      (s.serveRm ⟨p, false, [], none⟩).tiers = (s.hbmAdd p.dtype (r.addr p.jva) p.data).tiers := by
  have served : s.serveRm ⟨p, false, [], none⟩ = (((s.hbmAdd p.dtype (r.addr p.jva) p.data).clearDir
      (s.physLines p)).count64 Reg.rmServed 1).respond p 5 0 [] := by
    simp [State.serveRm, mapped, add, clean]
  rw [served]
  exact State.acknowledged dev _ _

end Serve

/-! ### A request alone at its home -/

/-- Lines that the directory does not list have no sharer to ask. -/
theorem State.askSharers_unlisted {s : State} (empty : s.rmem.directory = []) (p : RmPacket) : s.askSharers p = ([], s) := by
  have unshared (l : Nat) : s.sharersOf l = [] := by simp [State.sharersOf, empty, mapGetD, maskMembers]
  unfold State.askSharers
  simp only [unshared, List.filter_nil, List.foldl_nil]
  exact foldl_keeps id (fun _ _ => rfl) _ _

/-- A request that comes alone, to lines that the directory does not list, is served at once and held no longer (R259). -/
theorem State.pumpHome_alone {s : State} {p : RmPacket} (alone : s.rmem.held = [⟨p, false, [], none⟩])
    (empty : s.rmem.directory = []) : s.pumpHome =
      { s.serveRm ⟨p, false, [], none⟩ with rmem := { (s.serveRm ⟨p, false, [], none⟩).rmem with held := [] } } := by
  unfold State.pumpHome
  rw [alone]
  simp [State.askSharers_unlisted empty]

/-- Two states alike in what a home's service looks at and changes, beside its queue and its directory. -/
structure HomeAlike (s t : State) : Prop where
  regs : t.regs = s.regs
  doms : t.doms = s.doms
  tiers : t.tiers = s.tiers
  inject : t.fabric.inject = s.fabric.inject
  page : t.rmem.recallJpn = s.rmem.recallJpn

/-- A request that passes its checks and meets no other is served in a state that differs from the one it comes to in nothing
that its service looks at. -/
theorem State.homeRequest_taken {s : State} {p : RmPacket} (passes : s.rmCause p = 0) (idle : s.rmem.held = [])
    (empty : s.rmem.directory = []) :
    ∃ u, HomeAlike s u ∧ HomeAlike (u.serveRm ⟨p, false, [], none⟩) (s.homeRequest p) := by
  obtain ⟨g, hg, hi⟩ := s.takeLanding_inject (.rm p)
  let u : State := { s with fabric := g, rmem := { s.rmem with held := [⟨p, false, [], none⟩] } }
  have passes' : ¬ ({ s with fabric := g } : State).rmCause p ≠ 0 := not_not.mpr passes
  have run : s.homeRequest p = u.pumpHome := by
    unfold State.homeRequest State.joinHome
    rw [hg]
    dsimp only
    rw [if_neg passes', idle]
    rfl
  rw [run, State.pumpHome_alone (s := u) rfl empty]
  exact ⟨u, ⟨rfl, rfl, rfl, hi, rfl⟩, ⟨rfl, rfl, rfl, rfl, rfl⟩⟩

/-- A well-formed request is a READ, a WRITE or an ADD (R253). -/
theorem opc_of_rmFormOk {p : RmPacket} (form : rmFormOk p = true) : p.opc = 1 ∨ p.opc = 2 ∨ p.opc = 3 := by
  unfold rmFormOk at form
  split at form
  next h => exact .inl h
  next h => exact .inr (.inl h)
  next h => exact .inr (.inr h)
  next => simp at form

/-- What passes the home's checks is a READ, a WRITE or an ADD of a page that no recall holds (R254, R256). -/
theorem State.rmCause_passes {s : State} {p : RmPacket} {r : XlateRec} (mapped : s.xlateOf (field p.jva 21 27) = some r)
    (passes : s.rmCause p = 0) : s.recalling (field p.jva 21 27) = false ∧ (p.opc = 1 ∨ p.opc = 2 ∨ p.opc = 3) := by
  have page : r.jpn = field p.jva 21 27 := by simpa using List.find?_some mapped
  unfold State.rmCause at passes
  rw [mapped] at passes
  simp only [firstFail, page] at passes
  split_ifs at passes with form range under allowed
  have free : s.recalling (field p.jva 21 27) = false := by
    by_contra held
    simp [State.recalled, held] at under
  exact ⟨free, opc_of_rmFormOk (by simpa using form)⟩

/-- Settles O17: a request is refused at its check, or served at once as the only one held. -/
theorem homeServesOrRefuses : Obligations.HomeServesOrRefuses := by
  intro s p d dev idle i hi
  have run : exec i s = .next (s.homeRequest p) := by
    simp only [List.mem_cons, List.not_mem_nil, or_false] at hi
    rcases hi with rfl | rfl | rfl <;> rfl
  rw [run]
  refine ⟨fun bad => ?_, fun r passes mapped empty clean => ?_⟩
  · obtain ⟨x, refused⟩ := State.homeRequest_refused dev bad
    exact ⟨_, x, rfl, refused⟩
  obtain ⟨calm, kind⟩ := State.rmCause_passes mapped passes
  obtain ⟨u, ⟨regs, doms, tiers, inject, page⟩, ⟨regs', -, tiers', inject', -⟩⟩ := State.homeRequest_taken passes idle empty
  have mappedU : u.xlateOf (field p.jva 21 27) = some r := by
    rw [← mapped, State.xlateOf, State.xlate, State.dom_of_doms doms]
    rfl
  have devU : u.rankDev p.srcRank = some d := (State.rankDev_of_tables doms (State.reg_of_regs regs _) _).trans dev
  have calmU := (State.recalling_congr (State.reg_of_regs regs _) page (field p.jva 21 27)).trans calm
  have cleanU : u.tiers.hbmBad = [] := by rw [tiers, clean]
  have counted : (s.homeRequest p).reg Reg.rmServed = (u.serveRm ⟨p, false, [], none⟩).reg Reg.rmServed :=
    State.reg_of_regs regs' _
  rw [← State.reg_of_regs regs Reg.rmServed, ← inject, ← tiers]
  obtain read | write | add := kind
  · obtain ⟨⟨count, x, sent, q, body, opc, tag, data⟩, kept⟩ := State.serveRm_read_served mappedU devU read cleanU calmU
    exact ⟨_, x, rfl, counted.trans count, inject'.trans sent,
      fun _ => ⟨tiers'.trans kept, q, body, opc, tag, data⟩, fun h => by omega, fun h => by omega⟩
  · obtain ⟨⟨count, x, sent, q, body, opc, tag, -⟩, written⟩ := State.serveRm_write_served mappedU devU write
    exact ⟨_, x, rfl, counted.trans count, inject'.trans sent, fun h => by omega,
      fun _ => ⟨congrArg (·.hbm) (tiers'.trans written), q, body, opc, tag⟩, fun h => by omega⟩
  · obtain ⟨⟨count, x, sent, q, body, opc, tag, -⟩, added⟩ := State.serveRm_add_served mappedU devU add cleanU
    exact ⟨_, x, rfl, counted.trans count, inject'.trans sent, fun h => by omega, fun h => by omega,
      fun _ => ⟨congrArg (·.hbm) (tiers'.trans added), q, body, opc, tag⟩⟩

end Sys2Proof.Machine
end

section
/-! SUPPORT and O19. A READ that brings a KiB: the statement asks of every number x that PORT_STATE of port x stays, and the key
that it computes for x = 0x3D90, which is no port, is that of RM_READ_KIB. -/

namespace Sys2Proof.Machine

open Sys2Proof

/-- The part at reset with a READ of 1,024 B outstanding at core 0. -/
def kibInFlight : State :=
  State.reset.updCore 0 (fun k => { k with rmOut := [slotRequest 1 0 1 0 1024 0 false none none] })

/-- The response to that READ. -/
def kibResponse : RmPacket :=
  { opc := 4, dtype := 0, cache := false, combined := false, cause := 0, srcRank := 1, dstRank := 0, tag := 0, len := 15,
    jva := 0, version := 1, rsvd := 0, data := List.replicate 1024 0 }

/-- The objects of "port" 0x3D90 lie at index 0x6090. -/
theorem portState_0x3D90 : Reg.portState 0x3D90 = Reg.rmReadKib := rfl

/-- Refutes O19: the response counts the KiB that it brings in RM_READ_KIB. -/
theorem not_remoteAndCollectiveFrames : ¬ Obligations.RemoteAndCollectiveFrames := by
  rintro ⟨frames, -⟩
  obtain ⟨frame, -⟩ := frames kibInFlight (.readData kibResponse)
  obtain ⟨t, run, -, -, -, -, -, ports, -⟩ := frame (by simp)
  have before : kibInFlight.reg Reg.rmReadKib = 0 := by decide +kernel
  have after : (match exec (.readData kibResponse) kibInFlight with
      | .next t => t.reg Reg.rmReadKib
      | _ => 0) = 1 := by decide +kernel
  rw [run] at after
  have kept := ports 0x3D90
  rw [portState_0x3D90, before] at kept
  exact absurd (kept.symm.trans after) (by decide)

end Sys2Proof.Machine
end
